-- ==== Sys2Proof/Word.lean ====
section
/-! DEFINITION. The byte of the serial port and the plainest arithmetic over it (R186).
Everything a test could show wrong (layouts, check byte, packing) stands in `Machine/Layout.lean`. -/

namespace Sys2Proof

/-- One byte of the serial port (R186: 8 data bits). -/
abbrev Byte := BitVec 8

/-- The low eight bits of a number, as a byte. -/
abbrev byteOf (n : Nat) : Byte := BitVec.ofNat 8 n

/-- A wall-clock time: the count of seconds since 2000-01-01 00:00:00, the form R186 gives a time on the link. -/
abbrev Time := Nat

end Sys2Proof
end

