-- ==== Sys2Proof/Syntax.lean ====
section
/-! DEFINITION. The commands of the block: one constructor of `Instr` for each row of spec/opcode_table.json.

A row is one indivisible step of the part (spec/95). The table gives no operand fields and no bits. The operands
below are what the row's own rule reads from outside the part: the arguments of a host command as the payload
bytes LINK received (R186, R198), the level an input was read at, the coin code, the tone presence of an interval.
Timer expiries carry no operand: the timer is in `State`. -/

namespace Sys2Proof

/-- The two tariff banks (R109). -/
inductive BankName where
  | a | b
deriving DecidableEq, Repr

/-- The thirteen keys of the keypad: ten digits, `*`, `#` and FOLLOW-ON (R24). -/
inductive Key where
  | digit (d : Fin 10)
  | star
  | hash
  | followOn
deriving DecidableEq, Repr

/-- The four cadences of the centre (R51); `again` is the cadence the manual names REPEAT. -/
inductive Cadence where
  | ready | ack | again | bye
deriving DecidableEq, Repr

/-- The reason byte of a frame fault, in the order of R188. -/
inductive FrameReason where
  | timeout | lengthRange | check | overrun
deriving DecidableEq, Repr

/-- The nine retained areas of STORE, in the order R178 lists them. -/
inductive AreaName where
  | config | call | coin | bankA | bankB | vault | incd | rpt | log
deriving DecidableEq, Repr

/-- Which of the two copies of the power-loss marker read whole at a start (R180). -/
inductive MarkerRead where
  | both | first | second | neither
deriving DecidableEq, Repr

/-- The commands and events of the part, one constructor per row of the table, in the table's order. -/
inductive Instr where
  /-- POWER_UP (R179): the backup held the clock or not (R182), the copies of the power-loss marker that read (R180), and
  the areas of which neither copy's check word matches any more (R179). -/
  | powerUp (backupHeld : Bool) (marker : MarkerRead) (lost : List AreaName)
  /-- POWER_FAIL (R180): the areas whose latest write had not been completed when the power failed (R178). -/
  | powerFail (torn : List AreaName)
  | startComplete
  /-- KEY_READING_END (R39): the keys found closed. -/
  | keyReadingEnd (closed : List Key)
  /-- HOOK_READING_END (R28): the position read. -/
  | hookReadingEnd (offHook : Bool)
  /-- SWITCH_READING_END (R137): the positions read. -/
  | switchReadingEnd (keyOn vaultOpen housingOpen : Bool)
  /-- CORD_READING_END (R154): whether the loop read open on every sample. -/
  | cordReadingEnd (loopOpen : Bool)
  /-- VOLTAGE_READING_END (R61): whether the voltage was absent throughout. -/
  | voltageReadingEnd (absentThroughout : Bool)
  | status (payload : List Byte)
  | configSet (payload : List Byte)
  | configGet (payload : List Byte)
  | clockSet (payload : List Byte)
  | clockGet (payload : List Byte)
  | bankOpen (payload : List Byte)
  | bankPutClass (payload : List Byte)
  | bankPutPrefix (payload : List Byte)
  | bankDropPrefix (payload : List Byte)
  | bankPutSchedule (payload : List Byte)
  | bankPutHoliday (payload : List Byte)
  | bankClose (payload : List Byte)
  | bankActivate (payload : List Byte)
  | bankCancel (payload : List Byte)
  | bankInfo (payload : List Byte)
  | snapshot (payload : List Byte)
  | logRead (payload : List Byte)
  | logRelease (payload : List Byte)
  | incidentList (payload : List Byte)
  | incidentClear (payload : List Byte)
  | vaultRead (payload : List Byte)
  | collectionRead (payload : List Byte)
  | terminalBlock (payload : List Byte)
  | terminalUnblock (payload : List Byte)
  | reportNow (payload : List Byte)
  /-- ACTUATE REFUND_ONE; an ACTUATE frame that names no action stands here too (R135 test 1). -/
  | refundOne (payload : List Byte)
  | collectTestOne (payload : List Byte)
  | restoreInlet (payload : List Byte)
  | restoreEscrow (payload : List Byte)
  | restart (payload : List Byte)
  | factoryClear (payload : List Byte)
  /-- UNKNOWN_COMMAND (R188, R190): a sound frame of a KIND that names no command. -/
  | unknownCommand (kind : Byte) (payload : List Byte)
  /-- BYTE_RECEIVED (R187): the byte. -/
  | byteReceived (b : Byte)
  | frameTimeout
  /-- FRAME_FAULT (R188): the reason of the fault taken. -/
  | frameFault (reason : FrameReason)
  | transmitDone
  | keyPress (k : Key)
  | keyRelease (k : Key)
  | stuckTimerExpiry (k : Key)
  | firstDigitTimeout
  | interDigitTimeout
  | hookOff
  | hookOn
  | depositTimeout
  | answerTimeout
  | abandonedTimeout
  | rejectToneEnd
  | warningRepeat
  | lastAliveWrite
  | guardEnd
  | dialToneTimeout
  | dialToneRecognised
  | busyRecognised
  | sendingComplete
  | sendComplete
  | loopCurrentPresent
  | loopCurrentAbsent
  | loopCurrentLost
  /-- METER_PULSE (R49, R50): whether the pulse is marked long. -/
  | meterPulse (long : Bool)
  | reversalAccepted
  | returnAccepted
  /-- CADENCE_RECOGNISED (R52): the cadence. -/
  | cadenceRecognised (c : Cadence)
  | voltageAbsent
  | voltagePresent
  /-- VALIDATOR_STROBE (R62): the four code lines and the suspect line at the rise. -/
  | validatorStrobe (code : BitVec 4) (suspect : Bool)
  | strobeFall
  | entrySensor
  | confirmationWindowEnd
  | jamLineAsserted
  | jamLineReleased
  | jamLineTimeout
  | vaultSensor
  | returnSensor
  | exitTimerExpiry
  | reversalPulse
  | lockoutExpiry
  | periodEnd
  | supervisionTimeout
  | graceTimerExpiry
  | activationInstant
  | clockTick
  | keyOn
  | keyOff
  | vaultDoorOpened
  | vaultDoorClosed
  | housingDoorOpened
  | housingDoorClosed
  | graceExpired
  | cordLoopOpen
  | cordLoopClosed
  | shockPulse
  | attemptStart
  | readyTimeout
  | ackTimeout
  | closeTimeout
  | backoffExpiry
  | waitMinuteWrite
  /-- TONE_DETECTOR_INTERVAL (R47 to R52): presence of tone in the call-progress, meter and centre bands. -/
  | toneDetectorInterval (progress meter centre : Bool)
deriving DecidableEq, Repr

end Sys2Proof
end

