-- ==== Sys2Proof/Config.lean ====
section
/-! DEFINITION. The free values of the model: constants with no body, so that no proof can see what they are. -/

namespace Sys2Proof.Config

/-- Which of several things that fall at the same instant is taken first. The manual says "either may be taken
first" (R25, R31, R38, R41, R43, R46, R47, R64, R68, R74, R95, R103, R119, R121, R130, R132, R148, R158, R160, R163,
R165, R167). The argument is the number of such choices made so far (`State.ties`); the answer is reduced modulo the
number of things that fall together. Nothing constrains it. -/
opaque tieChoice : Nat → Nat

/-- The byte that names ALL in INCIDENT_CLEAR (R152), for which the manual states no value: it is one of the 244
bytes that are no kind 1..12 (R138). The byte itself is `Machine.incidentAllByte` of `Machine/Operands.lean`. Nothing
constrains which. -/
opaque incidentAllCode : Fin 244

end Sys2Proof.Config
end

