-- ==== Sys2Proof/Machine/State.lean ====
section
/-! DEFINITION. The state of the part as plain data: every piece of state the spec's blocks hold, the two copies of
the nine retained areas, the input pins, the queue of waiting commands, and the model's own bookkeeping (the part's
own time in milliseconds, the events the detectors have raised, the count of tie choices).

Conventions (notes/assumptions 1, 2): a running timer is the instant of its expiry in the part's own milliseconds,
a stopped timer is `none`. Money, counts and durations are `Nat`; R173 says that saturation happens in the link form only. -/

namespace Sys2Proof.Machine

/-- A model fault. No meaning of this model ends in one: the manual gives every step an effect. The type keeps one
constructor because the host's interface names a fault type; raised by nobody, hence safe. -/
inductive Fault where
  /-- Raised by no meaning. Safe. -/
  | neverRaised
deriving DecidableEq, Repr

/-- Why an instruction has no meaning. -/
inductive Refusal where
  /-- A command without a meaning yet, by its table name; raised by `exec`'s refused arms only (there are none). Safe. -/
  | notModelled (mnemonic : String)
deriving DecidableEq, Repr

/-! ### Symbols, names and small kinds -/

/-- A dial-buffer symbol: 0–9 or `*` (R30: `#` is never stored). -/
inductive Symbol where
  | digit (d : Fin 10)
  | star
deriving DecidableEq, Repr

/-- The symbols LINE sends by DTMF (R54). -/
inductive Dtmf where
  | digit (d : Fin 10)
  | star | hash | a | d
deriving DecidableEq, Repr

/-- R5, R37, R172: the analysed kind of a dialled number. -/
inductive NumberKind where
  | none | emergency | free | charged | barred
deriving DecidableEq, Repr

/-- The kind of a tariff entry (R114). -/
inductive EntryKind where
  | charged | free | barred
deriving DecidableEq, Repr

/-- The eleven call states, in the order of R1. -/
inductive CallState where
  | idle | collecting | awaitDeposit | waitLine | seizing | sending | ringing | connected | clearing
  | followOnClearing | abandoned
deriving DecidableEq, Repr

/-- The service levels, in the order of R3. -/
inductive ServiceLevel where
  | emergencyOnly | freeOnly | full
deriving DecidableEq, Repr

/-- The sixteen end causes, in the order of R172's link form (1..16). -/
inductive EndCause where
  | userClear | farEnd | noAnswer | busy | noDialTone | lineLost | creditOut | escrowFault | barred | incomplete
  | noDeposit | refused | followOn | incident | power | restart
deriving DecidableEq, Repr

/-- Earpiece tones, in the order of R6. WARNING is a burst over LINE and is held in `CallBlock.lastWarning`. -/
inductive Tone where
  | silent | ready | deposit | reject | line
deriving DecidableEq, Repr

/-- R25. -/
inductive KeyState where
  | released | pressed | blocked | stuck
deriving DecidableEq, Repr

/-- R28. -/
inductive Hook where
  | onHook | offHook
deriving DecidableEq, Repr

/-- R29. -/
inductive Collection where
  | inactive | awaitFirst | collectingDigits | done
deriving DecidableEq, Repr

/-- R40. -/
inductive LineState where
  | free | guard | seizedWaitTone | sending | seized
deriving DecidableEq, Repr

/-- R40. -/
inductive Owner where
  | none | call | rpt
deriving DecidableEq, Repr

/-- R192 item 19. -/
inductive SendingMethod where
  | dtmf | loopPulse
deriving DecidableEq, Repr

/-- R192 item 23. -/
inductive MeterFreq where
  | khz12 | khz16
deriving DecidableEq, Repr

/-- The configured rating mode, R192 item 18. -/
inductive ConfigMode where
  | localTiming | meter
deriving DecidableEq, Repr

/-- RATE's rating mode (R89, R102). -/
inductive RatingMode where
  | localTiming | meter | meterFallback
deriving DecidableEq, Repr

/-- R60. -/
inductive Watch where
  | present | cut
deriving DecidableEq, Repr

/-- R62. -/
inductive Latch where
  | none | accept | reject
deriving DecidableEq, Repr

/-- The reject reasons, in the order of R63. -/
inductive RejectReason where
  | overrun | unrecognised | disabled | inletFault | lockout | escrowFault | doorOpen | vaultFull | noCall
  | refundPending | tubeFull
deriving DecidableEq, Repr

/-- The inlet states, in the order of R65. -/
inductive Inlet where
  | outOfOrder | lockout | closed | opened
deriving DecidableEq, Repr

/-- R72. -/
inductive EscrowOrder where
  | inOrder | outOfOrder
deriving DecidableEq, Repr

/-- The mover (R73). -/
inductive Mover where
  | idle | collecting | refunding
deriving DecidableEq, Repr

/-- A stroke kind. -/
inductive Stroke where
  | collect | refund
deriving DecidableEq, Repr

/-- The refund run (R77, R84, R85). -/
inductive RefundRun where
  | none | callEnd | startUp | purge
deriving DecidableEq, Repr

/-- R88. -/
inductive Phase where
  | inactive | settling | running | warning | grace | ended
deriving DecidableEq, Repr

/-- R110. -/
inductive BankState where
  | empty | loading | ready | pending | active | retiring
deriving DecidableEq, Repr

/-- The three day types. -/
inductive DayType where
  | workday | saturday | sundayHoliday
deriving DecidableEq, Repr

/-- When a pending activation is made (R118). -/
inductive When where
  | now
  | time (t : Time)
deriving DecidableEq, Repr

/-- R123. -/
inductive BankCause where
  | opened | closed | scheduled | cancelled | activated | displaced | retired | startup
deriving DecidableEq, Repr

/-- R129. -/
inductive ServiceState where
  | normal | service | serviceGrace
deriving DecidableEq, Repr

/-- How a collection was closed (R134). -/
inductive Closing where
  | inService | inNormal | atStart
deriving DecidableEq, Repr

/-- The twelve incident kinds, in number order (R138). -/
inductive IncidentKind where
  | vaultForced | housingForced | cordCut | chuteReversal | inletJam | escrowJam | lineCut | shock | keyStuck
  | hookStuck | vaultFull | powerLoss
deriving DecidableEq, Repr

/-- R138. -/
inductive Severity where
  | urgent | major | minor
deriving DecidableEq, Repr

/-- R155. -/
inductive ReportState where
  | idle | wait | readyToStart | seize | dial | awaitReady | send | awaitAck | close
deriving DecidableEq, Repr

/-- R165. -/
inductive ReportFailure where
  | noDialTone | busy | lineLost | noReady | noAck
deriving DecidableEq, Repr

/-- R167. -/
inductive AbortCause where
  | hookOff | lineRequest
deriving DecidableEq, Repr

/-- R175. -/
inductive LogLevel where
  | normal | near | chargedHeld | full
deriving DecidableEq, Repr

/-- R180: what a copy of the marker reads, or the marker itself; `unreadable` when no copy can be read. -/
inductive Marker where
  | running | restarting | clearing | unreadable
deriving DecidableEq, Repr

/-- R185. -/
inductive StartKind where
  | power | restart | factory
deriving DecidableEq, Repr

/-- The notice kinds hex 40..4D, in order (R193's table). -/
inductive NoticeKind where
  | hook | dialled | coin | credit | callState | callEnd | incident | report | vault | service | bank | line | log
  | started
deriving DecidableEq, Repr

/-- Whether the part has power, is starting (R185), runs, or waits for the reply to RESTART or FACTORY_CLEAR to have
been sent (R184: "no other block takes an event"). -/
inductive Power where
  | off | starting | running | halted
deriving DecidableEq, Repr

/-! ### Configuration (R192) -/

/-- The configuration items 1..36 and the terminal-blocked flag (item 37). -/
structure ConfigItems where
  denomValue : List Nat
  denomEnabled : List Bool
  chargeStep : Nat
  ratingMode : ConfigMode
  sendingMethod : SendingMethod
  dialToneWait : Nat
  reversalAnswer : Bool
  meterMinBurst : Nat
  meterFreq : MeterFreq
  centreFreq : Nat
  interDigit : Nat
  depositWait : Nat
  answerWait : Nat
  emergency : List (List Symbol)
  vaultCapacity : Nat
  nearFullMark : Nat
  terminalId : List Symbol
  centreNumber : List Symbol
  masked : List NoticeKind
  terminalBlocked : Bool
deriving DecidableEq, Repr

/-- The defaults of R192. -/
def ConfigItems.default : ConfigItems where
  denomValue := [0, 0, 0, 0, 0, 0, 0, 0]
  denomEnabled := [false, false, false, false, false, false, false, false]
  chargeStep := 10
  ratingMode := .localTiming
  sendingMethod := .dtmf
  dialToneWait := 5
  reversalAnswer := true
  meterMinBurst := 40
  meterFreq := .khz16
  centreFreq := 1400
  interDigit := 6
  depositWait := 30
  answerWait := 90
  emergency := [[], [], [], []]
  vaultCapacity := 1500
  nearFullMark := 1400
  terminalId := []
  centreNumber := []
  masked := []
  terminalBlocked := false

/-! ### The call record (R172) and CALL's slots (R2) -/

/-- The condition flags, in the order of R172. -/
structure RecordFlags where
  clockUnset : Bool := false
  periodClamped : Bool := false
  bandChanged : Bool := false
  pulseFallback : Bool := false
  longPulse : Bool := false
  suspectCoin : Bool := false
  powerMove : Bool := false
  escrowUnknown : Bool := false
deriving DecidableEq, Repr

/-- A coin count with its value. -/
structure CoinSum where
  coins : Nat := 0
  value : Nat := 0
deriving DecidableEq, Repr

/-- A call record (R172). `cause` is absent while the call runs; `seq` is 0 until the record is stored. -/
structure CallRecord where
  seq : Nat := 0
  follows : Option Nat := none
  offHook : Option Time := none
  answer : Option Time := none
  endTime : Option Time := none
  elapsed : Nat := 0
  connected : Option Nat := none
  digits : List Symbol := []
  kind : NumberKind := .none
  cls : Option Nat := none
  bank : Option (BankName × List Byte) := none
  mode : ConfigMode := .localTiming
  fallbackUsed : Bool := false
  periods : Nat := 0
  pulses : Nat := 0
  initial : Nat := 0
  charged : Nat := 0
  collected : Nat := 0
  unsettled : Nat := 0
  carriedIn : Nat := 0
  carriedOut : Nat := 0
  takenOver : CoinSum := {}
  passedOn : CoinSum := {}
  accepted : List Nat := [0, 0, 0, 0, 0, 0, 0, 0]
  unconfirmed : Nat := 0
  /-- R77, R78: of the three, the value and the coin count; the record's link form has a place for the value (R173;
  DEDUCED, notes/assumptions 68). -/
  refunded : CoinSum := {}
  jammed : CoinSum := {}
  stranded : CoinSum := {}
  cause : Option EndCause := none
  flags : RecordFlags := {}
deriving DecidableEq, Repr

/-- A record slot of CALL: the record with what measures it. `offAt` is the part's own instant of off-hook;
`answerElapsed` the tenths from off-hook to answer; `lastAlive` the mark of R181; `ended` says that the end instant
is fixed; `complete` that the record waits for storage only (R17). `base` and `lastCoin` are the model's own, by which a start
knows what the record has counted (notes/assumptions 97): the number of the last coin that entered the escrow before those
the record owns, and the number and denomination of the last coin that it counted as accepted. -/
structure Slot where
  record : CallRecord
  offAt : Nat
  base : Nat := 0
  lastCoin : Option (Nat × Nat) := none
  answerElapsed : Option Nat := none
  lastAlive : Nat := 0
  ended : Bool := false
  complete : Bool := false
deriving DecidableEq, Repr

/-- The call controller (R1, R2). -/
structure CallBlock where
  state : CallState
  level : Option ServiceLevel
  openSlot : Option Slot
  closingSlot : Option Slot
  /-- Records being closed at start-up (R87, R181), oldest first. -/
  atStart : List Slot
  heldFollowOn : Bool
  /-- The minimum deposit I + S as read at completion (R10). -/
  deposit : Nat
  depositTimer : Option Nat
  answerTimer : Option Nat
  abandonedTimer : Option Nat
  /-- 60 s of REJECT in ABANDONED (R20). -/
  rejectTimer : Option Nat
  /-- The 5 s repetition of WARNING (R6). -/
  warningTimer : Option Nat
  /-- The whole-second last-alive write (R181). -/
  aliveTimer : Option Nat
  earpiece : Tone
  /-- The instant the tone was selected, from which its pattern runs (R6). -/
  toneSince : Nat
  /-- The instant of the latest WARNING sounded. -/
  lastWarning : Option Nat
  /-- The handset has been on-hook since the end instant (R18). -/
  replaced : Bool
  /-- Step 5 of R16 has been asked of COIN for the record in the open slot. -/
  refundAsked : Bool
  /-- The stroke number of the last COLLECT credited (R74). -/
  lastCredited : Option Nat
  /-- The instant a RESTART was taken, with the clock then (R181). -/
  restartEnd : Option (Nat × Option Time)
deriving DecidableEq, Repr

/-! ### KEYS -/

/-- One key: its state, its stuck timer, and whether it was found closed at the latest start (R26, R39). -/
structure KeyCell where
  state : KeyState := .released
  stuckTimer : Option Nat := none
  foundClosed : Bool := false
deriving DecidableEq, Repr

/-- An entry of a bank's number table (R114). -/
structure TableEntry where
  digits : List Symbol
  kind : EntryKind
  cls : Nat
  minLen : Nat
  maxLen : Nat
deriving DecidableEq, Repr

/-- The keypad and hook scanner. `cells` holds the keys in the order 0–9, `*`, `#`, FOLLOW-ON. -/
structure KeysBlock where
  cells : List KeyCell
  hook : Hook
  collection : Collection
  buffer : List Symbol
  firstDigitTimer : Option Nat
  interDigitTimer : Option Nat
  best : Option TableEntry
deriving DecidableEq, Repr

/-! ### LINE -/

/-- The tone run or the silence in progress: presence, and its length in ms at the latest interval's end (whole 5 ms
intervals). -/
structure Run where
  tone : Bool := false
  ms : Nat := 0
deriving DecidableEq, Repr

/-- The call-progress channel (R47, R48): `runOk` says that the latest tone run lasted 400..600 ms and its silence
is being measured. -/
structure ProgressChannel where
  active : Bool := false
  dialTiming : Bool := false
  busyWatch : Bool := false
  run : Run := {}
  runOk : Bool := false
  cycles : Nat := 0
deriving DecidableEq, Repr

/-- A burst in progress on the meter channel: its length, its minimum read when it began, and whether it has
already been judged long (R49). -/
structure Burst where
  ms : Nat
  minimum : Nat
  judged : Bool
deriving DecidableEq, Repr

/-- The meter channel (R49): `gap` is the silence since the end of the previous run (`none`: no previous run);
`ignoring` marks a run that began too soon; `broken` says that the silence began inside the detector interval now
running, which is then no whole interval of it. -/
structure MeterChannel where
  active : Bool := false
  gap : Option Nat := none
  burst : Option Burst := none
  ignoring : Bool := false
  broken : Bool := false
deriving DecidableEq, Repr

/-- The centre channel (R51, R52): the cadence whose tone run has just ended, the latest complete cadence and its
count, and whether 400 ms of silence are awaited after a delivery. -/
structure CentreChannel where
  active : Bool := false
  run : Run := {}
  candidate : Option Cadence := none
  latest : Option Cadence := none
  count : Nat := 0
  hold : Bool := false
deriving DecidableEq, Repr

/-- The line interface. -/
structure LineBlock where
  state : LineState
  owner : Owner
  digits : List Dtmf
  method : SendingMethod
  guardTimer : Option Nat
  dialToneTimer : Option Nat
  /-- End of the digit string being sent (R53), with the instant sending began. -/
  sendTimer : Option Nat
  sendStart : Nat
  armed : Bool
  /-- Start of the absence being timed (R45). -/
  absentSince : Option Nat
  /-- An ending report has been delivered (R46). -/
  reported : Bool
  /-- The reference polarity, as the raw polarity input (R57). -/
  reference : Bool
  reversed : Bool
  answered : Bool
  /-- Start of the polarity hold being timed (R57), and the polarity last judged. -/
  holdSince : Option Nat
  polaritySeen : Bool
  meterFreq : MeterFreq
  centreFreq : Nat
  progress : ProgressChannel
  meter : MeterChannel
  centre : CentreChannel
  /-- The next 5 ms boundary of the tone detector while the loop is closed. -/
  detectorTimer : Option Nat
  /-- The symbol sender: the string in hand and the end of its sending; `none` is IDLE (R56). -/
  sender : Option (List Dtmf × Nat)
  watch : Watch
  /-- Start of the voltage run contrary to the watch state (R60). -/
  voltSince : Option Nat
deriving DecidableEq, Repr

/-! ### COIN -/

/-- The entry transit record (R67). -/
structure Transit where
  denom : Nat
  value : Nat
  suspect : Bool
  acceptAt : Nat
  windowEnd : Nat
deriving DecidableEq, Repr

/-- An escrow entry (R71): `moving` holds the stroke kind and, for a COLLECT, the stroke number (R74). `counted` is the
model's own: at a start, no record has to count the coin any more, for it was counted before the loss of power, or its record
has been stored (notes/assumptions 97). -/
structure EscrowEntry where
  denom : Nat
  value : Nat
  suspect : Bool
  entryAt : Option Nat
  moving : Option (Stroke × Nat)
  counted : Bool := false
deriving DecidableEq, Repr

/-- The tallies of a refund run, COIN's own (R77); the record that owns the escrow is counted up coin by coin. -/
structure RunTally where
  refunded : CoinSum := {}
  jammed : CoinSum := {}
  stranded : CoinSum := {}
deriving DecidableEq, Repr

/-- The coin path. `gone` is the model's own: how many coins have left the escrow list, so that the entries of the list are
the coins `gone + 1`, `gone + 2`, … (notes/assumptions 97). -/
structure CoinBlock where
  latch : Latch
  inletFault : Bool
  unconfirmed : Nat
  lockoutTimer : Option Nat
  jamTimer : Option Nat
  transit : Option Transit
  escrow : List EscrowEntry
  order : EscrowOrder
  mover : Mover
  exitTimer : Option Nat
  /-- The stroke under way has no entry (R81, R85). -/
  blind : Bool
  run : RefundRun
  tally : RunTally
  /-- A run has ended, and CALL has not yet taken its end (R77). -/
  report : Bool
  /-- The stranded tally (R78). -/
  strandedTally : CoinSum
  /-- The stroke number of the latest COLLECT, 0 before the first (R74). -/
  strokeNo : Nat
  gone : Nat
  purgeStrokes : Nat
  /-- The purge count of this start (R85), absent when no purge was made. -/
  purgeCount : Option Nat
deriving DecidableEq, Repr

/-! ### RATE -/

/-- The call account (R86). -/
structure Account where
  carried : Nat := 0
  collected : Nat := 0
  charged : Nat := 0
  unused : Nat := 0
  due : Nat := 0
  last : Option Nat := none
  unsettled : Nat := 0
deriving DecidableEq, Repr

/-- The running period: start and end in the part's own milliseconds (R97). -/
structure Period where
  band : Nat
  rate : Nat
  remainder : Nat
  startAt : Nat
  endAt : Nat
deriving DecidableEq, Repr

/-- A step held back during an absence of loop current (R96); `period` tells the step of a period, which raises the periods
started, from the initial charge, which raises no count (R90). -/
structure HeldStep where
  time : Nat
  amount : Nat
  period : Bool
deriving DecidableEq, Repr

/-- RATE's condition flags (R104). -/
structure RateFlags where
  clockUnset : Bool := false
  periodClamped : Bool := false
  bandChanged : Bool := false
  pulseFallback : Bool := false
  longPulse : Bool := false
deriving DecidableEq, Repr

/-- The rating unit. -/
structure RateBlock where
  phase : Phase
  acct : Account
  cls : Option Nat
  bank : Option BankName
  initial : Nat
  rates : List Nat
  step : Nat
  mode : Option RatingMode
  /-- The mode as fixed at answer, for the record (R104). -/
  fixedMode : ConfigMode
  fallbackUsed : Bool
  answerAt : Nat
  /-- The current band and rate: of the latest band resolution of the call (R97, R102). -/
  band : Option Nat
  rate : Nat
  period : Option Period
  /-- The supervision limit G in tenths (R102). -/
  limit : Nat
  superTimer : Option Nat
  graceTimer : Option Nat
  graceExpired : Bool
  held : List HeldStep
  periods : Nat
  pulses : Nat
  flags : RateFlags
  /-- CALL has told RATE that the call has ended, and a COLLECT stroke in flight is awaited (R105 step 3). -/
  closing : Bool
deriving DecidableEq, Repr

/-- RATE with no account (R88). -/
def RateBlock.inactive : RateBlock where
  phase := .inactive
  acct := {}
  cls := none
  bank := none
  initial := 0
  rates := [0, 0, 0, 0]
  step := 0
  mode := none
  fixedMode := .localTiming
  fallbackUsed := false
  answerAt := 0
  band := none
  rate := 0
  period := none
  limit := 0
  superTimer := none
  graceTimer := none
  graceExpired := false
  held := []
  periods := 0
  pulses := 0
  flags := {}
  closing := false

/-! ### BANK -/

/-- The price of a class (R113). -/
structure Price where
  initial : Nat
  rates : List Nat
deriving DecidableEq, Repr

/-- A switch point. -/
structure SwitchPoint where
  minute : Nat
  band : Nat
deriving DecidableEq, Repr

/-- A holiday entry (R116). -/
structure Holiday where
  month : Nat
  day : Nat
  year : Option Nat
deriving DecidableEq, Repr

/-- The six parts of a bank. -/
structure BankContents where
  label : List Byte
  defaultBand : Option Nat
  classes : List (Option Price)
  workday : List SwitchPoint
  saturday : List SwitchPoint
  sunday : List SwitchPoint
  holidays : List Holiday
  table : List TableEntry
deriving DecidableEq, Repr

/-- Contents emptied (R111). -/
def BankContents.emptied : BankContents where
  label := []
  defaultBand := none
  classes := List.replicate 32 none
  workday := []
  saturday := []
  sunday := []
  holidays := []
  table := []

/-- One bank: state, contents, activation serial number and the pending activation that names it. -/
structure Bank where
  state : BankState
  contents : BankContents
  serial : Nat
  due : Option When
deriving DecidableEq, Repr

/-- An EMPTY bank (R124). -/
def Bank.factory : Bank where
  state := .empty
  contents := BankContents.emptied
  serial := 0
  due := none

/-- The tariff store: both banks and their in-use marks. -/
structure BankBlock where
  a : Bank
  b : Bank
  inUseA : Bool
  inUseB : Bool
deriving DecidableEq, Repr

/-! ### VAULT -/

/-- The vault counters (R125). -/
structure Counters where
  denoms : List Nat := [0, 0, 0, 0, 0, 0, 0, 0]
  unknown : Nat := 0
  total : Nat := 0
  value : Nat := 0
deriving DecidableEq, Repr

/-- The last collection record (R134). -/
structure CollectionRecord where
  number : Nat
  openTime : Option Time
  closeTime : Option Time
  counters : Counters
  closing : Closing
deriving DecidableEq, Repr

/-- The vault and service unit. The collection-in-progress record is its open time, itself optional. -/
structure VaultBlock where
  counters : Counters
  nearFull : Bool
  full : Bool
  vaultOpen : Bool
  housingOpen : Bool
  vaultGrace : Bool
  housingGrace : Bool
  keyOn : Bool
  service : ServiceState
  graceTimer : Option Nat
  progress : Option (Option Time)
  last : Option CollectionRecord
  number : Nat
  lastStroke : Option Nat
deriving DecidableEq, Repr

/-! ### INCD -/

/-- An incident entry (R142); severity is fixed by kind. -/
structure Incident where
  kind : IncidentKind
  first : Option Time
  last : Option Time
  count : Nat
  reported : Nat
  active : Bool
deriving DecidableEq, Repr

/-- The incident monitor: the map in kind order, the cord loop state (`none` until its reading, R153) and the shock
window, oldest instant first. -/
structure IncdBlock where
  map : List Incident
  cordOpen : Option Bool
  window : List Nat
deriving DecidableEq, Repr

/-! ### RPT -/

/-- A block of the block list (R161). -/
structure ReportBlock where
  terminal : List Symbol
  position : Nat
  kind : IncidentKind
  active : Bool
  count : Nat
  first : Option Time
  last : Option Time
deriving DecidableEq, Repr

/-- The report dialler. `backoffTimer` runs in R_WAIT; `savedWait` is the remaining wait as last written (R166), in
tenths; `quietSince` is the idle guard timer's start (R157). -/
structure RptBlock where
  state : ReportState
  failures : Nat
  urgentFailures : Nat
  backoffTimer : Option Nat
  minuteTimer : Option Nat
  savedWait : Nat
  quietSince : Option Nat
  readyTimer : Option Nat
  ackTimer : Option Nat
  closeTimer : Option Nat
  terminal : List Symbol
  number : List Symbol
  blocks : Option (List ReportBlock)
  index : Nat
  sends : Nat
deriving DecidableEq, Repr

/-! ### STORE -/

/-- RATE's state kept beside the open record (R86): the account, the period state (current band, current rate, and the
running period's remainder, start and end) and the counts, with what the record takes from the closed account. -/
structure SavedAccount where
  acct : Account
  cls : Option Nat
  bank : Option BankName
  initial : Nat
  fixedMode : ConfigMode
  fallbackUsed : Bool
  band : Option Nat
  rate : Nat
  period : Option Period
  periods : Nat
  pulses : Nat
  flags : RateFlags
deriving DecidableEq, Repr

/-- CALL's retained area (R2, R74, R86, R181). `gone` is the model's own: how many coins that have left the escrow CALL's
records have counted (notes/assumptions 97). -/
structure CallArea where
  openSlot : Option Slot := none
  closingSlot : Option Slot := none
  atStart : List Slot := []
  account : Option SavedAccount := none
  lastCredited : Option Nat := none
  restartEnd : Option (Nat × Option Time) := none
  gone : Nat := 0
deriving DecidableEq, Repr

/-- COIN's retained area; `gone` as in `CoinBlock`. -/
structure CoinArea where
  escrow : List EscrowEntry := []
  order : EscrowOrder := .inOrder
  inletFault : Bool := false
  unconfirmed : Nat := 0
  strandedTally : CoinSum := {}
  strokeNo : Nat := 0
  gone : Nat := 0
deriving DecidableEq, Repr

/-- VAULT's retained area. -/
structure VaultArea where
  counters : Counters := {}
  progress : Option (Option Time) := none
  last : Option CollectionRecord := none
  number : Nat := 0
  lastStroke : Option Nat := none
deriving DecidableEq, Repr

/-- RPT's retained area (R171). -/
structure RptArea where
  failures : Nat := 0
  urgentFailures : Nat := 0
  savedWait : Nat := 0
deriving DecidableEq, Repr

/-- The call log (R174). `handed` is the model's own: the instant at which the latest call handed to the log began, by
which a start knows a record that it finds in CALL's area and that the log has already taken (notes/assumptions 45). -/
structure LogArea where
  records : List CallRecord := []
  nextSeq : Nat := 1
  unlogged : Nat := 0
  handed : Option Nat := none
deriving DecidableEq, Repr

/-- One copy of an area (R178): contents, generation, and whether the check word matches. -/
structure Copy (α : Type) where
  contents : α
  generation : Nat
  sound : Bool
deriving DecidableEq, Repr

/-- An area: two copies. -/
structure Area (α : Type) where
  one : Copy α
  two : Copy α
deriving DecidableEq, Repr

/-- Both copies written with the same contents, the second the newer (R179). -/
def Area.both {α : Type} (x : α) : Area α where
  one := ⟨x, 0, true⟩
  two := ⟨x, 1, true⟩

/-- The nine areas, and the second copy of the marker word (R180, notes/assumptions 56; the first is `StoreBlock.marker`).
`written` is the model's own: the areas that the latest writing step wrote, whose writes a loss of power may cut off (R178,
notes/assumptions 13). -/
structure Areas where
  config : Area ConfigItems
  call : Area CallArea
  coin : Area CoinArea
  bankA : Area Bank
  bankB : Area Bank
  vault : Area VaultArea
  incd : Area (List Incident)
  rpt : Area RptArea
  log : Area LogArea
  marker : Marker
  written : List AreaName
deriving DecidableEq, Repr

/-- Every area at its factory values (R179). -/
def Areas.factory : Areas where
  config := Area.both ConfigItems.default
  call := Area.both {}
  coin := Area.both {}
  bankA := Area.both Bank.factory
  bankB := Area.both Bank.factory
  vault := Area.both {}
  incd := Area.both []
  rpt := Area.both {}
  log := Area.both {}
  marker := .clearing
  written := []

/-- A start in progress (R185): its kind, the areas found invalid, which first readings have been given, and what
the readings have accumulated. -/
structure StartProgress where
  kind : StartKind
  beganAt : Nat
  invalid : List AreaName
  closed : Nat
  keysRead : Bool
  hookRead : Bool
  switchesRead : Bool
  cordRead : Bool
  voltageRead : Bool
  /-- The cord loop has read closed on a sample of its first reading (R154). -/
  cordSeenClosed : Bool
  /-- The line voltage has been present during its first reading (R61). -/
  voltageSeen : Bool
deriving DecidableEq, Repr

/-- The retained store and clock. `marker` is the first copy of the marker word. `nextTick` is the instant of the clock's
next second. -/
structure StoreBlock where
  areas : Areas
  log : LogArea
  marker : Marker
  clock : Option Time
  nextTick : Nat
  start : StartProgress
deriving DecidableEq, Repr

/-! ### LINK -/

/-- The frame assembler (R187). `lost` is the OVERRUN mark on the frame in hand (or on the next one, in HUNT). -/
inductive Assembler where
  | hunt
  | length
  | body (len : Nat) (bytes : List Byte)
deriving DecidableEq, Repr

/-- What stands in the input buffer: a byte with its arrival instant, or a loss mark. -/
inductive InputItem where
  | byte (b : Byte) (arrival : Nat)
  | loss
deriving DecidableEq, Repr

/-- A frame that has ended and is not yet taken (R189); `size` is its length in bytes. -/
inductive Ended where
  | sound (kind : Byte) (payload : List Byte)
  | fault (reason : FrameReason) (size : Nat)
deriving DecidableEq, Repr

/-- The reply slot's content: KIND and payload. -/
structure Reply where
  kind : Byte
  payload : List Byte
deriving DecidableEq, Repr

/-- A pending notice. -/
structure Notice where
  kind : NoticeKind
  payload : List Byte
deriving DecidableEq, Repr

/-- The frame being sent, the end of its sending, and whether it is a reply. -/
structure Sending where
  frame : List Byte
  endsAt : Nat
  isReply : Bool
deriving DecidableEq, Repr

/-- The link interface. -/
structure LinkBlock where
  input : List InputItem
  assembler : Assembler
  lost : Bool
  lastByteAt : Nat
  ended : List Ended
  /-- R189: the first of the ended frames has left them, and its row is the waiting command; the model's own mark (DESIGN
  CHOICE, notes/assumptions 95). -/
  turn : Bool
  /-- The KIND of the outstanding command (R189). -/
  outstanding : Option Byte
  reply : Option Reply
  tx : Option Sending
  notices : List Notice
  noticeLost : Bool
deriving DecidableEq, Repr

/-- LINK at a start (R199). -/
def LinkBlock.fresh : LinkBlock where
  input := []
  assembler := .hunt
  lost := false
  lastByteAt := 0
  ended := []
  turn := false
  outstanding := none
  reply := none
  tx := none
  notices := []
  noticeLost := false

/-! ### Pins and the input samplers -/

/-- The levels of the input pins (R24, R28, R45, R57, R60, R69, R79, R129, R139, R140, the tone receive input). The
sixteen crossings stand in the order 0–9, `*`, `#`, FOLLOW-ON, then the three unfitted ones. -/
structure Pins where
  crossings : List Bool
  hookOff : Bool
  keyOn : Bool
  vaultOpen : Bool
  housingOpen : Bool
  cordOpen : Bool
  shock : Bool
  beam : Bool
  jam : Bool
  loopCurrent : Bool
  polarity : Bool
  voltage : Bool
  progressTone : Bool
  meterTone : Bool
  centreTone : Bool
deriving DecidableEq, Repr

/-- One debounced input: since when it has read contrary to its debounced state, sample after sample. -/
abbrev Contrary := Option Nat

/-- The samplers' runs. `shockRun` and `beamRun` start the current run of the shock and reversal inputs; the `Done`
marks say that the run has given its pulse (or, released, has lasted 5 ms), so that a new pulse needs a release (R79, R140). -/
structure Samplers where
  keys : List Contrary
  hook : Contrary
  keyOn : Contrary
  vault : Contrary
  housing : Contrary
  cord : Contrary
  shockLevel : Bool
  shockRun : Nat
  shockReady : Bool
  beamLevel : Bool
  beamRun : Nat
  beamReady : Bool
deriving DecidableEq, Repr

/-! ### The whole state -/

/-- The state of the part. `pending` is the queue of waiting commands; `now`, `ties` and `raised` are the model's own. -/
structure State where
  pending : List Instr
  now : Nat
  ties : Nat
  raised : List Instr
  power : Power
  pins : Pins
  samplers : Samplers
  config : ConfigItems
  call : CallBlock
  keys : KeysBlock
  line : LineBlock
  coin : CoinBlock
  rate : RateBlock
  bank : BankBlock
  vault : VaultBlock
  incd : IncdBlock
  rpt : RptBlock
  store : StoreBlock
  link : LinkBlock
deriving DecidableEq, Repr

/-! ### The state after reset -/

/-- Every input at rest: nothing pressed, handset on-hook, doors closed and key off, cord whole, line voltage present. -/
def Pins.rest : Pins where
  crossings := List.replicate 16 false
  hookOff := false
  keyOn := false
  vaultOpen := false
  housingOpen := false
  cordOpen := false
  shock := false
  beam := false
  jam := false
  loopCurrent := false
  polarity := false
  voltage := true
  progressTone := false
  meterTone := false
  centreTone := false

/-- CALL before the first hook reading (R1). R1 names the state after that reading only, IDLE or ABANDONED: the state IDLE
that stands for the 100 ms before it, and that STATUS then reports, is the model's choice (DESIGN CHOICE,
notes/assumptions 44). -/
def CallBlock.fresh : CallBlock where
  state := .idle
  level := none
  openSlot := none
  closingSlot := none
  atStart := []
  heldFollowOn := false
  deposit := 0
  depositTimer := none
  answerTimer := none
  abandonedTimer := none
  rejectTimer := none
  warningTimer := none
  aliveTimer := none
  earpiece := .silent
  toneSince := 0
  lastWarning := none
  replaced := false
  refundAsked := false
  lastCredited := none
  restartEnd := none

/-- KEYS at a start (R29, R39). R28 gives the hook state at the end of the first reading only: ON_HOOK for the 100 ms before
it, which STATUS then reports, is the model's choice (DESIGN CHOICE, notes/assumptions 44). -/
def KeysBlock.fresh : KeysBlock where
  cells := List.replicate 13 {}
  hook := .onHook
  collection := .inactive
  buffer := []
  firstDigitTimer := none
  interDigitTimer := none
  best := none

/-- LINE in GUARD, its release guard running to the given instant (R40). R61 gives the watch state at the end of the 2 s
reading only: PRESENT before it, which STATUS then reports, is the model's choice (DESIGN CHOICE, notes/assumptions 60). -/
def LineBlock.fresh (guardEnd : Option Nat) : LineBlock where
  state := .guard
  owner := .none
  digits := []
  method := .dtmf
  guardTimer := guardEnd
  dialToneTimer := none
  sendTimer := none
  sendStart := 0
  armed := false
  absentSince := none
  reported := false
  reference := false
  reversed := false
  answered := false
  holdSince := none
  polaritySeen := false
  meterFreq := .khz16
  centreFreq := 1400
  progress := {}
  meter := {}
  centre := {}
  detectorTimer := none
  sender := none
  watch := .present
  voltSince := none

/-- The machine right after reset: the first instant of a FACTORY_CLEAR start (R179, notes/assumptions 4). Every
retained area holds its factory values, the first blind REFUND stroke of the purge is under way (R85), LINE is in
GUARD (R40), and no reading has been given. The command queue is empty. -/
def State.reset : State where
  pending := []
  now := 0
  ties := 0
  raised := []
  power := .starting
  pins := Pins.rest
  samplers :=
    { keys := List.replicate 13 none, hook := none, keyOn := none, vault := none, housing := none, cord := none,
      shockLevel := false, shockRun := 0, shockReady := true, beamLevel := false, beamRun := 0, beamReady := true }
  config := ConfigItems.default
  call := CallBlock.fresh
  keys := KeysBlock.fresh
  line := LineBlock.fresh (some 1500)
  coin :=
    { latch := .none, inletFault := false, unconfirmed := 0, lockoutTimer := none, jamTimer := none, transit := none,
      escrow := [], order := .inOrder, mover := .refunding, exitTimer := some 800, blind := true, run := .purge,
      tally := {}, report := false, strandedTally := {}, strokeNo := 0, gone := 0,
      purgeStrokes := 1, purgeCount := some 0 }
  rate := RateBlock.inactive
  bank := ⟨Bank.factory, Bank.factory, false, false⟩
  vault :=
    { counters := {}, nearFull := false, full := false, vaultOpen := false, housingOpen := false, vaultGrace := false,
      housingGrace := false, keyOn := false, service := .normal, graceTimer := none, progress := none, last := none,
      number := 0, lastStroke := none }
  incd := ⟨[], none, []⟩
  rpt :=
    { state := .idle, failures := 0, urgentFailures := 0, backoffTimer := none, minuteTimer := none, savedWait := 0,
      quietSince := none, readyTimer := none, ackTimer := none, closeTimer := none, terminal := [], number := [],
      blocks := none, index := 0, sends := 0 }
  store :=
    { areas := Areas.factory, log := {}, marker := .clearing, clock := none, nextTick := 1000,
      start :=
        { kind := .factory, beganAt := 0, invalid := [], closed := 0, keysRead := false, hookRead := false,
          switchesRead := false, cordRead := false, voltageRead := false, cordSeenClosed := false,
          voltageSeen := false } }
  link := LinkBlock.fresh

end Sys2Proof.Machine
end

