-- ==== Sys2Proof/Machine/Flags.lean ====
section
/-! DEFINITION. Everything the spec derives from held state: coin permission, escrow value, vault load, inlet state,
refusal reasons, log level, the active bank, severities, and the service level. -/

namespace Sys2Proof.Machine

/-- R7: the states in which CALL presents coin permission. -/
def coinPermission : CallState → Bool
  | .collecting | .awaitDeposit | .waitLine | .seizing | .sending | .ringing | .connected | .followOnClearing => true
  | .idle | .clearing | .abandoned => false

/-- R1: a call exists in every state except IDLE and ABANDONED. -/
def callExists : CallState → Bool
  | .idle | .abandoned => false
  | _ => true

/-- R71: the escrow value is the sum over all entries, HELD and MOVING. -/
def escrowSum (l : List EscrowEntry) : CoinSum := ⟨l.length, (l.map EscrowEntry.value).sum⟩

/-- What the record that owns the escrow has still to count of these entries (the model's own, notes/assumptions 97): all of
them, but at a start after a torn write. -/
def uncountedSum (l : List EscrowEntry) : CoinSum := escrowSum (l.filter (fun e => !e.counted))

/-- The number of the coin at the escrow's tail: how many coins have entered it (the model's own, notes/assumptions 97). -/
def enteredCoins (c : CoinBlock) : Nat := c.gone + c.escrow.length

/-- R126: the vault load. -/
def vaultLoad (s : State) : Nat := s.vault.counters.total + s.coin.escrow.length

/-- R126. -/
def vaultAtCapacity (s : State) : Bool := decide (s.config.vaultCapacity ≤ vaultLoad s)

/-- R65: the first row that holds gives the inlet state. -/
def inletState (s : State) : Inlet :=
  if s.coin.inletFault then .outOfOrder
  else if s.coin.lockoutTimer.isSome then .lockout
  else if s.vault.vaultOpen || vaultAtCapacity s || !coinPermission s.call.state then .closed
  else .opened

/-- R62: the inhibit line is asserted whenever the inlet state is anything other than OPEN. -/
def inhibitLine (s : State) : Bool := decide (inletState s ≠ .opened)

/-- R65: the standing refusal reasons. -/
def standingRefusal (s : State) : Bool :=
  s.vault.vaultOpen || vaultAtCapacity s || s.coin.lockoutTimer.isSome || s.coin.inletFault
    || decide (s.coin.order = .outOfOrder)

/-- R175: the log level follows the number of held records. -/
def logLevel (held : Nat) : LogLevel :=
  if held < 48 then .normal else if held < 60 then .near else if held < 64 then .chargedHeld else .full

def BankBlock.get (b : BankBlock) : BankName → Bank
  | .a => b.a
  | .b => b.b

def BankBlock.set (b : BankBlock) (n : BankName) (x : Bank) : BankBlock :=
  match n with
  | .a => { b with a := x }
  | .b => { b with b := x }

def otherBank : BankName → BankName
  | .a => .b
  | .b => .a

def BankBlock.inUse (b : BankBlock) : BankName → Bool
  | .a => b.inUseA
  | .b => b.inUseB

/-- At most one bank is ACTIVE (R110). -/
def activeBank (s : State) : Option BankName :=
  if s.bank.a.state = .active then some .a else if s.bank.b.state = .active then some .b else none

/-- R109: while no bank is ACTIVE, the number table is taken as empty. -/
def activeTable (s : State) : List TableEntry :=
  match activeBank s with
  | some n => (s.bank.get n).contents.table
  | none => []

/-- The price of a class in a bank. -/
def priceIn (s : State) (n : BankName) (cls : Nat) : Option Price :=
  ((s.bank.get n).contents.classes.getD cls none)

/-- R138: the severity of each kind. -/
def severityOf : IncidentKind → Severity
  | .vaultForced | .housingForced => .urgent
  | .cordCut | .chuteReversal | .inletJam | .escrowJam | .lineCut => .major
  | .shock | .keyStuck | .hookStuck | .vaultFull | .powerLoss => .minor

/-- R138: kinds 8 and 12 are momentary. -/
def momentary : IncidentKind → Bool
  | .shock | .powerLoss => true
  | _ => false

/-- R142: an entry is unreported when its count exceeds its reported count. -/
def Incident.unreported (e : Incident) : Bool := decide (e.reported < e.count)

def urgentUnreported (s : State) : Bool :=
  s.incd.map.any (fun e => decide (severityOf e.kind = .urgent) && e.unreported)

def cordCutActive (s : State) : Bool := s.incd.map.any (fun e => decide (e.kind = .cordCut) && e.active)

/-- R3, R148, R168: the conditions of EMERGENCY_ONLY. -/
def emergencyOnly (s : State) : Bool :=
  s.config.terminalBlocked || (activeBank s).isNone
    || (urgentUnreported s && decide (s.rpt.urgentFailures < 3)) || cordCutActive s

/-- R3: the rows in order. -/
def serviceLevel (s : State) : ServiceLevel :=
  if emergencyOnly s then .emergencyOnly
  else if standingRefusal s || decide (60 ≤ s.store.log.records.length) then .freeOnly
  else .full

/-- R5: the level honours the kind; `none` is no check (the kind never reaches it). -/
def honours (level : ServiceLevel) : NumberKind → Bool
  | .emergency => true
  | .free => decide (level ≠ .emergencyOnly)
  | .charged => decide (level = .full)
  | .barred | .none => false

/-- R87: the escrow belongs to another record than the open one: the closing record's, or one being closed at
start-up. -/
def escrowElsewhere (s : State) : Bool :=
  s.call.closingSlot.isSome || !s.call.atStart.isEmpty || decide (s.coin.run = .startUp)
    || decide (s.coin.run = .purge)

/-- R71, R87: the coins of the open record's escrow: none while the escrow belongs to another record. -/
def ownEscrow (s : State) : CoinSum := if escrowElsewhere s then {} else escrowSum s.coin.escrow

/-- R87: the escrow value E that RATE and CALL read. -/
def callE (s : State) : Nat := (ownEscrow s).value

/-- R10: the carried-in amount of the open record. -/
def openCarried (s : State) : Nat := (s.call.openSlot.map (fun sl => sl.record.carriedIn)).getD 0

/-- The number kind of the current call. -/
def openKind (s : State) : NumberKind := (s.call.openSlot.map (fun sl => sl.record.kind)).getD .none

def openCls (s : State) : Option Nat := s.call.openSlot.bind (fun sl => sl.record.cls)

/-- R45: loop current is present, as far as the armed watch has seen. -/
def currentPresent (l : LineBlock) : Bool := l.armed && l.absentSince.isNone

/-- R40: the loop is closed in the three seized states (for the breaks of loop-pulse sending see `lineDrive`). -/
def loopClosed : LineState → Bool
  | .seizedWaitTone | .sending | .seized => true
  | .free | .guard => false

/-- R42, R53: the speech path is through-connected in SEIZED with owner CALL. -/
def speechPath (l : LineBlock) : Bool := decide (l.state = .seized) && decide (l.owner = .call)

/-! ### The earpiece (R6) -/

/-- R6: every tone of the local generator, in hertz. -/
def toneHz : Nat := 425

/-- What the earpiece sounds at an instant: nothing, the local generator, the line audio, or the local generator mixed over
the line audio. -/
inductive EarpieceDrive where
  | muted
  | tone (hz : Nat)
  | line
  | lineWith (hz : Nat)
deriving DecidableEq, Repr

/-- A tone that sounds for `on` of every `on + off` ms, `ms` after its pattern began. -/
def cadenced (on off ms : Nat) : EarpieceDrive := if ms % (on + off) < on then .tone toneHz else .muted

/-- R6: WARNING is two bursts of 150 ms, 150 ms apart; `ms` after it was sounded. -/
def warningSounds (ms : Nat) : Bool := decide (ms < 150) || (decide (300 ≤ ms) && decide (ms < 450))

/-- R6: the earpiece output of a state. A pattern begins with its sounding part at the instant the tone was selected
(DEDUCED, notes/assumptions 46). -/
def earpieceDrive (s : State) : EarpieceDrive :=
  let ms := s.now - s.call.toneSince
  match s.call.earpiece with
  | .silent => .muted
  | .ready => .tone toneHz
  | .deposit => cadenced 400 400 ms
  | .reject => cadenced 200 200 ms
  | .line =>
    match s.call.lastWarning with
    | some w => if s.call.state = .connected ∧ warningSounds (s.now - w) = true then .lineWith toneHz else .line
    | none => .line

/-- R157: the payphone is quiet. -/
def quiet (s : State) : Bool :=
  decide (s.call.state = .idle) && decide (s.line.state = .free) && decide (s.line.owner = .none)

/-- R156: a report is wanted. -/
def reportWanted (s : State) : Bool :=
  s.incd.map.any Incident.unreported && decide (s.config.terminalId.length = 8)
    && !s.config.centreNumber.isEmpty

/-- R157: the required length of the idle guard, in ms. -/
def guardRequired (s : State) : Nat := if urgentUnreported s then 2000 else 10000

/-- R155: RPT is in one of the six states of an attempt. -/
def attempting : ReportState → Bool
  | .seize | .dial | .awaitReady | .send | .awaitAck | .close => true
  | .idle | .wait | .readyToStart => false

/-- R166: the remaining wait in ms. -/
def remainingWait (s : State) : Nat :=
  match s.rpt.backoffTimer with
  | some d => d - s.now
  | none => 0

/-- R166: in whole seconds, rounded up. -/
def remainingSeconds (s : State) : Nat := (remainingWait s + 999) / 1000

/-- R26: a key is STUCK, or was found closed at the latest start and has not been released. -/
def keyStuckHeld (k : KeysBlock) : Bool := k.cells.any (fun c => decide (c.state = .stuck) || c.foundClosed)

/-- The place of a key among the thirteen. -/
def keyIndex : Key → Nat
  | .digit d => d.val
  | .star => 10
  | .hash => 11
  | .followOn => 12

def allKeys : List Key :=
  [.digit 0, .digit 1, .digit 2, .digit 3, .digit 4, .digit 5, .digit 6, .digit 7, .digit 8, .digit 9, .star, .hash,
   .followOn]

/-- R185: every first reading has been given. -/
def readingsGiven (p : StartProgress) : Bool :=
  p.keysRead && p.hookRead && p.switchesRead && p.cordRead && p.voltageRead

/-- R185: the start is complete when COIN's start-up treatment has ended and every reading has been given. -/
def startDone (s : State) : Bool :=
  decide (s.power = .starting) && readingsGiven s.store.start && decide (s.coin.run ≠ .startUp)
    && decide (s.coin.run ≠ .purge)

/-- R189: LINK takes the next frame when no command is outstanding and the reply slot is empty. -/
def linkReady (l : LinkBlock) : Bool := l.outstanding.isNone && l.reply.isNone

/-- R189: LINK takes the row of a command or of a fault now: it is ready, and the row is the frame whose turn it is, or no
frame that ended before it waits. -/
def linkTakes (l : LinkBlock) : Bool := linkReady l && (l.turn || l.ended.isEmpty)

/-- The part runs its blocks (it has power and does not wait for a restart, R184). -/
def alive (s : State) : Bool := decide (s.power = .starting) || decide (s.power = .running)

end Sys2Proof.Machine
end

