-- ==== Sys2Proof/Machine/Layout.lean ====
section
/-! DEFINITION. The forms in which items are sent on the link (R186, R198), the frame and its check byte (R186), the
packing of digit strings, and the link form of a call record (R172, R173). -/

namespace Sys2Proof.Machine

/-! ### Numbers, least significant byte first; a value greater than its width is sent as the greatest (R198) -/

def le1 (n : Nat) : List Byte := [byteOf (min n 255)]

def le2 (n : Nat) : List Byte :=
  let m := min n 65535
  [byteOf m, byteOf (m / 256)]

def le3 (n : Nat) : List Byte :=
  let m := min n 16777215
  [byteOf m, byteOf (m / 256), byteOf (m / 65536)]

def le4 (n : Nat) : List Byte :=
  let m := min n 4294967295
  [byteOf m, byteOf (m / 256), byteOf (m / 65536), byteOf (m / 16777216)]

/-- The number least significant byte first. -/
def ofLe : List Byte → Nat
  | [] => 0
  | b :: bs => b.toNat + 256 * ofLe bs

/-- R186: an absent time is hex FFFFFFFF. -/
def absentTime : Nat := 4294967295

/-- R198: the mark *now* is hex FFFFFFFE. -/
def nowTime : Nat := 4294967294

def timeBytes : Option Time → List Byte
  | none => le4 absentTime
  | some t => le4 t

def markBytes (b : Bool) : List Byte := le1 (if b then 1 else 0)

/-- R198: hex FF when absent or none. -/
def optByte : Option Nat → List Byte
  | none => le1 255
  | some n => le1 n

/-- R198: an optional item whose form has no absent value. -/
def optItem : Option (List Byte) → List Byte
  | none => le1 0
  | some bs => le1 1 ++ bs

/-! ### Symbols -/

/-- R172: 0–9 as themselves, `*` as 10. -/
def Symbol.code : Symbol → Nat
  | .digit d => d.val
  | .star => 10

/-- R172: two symbols a byte, the first in the high half; a final half of 15. -/
def packSymbols : List Symbol → List Byte
  | [] => []
  | [x] => [byteOf (x.code * 16 + 15)]
  | x :: y :: rest => byteOf (x.code * 16 + y.code) :: packSymbols rest

/-- R198: a digit string. -/
def digitString (s : List Symbol) : List Byte := le1 s.length ++ packSymbols s

/-- R198: a label. -/
def labelBytes (l : List Byte) : List Byte := le1 l.length ++ l

/-! ### Positions in the table or list of the owning rule (R186, R198) -/

def CallState.code : CallState → Nat
  | .idle => 0 | .collecting => 1 | .awaitDeposit => 2 | .waitLine => 3 | .seizing => 4 | .sending => 5
  | .ringing => 6 | .connected => 7 | .clearing => 8 | .followOnClearing => 9 | .abandoned => 10

def ServiceLevel.code : ServiceLevel → Nat
  | .emergencyOnly => 0 | .freeOnly => 1 | .full => 2

/-- R172: the number kinds of a record, by which CALL_STATE and SNAPSHOT number them too (DESIGN CHOICE,
notes/assumptions 90). -/
def NumberKind.code : NumberKind → Nat
  | .none => 0 | .emergency => 1 | .free => 2 | .charged => 3 | .barred => 4

/-- R30, R114: CHARGED, FREE, BARRED. -/
def EntryKind.code : EntryKind → Nat
  | .charged => 0 | .free => 1 | .barred => 2

/-- R172: 1 USER_CLEAR … 16 RESTART. -/
def EndCause.code : EndCause → Nat
  | .userClear => 1 | .farEnd => 2 | .noAnswer => 3 | .busy => 4 | .noDialTone => 5 | .lineLost => 6
  | .creditOut => 7 | .escrowFault => 8 | .barred => 9 | .incomplete => 10 | .noDeposit => 11 | .refused => 12
  | .followOn => 13 | .incident => 14 | .power => 15 | .restart => 16

def Hook.code : Hook → Nat
  | .onHook => 0 | .offHook => 1

def LineState.code : LineState → Nat
  | .free => 0 | .guard => 1 | .seizedWaitTone => 2 | .sending => 3 | .seized => 4

/-- R40: the line owner by its place in the rule's list, NONE too (DESIGN CHOICE, notes/assumptions 90). -/
def Owner.code : Owner → Nat
  | .none => 0 | .call => 1 | .rpt => 2

def Watch.code : Watch → Nat
  | .present => 0 | .cut => 1

def SendingMethod.code : SendingMethod → Nat
  | .dtmf => 0 | .loopPulse => 1

def ConfigMode.code : ConfigMode → Nat
  | .localTiming => 0 | .meter => 1

def RatingMode.code : RatingMode → Nat
  | .localTiming => 0 | .meter => 1 | .meterFallback => 2

def MeterFreq.khz : MeterFreq → Nat
  | .khz12 => 12 | .khz16 => 16

def RejectReason.code : RejectReason → Nat
  | .overrun => 0 | .unrecognised => 1 | .disabled => 2 | .inletFault => 3 | .lockout => 4 | .escrowFault => 5
  | .doorOpen => 6 | .vaultFull => 7 | .noCall => 8 | .refundPending => 9 | .tubeFull => 10

def Inlet.code : Inlet → Nat
  | .outOfOrder => 0 | .lockout => 1 | .closed => 2 | .opened => 3

def EscrowOrder.code : EscrowOrder → Nat
  | .inOrder => 0 | .outOfOrder => 1

def Mover.code : Mover → Nat
  | .idle => 0 | .collecting => 1 | .refunding => 2

def Stroke.code : Stroke → Nat
  | .collect => 0 | .refund => 1

def Phase.code : Phase → Nat
  | .inactive => 0 | .settling => 1 | .running => 2 | .warning => 3 | .grace => 4 | .ended => 5

def BankState.code : BankState → Nat
  | .empty => 0 | .loading => 1 | .ready => 2 | .pending => 3 | .active => 4 | .retiring => 5

def BankCause.code : BankCause → Nat
  | .opened => 0 | .closed => 1 | .scheduled => 2 | .cancelled => 3 | .activated => 4 | .displaced => 5
  | .retired => 6 | .startup => 7

/-- R198: 1 for A, 2 for B. -/
def bankByte : BankName → Nat
  | .a => 1 | .b => 2

def ServiceState.code : ServiceState → Nat
  | .normal => 0 | .service => 1 | .serviceGrace => 2

def Closing.code : Closing → Nat
  | .inService => 0 | .inNormal => 1 | .atStart => 2

/-- R138: the kind numbers 1..12. -/
def IncidentKind.number : IncidentKind → Nat
  | .vaultForced => 1 | .housingForced => 2 | .cordCut => 3 | .chuteReversal => 4 | .inletJam => 5 | .escrowJam => 6
  | .lineCut => 7 | .shock => 8 | .keyStuck => 9 | .hookStuck => 10 | .vaultFull => 11 | .powerLoss => 12

/-- R138: 1 for urgent, 2 for major, 3 for minor. -/
def Severity.digit : Severity → Nat
  | .urgent => 1 | .major => 2 | .minor => 3

def ReportState.code : ReportState → Nat
  | .idle => 0 | .wait => 1 | .readyToStart => 2 | .seize => 3 | .dial => 4 | .awaitReady => 5 | .send => 6
  | .awaitAck => 7 | .close => 8

def ReportFailure.code : ReportFailure → Nat
  | .noDialTone => 0 | .busy => 1 | .lineLost => 2 | .noReady => 3 | .noAck => 4

def AbortCause.code : AbortCause → Nat
  | .hookOff => 0 | .lineRequest => 1

def LogLevel.code : LogLevel → Nat
  | .normal => 0 | .near => 1 | .chargedHeld => 2 | .full => 3

def StartKind.code : StartKind → Nat
  | .power => 0 | .restart => 1 | .factory => 2

def areaByte : AreaName → Nat
  | .config => 0 | .call => 1 | .coin => 2 | .bankA => 3 | .bankB => 4 | .vault => 5 | .incd => 6 | .rpt => 7 | .log => 8

/-- R188: 0 TIMEOUT, 1 LENGTH_RANGE, 2 CHECK, 3 OVERRUN. -/
def reasonByte : FrameReason → Nat
  | .timeout => 0 | .lengthRange => 1 | .check => 2 | .overrun => 3

/-- The notice kinds' KIND, hex 40..4D. -/
def NoticeKind.kind : NoticeKind → Nat
  | .hook => 0x40 | .dialled => 0x41 | .coin => 0x42 | .credit => 0x43 | .callState => 0x44 | .callEnd => 0x45
  | .incident => 0x46 | .report => 0x47 | .vault => 0x48 | .service => 0x49 | .bank => 0x4A | .line => 0x4B
  | .log => 0x4C | .started => 0x4D

def NoticeKind.all : List NoticeKind :=
  [.hook, .dialled, .coin, .credit, .callState, .callEnd, .incident, .report, .vault, .service, .bank, .line, .log,
   .started]

/-- The coalescible notices: DIALLED, CREDIT, VAULT and LINE (the notice table of R193). -/
def NoticeKind.coalescible : NoticeKind → Bool
  | .dialled | .credit | .vault | .line => true
  | _ => false

/-! ### Frames (R186) -/

def sumBytes : List Byte → Byte
  | [] => 0
  | b :: bs => b + sumBytes bs

/-- R186: LEN counts KIND and the payload; CHK makes LEN + KIND + payload + CHK ≡ 0 mod 256. -/
def frameBytes (kind : Byte) (payload : List Byte) : List Byte :=
  let len := byteOf (payload.length + 1)
  0xA5 :: len :: kind :: payload ++ [0 - (len + kind + sumBytes payload)]

/-- R190's result codes. -/
inductive Result where
  | ok | busy | state | range | unknown | length | service | full | check | none | frame
deriving DecidableEq, Repr

def Result.code : Result → Nat
  | .ok => 0 | .busy => 1 | .state => 2 | .range => 3 | .unknown => 4 | .length => 5 | .service => 6 | .full => 7
  | .check => 8 | .none => 9 | .frame => 10

/-- The reply KIND of a command KIND: plus hex 80 (R189). -/
def replyKind (kind : Byte) : Byte := kind + 0x80

/-! ### The link form of a call record (R172, R173) -/

def RecordFlags.byte (f : RecordFlags) : Nat :=
  (if f.clockUnset then 1 else 0) + (if f.periodClamped then 2 else 0) + (if f.bandChanged then 4 else 0)
    + (if f.pulseFallback then 8 else 0) + (if f.longPulse then 16 else 0) + (if f.suspectCoin then 32 else 0)
    + (if f.powerMove then 64 else 0) + (if f.escrowUnknown then 128 else 0)

/-- R172: 0 LOCAL, 1 METER, 2 METER with fallback used. -/
def recordModeCode (r : CallRecord) : Nat :=
  match r.mode with
  | .localTiming => 0
  | .meter => if r.fallbackUsed then 2 else 1

def groupIf (present : Bool) (bytes : List Byte) : Option (List Byte) := if present then some bytes else none

/-- The fourteen groups, each absent when all its fields are absent or zero (R173). -/
def recordGroups (r : CallRecord) : List (Option (List Byte)) :=
  [ r.follows.map le4,
    r.offHook.map le4,
    r.answer.map le4,
    r.endTime.map le4,
    r.connected.map le3,
    r.cls.map le1,
    r.bank.map (fun bl => le1 (bankByte bl.1) ++ labelBytes bl.2),
    groupIf (r.periods + r.pulses + r.initial + r.charged + r.collected + r.unsettled != 0)
      (le2 r.periods ++ le2 r.pulses ++ le2 r.initial ++ le3 r.charged ++ le3 r.collected ++ le3 r.unsettled),
    groupIf (r.carriedIn + r.takenOver.coins + r.takenOver.value != 0)
      (le3 r.carriedIn ++ le1 r.takenOver.coins ++ le3 r.takenOver.value),
    groupIf (r.carriedOut + r.passedOn.coins + r.passedOn.value != 0)
      (le3 r.carriedOut ++ le1 r.passedOn.coins ++ le3 r.passedOn.value),
    groupIf (r.accepted.sum + r.unconfirmed != 0) (r.accepted.flatMap le1 ++ le1 r.unconfirmed),
    groupIf (r.refunded.value != 0) (le3 r.refunded.value),
    groupIf (r.jammed.value != 0) (le3 r.jammed.value),
    groupIf (r.stranded.value != 0) (le3 r.stranded.value) ]

/-- The presence mask: bit 0 stands for group 1. -/
def presenceMask : List (Option (List Byte)) → Nat
  | [] => 0
  | g :: gs => (if g.isSome then 1 else 0) + 2 * presenceMask gs

/-- The end cause's code; a record that leaves the part has one. -/
def causeCode (r : CallRecord) : Nat := (r.cause.map EndCause.code).getD 0

def linkForm (r : CallRecord) : List Byte :=
  let groups := recordGroups r
  le4 r.seq ++ le2 (presenceMask groups) ++ le1 (causeCode r) ++ le1 r.kind.code ++ le1 r.flags.byte
    ++ le1 (recordModeCode r) ++ le3 r.elapsed ++ le1 r.digits.length ++ packSymbols r.digits
    ++ groups.flatMap (fun g => g.getD [])

end Sys2Proof.Machine
end

