-- ==== Sys2Proof/Machine/Calendar.lean ====
section
/-! DEFINITION. Dates of the wall clock (R182): a time is a count of seconds since 2000-01-01 00:00:00, a Saturday;
every year divisible by four is a leap year. -/

namespace Sys2Proof.Machine

/-- One past the last second of 2099: 36525 days. -/
def clockEnd : Nat := 3155760000

/-- R118, R183: a valid time of the years 2000..2099. -/
def validTime (t : Nat) : Bool := decide (t < clockEnd)

def dayOf (t : Time) : Nat := t / 86400

def minuteOfDay (t : Time) : Nat := t % 86400 / 60

/-- Year and day of year (from 0); years come in cycles of 1461 days that begin with a leap year. -/
def yearDay (day : Nat) : Nat × Nat :=
  let c := day / 1461
  let r := day % 1461
  if r < 366 then (2000 + 4 * c, r) else (2000 + 4 * c + 1 + (r - 366) / 365, (r - 366) % 365)

def isLeap (year : Nat) : Bool := year % 4 == 0

/-- Days of each month. -/
def monthDays (leap : Bool) : List Nat :=
  [31, if leap then 29 else 28, 31, 30, 31, 30, 31, 31, 30, 31, 30, 31]

/-- Month (from `m`) and day of month (from 1) of a day count. -/
def monthDayFrom : List Nat → Nat → Nat → Nat × Nat
  | [], m, d => (m, d + 1)
  | n :: ns, m, d => if d < n then (m, d + 1) else monthDayFrom ns (m + 1) (d - n)

/-- Year, month and day of a time. -/
def dateOf (t : Time) : Nat × Nat × Nat :=
  let yd := yearDay (dayOf t)
  let md := monthDayFrom (monthDays (isLeap yd.1)) 1 yd.2
  (yd.1, md.1, md.2)

/-- R182: 2000-01-01 is a Saturday. -/
def weekdayType (t : Time) : DayType :=
  match dayOf t % 7 with
  | 0 => .saturday
  | 1 => .sundayHoliday
  | _ => .workday

/-- R100 step 2: an entry without a year matches every year. -/
def holidayMatches (t : Time) (h : Holiday) : Bool :=
  let d := dateOf t
  h.month == d.2.1 && h.day == d.2.2 && (match h.year with | none => true | some y => y == d.1)

/-- R100 step 2. -/
def dayTypeOf (holidays : List Holiday) (t : Time) : DayType :=
  if holidays.any (holidayMatches t) then .sundayHoliday else weekdayType t

/-- R116: the day exists in the month; 29 February without a year, or in a year divisible by four. -/
def validHoliday (month day : Nat) (year : Option Nat) : Bool :=
  let leap := match year with | none => true | some y => isLeap y
  decide (1 ≤ month) && decide (month ≤ 12) && decide (1 ≤ day)
    && decide (day ≤ (monthDays leap).getD (month - 1) 0)
    && (match year with | none => true | some y => decide (2000 ≤ y) && decide (y ≤ 2099))

/-- The part of a time that a report block sends (R162): hour and minute. -/
def hourMinute (t : Time) : Nat × Nat := (t % 86400 / 3600, t % 3600 / 60)

end Sys2Proof.Machine
end

