-- ==== Sys2Proof/Machine/Operands.lean ====
section
/-! DEFINITION. The arguments of the host commands, read from the payload bytes LINK received (R190, R193, R198).
A payload whose length its items do not give is `badLength`; the range tests are the owner's, made in its own order. -/

namespace Sys2Proof.Machine

/-! ### Digit strings -/

/-- A half-byte as a symbol: 0–9, or 10 for `*` (R172). -/
def symbolOf? (n : Nat) : Option Symbol :=
  if h : n < 10 then some (.digit ⟨n, h⟩) else if n = 10 then some .star else none

/-- The `n` symbols packed in `bytes`; a final half of 15 when `n` is odd. -/
def unpackSymbols : Nat → List Byte → Option (List Symbol)
  | 0, [] => some []
  | 1, [b] =>
    if b.toNat % 16 = 15 then (symbolOf? (b.toNat / 16)).map (fun x => [x]) else none
  | n + 2, b :: bs =>
    match symbolOf? (b.toNat / 16), symbolOf? (b.toNat % 16), unpackSymbols n bs with
    | some x, some y, some rest => some (x :: y :: rest)
    | _, _, _ => none
  | _, _ => none

/-- A digit string at the head of a payload: the symbol count, the packed bytes, and what follows. -/
def splitDigits? : List Byte → Option (Nat × List Byte × List Byte)
  | [] => none
  | c :: rest =>
    let n := c.toNat
    let k := (n + 1) / 2
    if rest.length < k then none else some (n, rest.take k, rest.drop k)

def Symbol.isDigit : Symbol → Bool
  | .digit _ => true
  | .star => false

/-- A digit string of `lo..hi` symbols, digits only when `digitsOnly`. -/
def symbolsIn? (digitsOnly : Bool) (lo hi n : Nat) (packed : List Byte) : Option (List Symbol) :=
  if lo ≤ n ∧ n ≤ hi then
    match unpackSymbols n packed with
    | some s => if digitsOnly && !(s.all Symbol.isDigit) then none else some s
    | none => none
  else none

/-! ### Single items -/

/-- R198: 1 for A, 2 for B. -/
def bankOf? (b : Byte) : Option BankName :=
  if b = 1 then some .a else if b = 2 then some .b else none

def entryKindOf? (b : Byte) : Option EntryKind :=
  if b = 0 then some .charged else if b = 1 then some .free else if b = 2 then some .barred else none

/-- R111: printable characters, hex 20..7E. -/
def printable (b : Byte) : Bool := decide (0x20 ≤ b.toNat) && decide (b.toNat ≤ 0x7E)

/-- R118: the argument of BANK_ACTIVATE as the moment it names. -/
def whenOf? (n : Nat) : Option When :=
  if n = nowTime then some .now else if validTime n then some (.time n) else none

/-- The kind with number 1..12 (R138). -/
def kindOf? (n : Nat) : Option IncidentKind :=
  match n with
  | 1 => some .vaultForced | 2 => some .housingForced | 3 => some .cordCut | 4 => some .chuteReversal
  | 5 => some .inletJam | 6 => some .escrowJam | 7 => some .lineCut | 8 => some .shock | 9 => some .keyStuck
  | 10 => some .hookStuck | 11 => some .vaultFull | 12 => some .powerLoss
  | _ => none

/-- R152's ALL as a byte: the manual states no value, and none of the kinds 1..12 is it (`Config.incidentAllCode`). -/
def incidentAllByte : Byte :=
  if Config.incidentAllCode.val = 0 then 0 else byteOf (Config.incidentAllCode.val + 12)

/-- The scope of INCIDENT_CLEAR (R152): one kind, or ALL (`some none`). -/
def incidentScope? (b : Byte) : Option (Option IncidentKind) :=
  match kindOf? b.toNat with
  | some k => some (some k)
  | none => if b = incidentAllByte then some none else none

/-! ### Payload shapes: `none` is a payload whose length the command does not admit (R190) -/

def noArgs? : List Byte → Option Unit
  | [] => some ()
  | _ => none

def oneByte? : List Byte → Option Byte
  | [b] => some b
  | _ => none

def fourBytes? (p : List Byte) : Option Nat := if p.length = 4 then some (ofLe p) else none

/-- BANK_OPEN: bank, label. -/
def bankOpenArgs? : List Byte → Option (Byte × List Byte)
  | bank :: n :: label => if label.length = n.toNat then some (bank, label) else none
  | _ => none

/-- BANK_PUT_CLASS: bank, class, and a price (initial charge in 3 bytes, four rates of 2) or clear. `none` in third
place is clear; the marker byte is kept, for its range test. -/
def putClassArgs? : List Byte → Option (Byte × Nat × Byte × List Byte)
  | bank :: cls :: m :: rest =>
    if (m = 1 ∧ rest.length = 11) ∨ (m ≠ 1 ∧ rest.length = 0) then some (bank, cls.toNat, m, rest) else none
  | _ => none

/-- BANK_PUT_PREFIX: bank, digit string, kind, class, minimum and maximum length. -/
def putEntryArgs? : List Byte → Option (Byte × Nat × List Byte × Byte × Nat × Nat × Nat)
  | bank :: rest =>
    match splitDigits? rest with
    | some (n, packed, [kind, cls, lo, hi]) => some (bank, n, packed, kind, cls.toNat, lo.toNat, hi.toNat)
    | _ => none
  | _ => none

/-- BANK_DROP_PREFIX: bank, digit string. -/
def dropEntryArgs? : List Byte → Option (Byte × Nat × List Byte)
  | bank :: rest =>
    match splitDigits? rest with
    | some (n, packed, []) => some (bank, n, packed)
    | _ => none
  | _ => none

/-- BANK_PUT_SCHEDULE: bank, target, minute (2 bytes), band or hex FF for drop. -/
def scheduleArgs? : List Byte → Option (Byte × Nat × Nat × Nat)
  | [bank, target, m0, m1, band] => some (bank, target.toNat, ofLe [m0, m1], band.toNat)
  | _ => none

/-- BANK_PUT_HOLIDAY: bank, month, day, and an optional year (R198: marker, then 2 bytes). -/
def holidayArgs? : List Byte → Option (Byte × Nat × Nat × Byte × Option Nat)
  | [bank, month, day, m] => if m = 1 then none else some (bank, month.toNat, day.toNat, m, none)
  | [bank, month, day, m, y0, y1] =>
    if m = 1 then some (bank, month.toNat, day.toNat, m, some (ofLe [y0, y1])) else none
  | _ => none

/-- BANK_ACTIVATE: bank, time or now (4 bytes). -/
def activateArgs? : List Byte → Option (Byte × Nat)
  | bank :: rest => if rest.length = 4 then some (bank, ofLe rest) else none
  | _ => none

/-- LOG_READ: starting sequence number (4 bytes), count. -/
def logReadArgs? (p : List Byte) : Option (Nat × Nat) :=
  if p.length = 5 then some (ofLe (p.take 4), ofLe (p.drop 4)) else none

/-! ### Configuration items (R192, R193) -/

/-- The items of a CONFIG_SET payload: item number, value length, value. -/
def splitItems : Nat → List Byte → Option (List (Nat × List Byte))
  | _, [] => some []
  | fuel + 1, item :: n :: rest =>
    if rest.length < n.toNat then none
    else (splitItems fuel (rest.drop n.toNat)).map (fun is => (item.toNat, rest.take n.toNat) :: is)
  | _, _ => none

/-- The width of an item's value (R198): money 3 bytes; a number the fewest bytes that hold its greatest value; the
notice mask 2 bytes, one bit for each kind; `none` for the digit strings, whose length their count gives. -/
def itemWidth (item : Nat) : Option Nat :=
  if 1 ≤ item ∧ item ≤ 8 then some 3
  else if item = 17 then some 3
  else if item = 24 ∨ item = 32 ∨ item = 33 ∨ item = 36 then some 2
  else if (28 ≤ item ∧ item ≤ 31) ∨ item = 34 ∨ item = 35 then none
  else some 1

/-- R193, R190: the value has the length its item's form gives. Items outside 1..36 have no form, and their range test
comes later. -/
def itemLengthOk (iv : Nat × List Byte) : Bool :=
  if 1 ≤ iv.1 ∧ iv.1 ≤ 36 then
    match itemWidth iv.1 with
    | some w => iv.2.length == w
    | none =>
      match splitDigits? iv.2 with
      | some (_, _, []) => true
      | _ => false
  else true

def flagOf? (n : Nat) : Option Bool := if n = 0 then some false else if n = 1 then some true else none

/-- A digit-string value of `lo..hi` digits, or empty. -/
def digitsValue? (lo hi : Nat) (v : List Byte) : Option (List Symbol) :=
  match splitDigits? v with
  | some (n, packed, _) => if n = 0 then some [] else symbolsIn? true lo hi n packed
  | none => none

/-- The masked kinds named by the bits of item 36. -/
def maskKinds (n : Nat) : List NoticeKind :=
  NoticeKind.all.filter (fun k => n.testBit (k.kind - 0x40))

/-- One item's new value, each within its own range; the joint tests follow (`configJoint`). -/
def setItem? (c : ConfigItems) (iv : Nat × List Byte) : Option ConfigItems :=
  let item := iv.1
  let n := ofLe iv.2
  let ranged (lo hi : Nat) (r : ConfigItems) : Option ConfigItems := if lo ≤ n ∧ n ≤ hi then some r else none
  if 1 ≤ item ∧ item ≤ 8 then
    ranged 0 5000 { c with denomValue := c.denomValue.set (item - 1) n }
  else if 9 ≤ item ∧ item ≤ 16 then
    (flagOf? n).map (fun b => { c with denomEnabled := c.denomEnabled.set (item - 9) b })
  else match item with
    | 17 => ranged 1 1000 { c with chargeStep := n }
    | 18 => ranged 0 1 { c with ratingMode := if n = 0 then .localTiming else .meter }
    | 19 => ranged 0 1 { c with sendingMethod := if n = 0 then .dtmf else .loopPulse }
    | 20 => ranged 2 15 { c with dialToneWait := n }
    | 21 => (flagOf? n).map (fun b => { c with reversalAnswer := b })
    | 22 => ranged 20 150 { c with meterMinBurst := n }
    | 23 => if n = 12 then some { c with meterFreq := .khz12 }
            else if n = 16 then some { c with meterFreq := .khz16 } else none
    | 24 => if n % 50 = 0 then ranged 1000 2000 { c with centreFreq := n } else none
    | 25 => ranged 3 20 { c with interDigit := n }
    | 26 => ranged 10 60 { c with depositWait := n }
    | 27 => ranged 30 180 { c with answerWait := n }
    | 28 => (digitsValue? 1 8 iv.2).map (fun d => { c with emergency := c.emergency.set 0 d })
    | 29 => (digitsValue? 1 8 iv.2).map (fun d => { c with emergency := c.emergency.set 1 d })
    | 30 => (digitsValue? 1 8 iv.2).map (fun d => { c with emergency := c.emergency.set 2 d })
    | 31 => (digitsValue? 1 8 iv.2).map (fun d => { c with emergency := c.emergency.set 3 d })
    | 32 => ranged 100 4000 { c with vaultCapacity := n }
    | 33 => ranged 50 4000 { c with nearFullMark := n }
    | 34 => (digitsValue? 8 8 iv.2).map (fun d => { c with terminalId := d })
    | 35 => (digitsValue? 1 16 iv.2).map (fun d => { c with centreNumber := d })
    | 36 => if n < 16384 then some { c with masked := maskKinds n } else none
    | _ => none

def setItems? (c : ConfigItems) : List (Nat × List Byte) → Option ConfigItems
  | [] => some c
  | iv :: rest => (setItem? c iv).bind (fun c' => setItems? c' rest)

/-- R193: the tests on the values that would hold after the command, all items together. -/
def configJoint (c : ConfigItems) : Bool :=
  ((c.denomEnabled.zip c.denomValue).all (fun ev => !(ev.1 && ev.2 == 0)))
    && decide ((c.emergency.filter (fun e => !e.isEmpty)).Nodup)

/-- R127: the items name the vault capacity or the near-full mark. -/
def namesVault (items : List (Nat × List Byte)) : Bool := items.any (fun iv => iv.1 == 32 || iv.1 == 33)

/-- R127: the pair of capacity and mark that would hold, `load` being the vault load. -/
def vaultPairOk (load : Nat) (c : ConfigItems) : Bool :=
  decide (100 ≤ c.vaultCapacity) && decide (c.vaultCapacity ≤ 4000) && decide (50 ≤ c.nearFullMark)
    && decide (c.nearFullMark ≤ c.vaultCapacity) && decide (load ≤ c.vaultCapacity)

/-- The value of an item, for CONFIG_GET. -/
def itemValue (c : ConfigItems) (item : Nat) : List Byte :=
  if 1 ≤ item ∧ item ≤ 8 then le3 (c.denomValue.getD (item - 1) 0)
  else if 9 ≤ item ∧ item ≤ 16 then markBytes (c.denomEnabled.getD (item - 9) false)
  else match item with
    | 17 => le3 c.chargeStep
    | 18 => le1 c.ratingMode.code
    | 19 => le1 c.sendingMethod.code
    | 20 => le1 c.dialToneWait
    | 21 => markBytes c.reversalAnswer
    | 22 => le1 c.meterMinBurst
    | 23 => le1 c.meterFreq.khz
    | 24 => le2 c.centreFreq
    | 25 => le1 c.interDigit
    | 26 => le1 c.depositWait
    | 27 => le1 c.answerWait
    | 28 => digitString (c.emergency.getD 0 [])
    | 29 => digitString (c.emergency.getD 1 [])
    | 30 => digitString (c.emergency.getD 2 [])
    | 31 => digitString (c.emergency.getD 3 [])
    | 32 => le2 c.vaultCapacity
    | 33 => le2 c.nearFullMark
    | 34 => digitString c.terminalId
    | 35 => digitString c.centreNumber
    | 36 => le2 ((c.masked.map (fun k => 2 ^ (k.kind - 0x40))).sum)
    | 37 => markBytes c.terminalBlocked
    | _ => []

end Sys2Proof.Machine
end

