-- ==== Sys2Proof/Machine/Ops.lean ====
section
/-! DEFINITION. Operations every block uses: time and timers, posting a notice (R194, R195), placing a reply and the
transmitter's choice (R189, R196), the retained areas and their commit (R178), and `stepAlive`/`finish`, the frame in
which each command's effect stands. -/

namespace Sys2Proof.Machine

/-! ### Durations, in ms -/

/-- R44. -/
def releaseGuardMs : Nat := 1500
/-- R25. -/
def stuckMs : Nat := 20000
/-- R31. -/
def firstDigitMs : Nat := 20000
/-- R67. -/
def confirmationMs : Nat := 1000
/-- R69. -/
def jamLineMs : Nat := 1000
/-- R73. -/
def exitMs : Nat := 800
/-- R79. -/
def lockoutMs : Nat := 60000
/-- R80. -/
def suspectMs : Nat := 2000
/-- R94. -/
def graceMs : Nat := 10000
/-- R130. -/
def serviceGraceMs : Nat := 60000
/-- R20. -/
def abandonedMs : Nat := 600000
/-- R6, R20. -/
def rejectMs : Nat := 60000
/-- R6. -/
def warningMs : Nat := 5000
/-- R141. -/
def shockWindowMs : Nat := 10000
/-- R159. -/
def readyMs : Nat := 30000
/-- R163. -/
def ackMs : Nat := 4000
/-- R164. -/
def closeMs : Nat := 3000
/-- R45. -/
def lossMs : Nat := 400
/-- R187. -/
def interByteMs : Nat := 50
/-- The tone detector's interval (R47). -/
def detectorMs : Nat := 5

/-! ### Time -/

/-- Some later timer start. -/
def State.after (s : State) (ms : Nat) : Option Nat := some (s.now + ms)

/-- A timer's expiry falls at the instant the timer was set for: the part's time moves there, if it is not already
past it. A stopped timer leaves the time alone. -/
def reach (t : Option Nat) (s : State) : State :=
  match t with
  | some d => { s with now := max s.now d }
  | none => s

/-- The wall clock as it stood at an instant `t` of the part's time, not after the present one: the seconds that have
passed since are taken off. -/
def clockAt (s : State) (t : Nat) : Option Time :=
  match s.store.clock with
  | none => none
  | some c =>
    let back := s.now - t
    let since := 1000 - (s.store.nextTick - s.now)
    some (if back ≤ since then c else c - (back - since + 999) / 1000)

/-- Elapsed tenths from an instant to another. -/
def tenths (t0 t1 : Nat) : Nat := (t1 - t0) / 100

/-! ### Notices (R194, R195) -/

/-- Replace a pending notice of the same kind in place. -/
def replaceNotice (n : Notice) : List Notice → List Notice
  | [] => []
  | m :: ms => if m.kind = n.kind then n :: ms else m :: replaceNotice n ms

/-- Remove the oldest pending coalescible notice. -/
def dropCoalescible : List Notice → Option (List Notice)
  | [] => none
  | m :: ms => if m.kind.coalescible then some ms else (dropCoalescible ms).map (fun r => m :: r)

/-- R194: the five rows; the second component says that a notice was lost. -/
def enqueueNotice (n : Notice) (q : List Notice) : List Notice × Bool :=
  if n.kind.coalescible && q.any (fun m => decide (m.kind = n.kind)) then (replaceNotice n q, false)
  else if q.length < 32 then (q ++ [n], false)
  else if n.kind.coalescible then (q, true)
  else match dropCoalescible q with
    | some q' => (q' ++ [n], true)
    | none => (q, true)

/-- R195: a notice of a masked kind is not posted; STARTED is posted whatever its mark. -/
def maskedKind (s : State) (k : NoticeKind) : Bool := s.config.masked.contains k && decide (k ≠ .started)

/-- R194: a posted notice enters the queue at the instant of posting. -/
def post (k : NoticeKind) (payload : List Byte) (s : State) : State :=
  if maskedKind s k then s
  else
    let r := enqueueNotice ⟨k, payload⟩ s.link.notices
    { s with link := { s.link with notices := r.1, noticeLost := s.link.noticeLost || r.2 } }

/-! ### Replies and the transmitter (R189, R196) -/

/-- R189: the reply is placed in the slot, and the command stops being outstanding. -/
def placeReply (kind : Byte) (payload : List Byte) (s : State) : State :=
  { s with link := { s.link with reply := some ⟨kind, payload⟩, outstanding := none } }

/-- R186: the time a frame takes on the port, rounded up to whole ms (10 bit times a byte at 19200 bit/s). -/
def frameMs (bytes : Nat) : Nat := (bytes * 10000 + 19199) / 19200

def startSending (s : State) (kind : Byte) (payload : List Byte) (isReply : Bool) : Sending :=
  let f := frameBytes kind payload
  ⟨f, s.now + frameMs f.length, isReply⟩

/-- R196: with the transmitter IDLE, a waiting reply is chosen first, and otherwise the head of the notice queue. While
a restart is awaited only the reply is sent (R184). -/
def pump (s : State) : State :=
  match s.link.tx with
  | some _ => s
  | none =>
    match s.link.reply with
    | some r =>
      { s with link := { s.link with tx := some (startSending s r.kind r.payload true), reply := none } }
    | none =>
      match s.link.notices with
      | [] => s
      | n :: rest =>
        if s.power = .halted then s
        else { s with link := { s.link with tx := some (startSending s (byteOf n.kind.kind) n.payload false),
                                            notices := rest } }

/-! ### Retained areas (R178, R179) -/

section areas
variable {α : Type} [DecidableEq α]

/-- The copy an area is read from: the valid copy with the newer generation; `none` when neither is valid (R179). -/
def Area.newest (x : Area α) : Option (Copy α) :=
  if x.one.sound then
    if x.two.sound && decide (x.one.generation < x.two.generation) then some x.two else some x.one
  else if x.two.sound then some x.two
  else none

/-- R178: a change is written to the copy that does not hold the newest generation, with the generation one greater.
Contents that have not changed are not written. -/
def Area.write (x : Area α) (c : α) : Area α :=
  match x.newest with
  | none => Area.both c
  | some n =>
    if n.contents = c then x
    else if x.one.sound && decide (n = x.one) then { x with two := ⟨c, n.generation + 1, true⟩ }
    else { x with one := ⟨c, n.generation + 1, true⟩ }

/-- R178: a write in progress when power fails leaves its copy with a check word that does not match. Where the two copies hold
the same, an invalid area was being written to both of them (R179), and neither is whole (DEDUCED, notes/assumptions 97). -/
def Area.tear (x : Area α) : Area α :=
  if x.one.contents = x.two.contents then
    { one := { x.one with sound := false }, two := { x.two with sound := false } }
  else if x.one.generation < x.two.generation then { x with two := { x.two with sound := false } }
  else { x with one := { x.one with sound := false } }

/-- Neither copy's check word matches any more. -/
def Area.lose (x : Area α) : Area α :=
  { one := { x.one with sound := false }, two := { x.two with sound := false } }

end areas

/-- What RATE keeps beside the open record (R86); nothing when no account is open. -/
def savedAccount (r : RateBlock) : Option SavedAccount :=
  match r.phase with
  | .inactive => none
  | _ => some ⟨r.acct, r.cls, r.bank, r.initial, r.fixedMode, r.fallbackUsed, r.band, r.rate, r.period,
      r.periods, r.pulses, r.flags⟩

/-- How many of the coins that have left the escrow CALL's records have counted (the model's own, notes/assumptions 97): all
of them, and at a start also the entries still in the list that no record has to count any more. -/
def countedGone (c : CoinBlock) : Nat := c.gone + (c.escrow.filter EscrowEntry.counted).length

def callArea (s : State) : CallArea :=
  { openSlot := s.call.openSlot, closingSlot := s.call.closingSlot, atStart := s.call.atStart,
    account := savedAccount s.rate, lastCredited := s.call.lastCredited, restartEnd := s.call.restartEnd,
    gone := countedGone s.coin }

def coinArea (s : State) : CoinArea :=
  { escrow := s.coin.escrow, order := s.coin.order, inletFault := s.coin.inletFault,
    unconfirmed := s.coin.unconfirmed, strandedTally := s.coin.strandedTally, strokeNo := s.coin.strokeNo,
    gone := s.coin.gone }

def vaultArea (s : State) : VaultArea :=
  { counters := s.vault.counters, progress := s.vault.progress, last := s.vault.last, number := s.vault.number,
    lastStroke := s.vault.lastStroke }

def rptArea (s : State) : RptArea := ⟨s.rpt.failures, s.rpt.urgentFailures, s.rpt.savedWait⟩

/-- R178: the contents differ from those of the newest sound copy, so the area is written. -/
def Area.changes {α : Type} [DecidableEq α] (x : Area α) (c : α) : Bool := decide (x.newest.map Copy.contents ≠ some c)

/-- R178: the areas that a step has changed. -/
def changedAreas (s : State) : List AreaName :=
  let ar := s.store.areas
  (if ar.config.changes s.config then [.config] else [])
    ++ (if ar.call.changes (callArea s) then [.call] else [])
    ++ (if ar.coin.changes (coinArea s) then [.coin] else [])
    ++ (if ar.bankA.changes s.bank.a then [.bankA] else [])
    ++ (if ar.bankB.changes s.bank.b then [.bankB] else [])
    ++ (if ar.vault.changes (vaultArea s) then [.vault] else [])
    ++ (if ar.incd.changes s.incd.map then [.incd] else [])
    ++ (if ar.rpt.changes (rptArea s) then [.rpt] else [])
    ++ (if ar.log.changes s.store.log then [.log] else [])

/-- R178, R180: each block's changed retained state is written to its area, area by area, and the marker to its second
copy. -/
def writeAreas (s : State) : Areas :=
  let ar := s.store.areas
  { config := ar.config.write s.config
    call := ar.call.write (callArea s)
    coin := ar.coin.write (coinArea s)
    bankA := ar.bankA.write s.bank.a
    bankB := ar.bankB.write s.bank.b
    vault := ar.vault.write (vaultArea s)
    incd := ar.incd.write s.incd.map
    rpt := ar.rpt.write (rptArea s)
    log := ar.log.write s.store.log
    marker := s.store.marker
    written := if changedAreas s = [] then ar.written else changedAreas s }

def commit (s : State) : State := { s with store := { s.store with areas := writeAreas s } }

/-! ### What every step ends with -/

/-- R156: between attempts RPT follows the wanted test. -/
def rptFollow (s : State) : State :=
  match s.rpt.state with
  | .idle => if reportWanted s then { s with rpt := { s.rpt with state := .readyToStart } } else s
  | .readyToStart => if reportWanted s then s else { s with rpt := { s.rpt with state := .idle } }
  | _ => s

/-- R157: the idle guard timer runs from the instant the payphone becomes quiet, and its measure is discarded when it
ceases to be. -/
def guardFollow (s : State) : State :=
  { s with rpt := { s.rpt with
      quietSince := if quiet s then some (s.rpt.quietSince.getD s.now) else none } }

/-- R88: what a CREDIT notice carries: phase, mode, K, C, H, U, due and E. With no account open, K is the open record's
carried-in amount, which R108 says of SNAPSHOT alone (DESIGN CHOICE, notes/assumptions 72). -/
def creditView (s : State) : List Byte :=
  le1 s.rate.phase.code ++ optByte (s.rate.mode.map RatingMode.code)
    ++ le3 (if s.rate.phase = .inactive then openCarried s else s.rate.acct.carried)
    ++ le3 s.rate.acct.collected ++ le3 s.rate.acct.charged ++ le3 s.rate.acct.unused ++ le3 s.rate.acct.due
    ++ le3 (callE s)

/-- The account and the phase that a CREDIT notice follows, unsaturated; with no account open, K as `creditView` has it
(notes/assumptions 72). -/
def creditKey (s : State) : Phase × Account × Nat × Nat :=
  (s.rate.phase, s.rate.acct, openCarried s, callE s)

/-- R88: at each change of phase, and at each change of K, C, H, U, due or E during a call, RATE posts CREDIT. The rule
does not say whether a start is such a change: the model compares the values after a start with those before it
(DESIGN CHOICE, notes/assumptions 50). -/
def creditFollow (s0 s : State) : State :=
  if s0.rate.phase ≠ s.rate.phase
      ∨ ((callExists s0.call.state ∨ callExists s.call.state) ∧ creditKey s0 ≠ creditKey s) then
    post .credit (creditView s) s
  else s

/-- The end of a step: RPT follows the map and the quiet, RATE's notice is posted, the retained areas are written and
the transmitter chooses (DESIGN CHOICE, notes/assumptions 5: once, at the end of the step). -/
def finish (s0 s : State) : State :=
  pump (commit (creditFollow s0 (guardFollow (rptFollow s))))

/-- A step of the running part; with the power off, or while a restart is awaited (R184), the event is not taken. -/
def stepAlive (f : State → State) (s : State) : State :=
  if alive s then finish s (f s) else s

end Sys2Proof.Machine
end

