-- ==== Sys2Proof/Machine/Incident.lean ====
section
/-! DEFINITION. INCD's incident map: occurrences (R143, R144), condition ends (R145), removal (R146), notices (R147),
reporting order (R149), acknowledgements (R150) and start-up readings (R154). An urgent occurrence is handed to CALL
and RPT by `raiseIncident` of `Machine/Call.lean` (R148). -/

namespace Sys2Proof.Machine

/-- R147's causes, in order. -/
inductive IncidentCause where
  | created | counted | saturated | ended | reported | removed | cleared | startup
deriving DecidableEq, Repr

def IncidentCause.code : IncidentCause → Nat
  | .created => 0 | .counted => 1 | .saturated => 2 | .ended => 3 | .reported => 4 | .removed => 5 | .cleared => 6
  | .startup => 7

def findIncident (k : IncidentKind) (m : List Incident) : Option Incident := m.find? (fun e => decide (e.kind = k))

def removeIncident (k : IncidentKind) (m : List Incident) : List Incident := m.filter (fun e => decide (e.kind ≠ k))

/-- The map keeps one entry per kind, in kind order. -/
def insertIncident (e : Incident) : List Incident → List Incident
  | [] => [e]
  | x :: xs =>
    if e.kind.number < x.kind.number then e :: x :: xs
    else if e.kind.number = x.kind.number then e :: xs
    else x :: insertIncident e xs

/-- R147: kind, severity, the entry's fields after the event, and the cause. The kind is sent as its number 1..12, as R142
and the layout of INCIDENT_LIST give it, not as a position from 0 (DESIGN CHOICE, notes/assumptions 12). -/
def incidentNotice (e : Incident) (c : IncidentCause) : List Byte :=
  le1 e.kind.number ++ le1 (severityOf e.kind).digit ++ timeBytes e.first ++ timeBytes e.last ++ le2 e.count
    ++ le2 e.reported ++ markBytes e.active ++ le1 c.code

def postIncident (e : Incident) (c : IncidentCause) (s : State) : State := post .incident (incidentNotice e c) s

def setMap (m : List Incident) (s : State) : State := { s with incd := { s.incd with map := m } }

/-- R143, R144: what an occurrence makes of the entry of its kind, and the notice's cause. -/
def occurrenceEntry (t : Option Time) (k : IncidentKind) : Option Incident → Incident × IncidentCause
  | none => (⟨k, t, t, 1, 0, !momentary k⟩, .created)
  | some e =>
    let act := if momentary k then e.active else true
    if e.count < 999 then ({ e with count := e.count + 1, last := t, active := act }, .counted)
    else ({ e with last := t, active := act, reported := if e.reported = 999 then 998 else e.reported }, .saturated)

/-- R143: an occurrence acts on the map and posts its notice. -/
def countOccurrence (k : IncidentKind) (s : State) : State :=
  let r := occurrenceEntry s.store.clock k (findIncident k s.incd.map)
  postIncident r.1 r.2 (setMap (insertIncident r.1 s.incd.map) s)

/-- R146: an entry that is inactive and fully reported is removed. -/
def removable (e : Incident) : Bool := !e.active && !e.unreported

/-- An entry's new fields are stored, or the entry removed if R146 says so, with the notice of the event. -/
def settleEntry (e : Incident) (stays : IncidentCause) (s : State) : State :=
  if removable e then postIncident e .removed (setMap (removeIncident e.kind s.incd.map) s)
  else postIncident e stays (setMap (insertIncident e s.incd.map) s)

/-- The active flag of a kind's entry is cleared, with the removal test; `stays` is the notice's cause when the entry
stays. An inactive or absent entry is left alone, with no notice. -/
def clearActive (k : IncidentKind) (stays : IncidentCause) (s : State) : State :=
  match findIncident k s.incd.map with
  | none => s
  | some e => if e.active then settleEntry { e with active := false } stays s else s

/-- R145. -/
def endCondition (k : IncidentKind) (s : State) : State := clearActive k .ended s

/-- R150: the reported count rises to the smaller of the count carried and the present count, and never falls. -/
def acknowledge (k : IncidentKind) (carried : Nat) (s : State) : State :=
  match findIncident k s.incd.map with
  | none => s
  | some e => settleEntry { e with reported := max e.reported (min carried e.count) } .reported s

/-- R154: a reading of absence. -/
def readAbsent (k : IncidentKind) (s : State) : State := clearActive k .startup s

/-- R149: the order of entries in one severity: earliest first time first, absent last, then kind number. -/
def timeRank : Option Time → Nat
  | some t => t
  | none => clockEnd

/-- R149: `a` stands before `b` in the reporting order. -/
def reportBefore (a b : Incident) : Bool :=
  let da := (severityOf a.kind).digit
  let db := (severityOf b.kind).digit
  if da ≠ db then decide (da < db)
  else if timeRank a.first ≠ timeRank b.first then decide (timeRank a.first < timeRank b.first)
  else decide (a.kind.number ≤ b.kind.number)

def insertReport (e : Incident) : List Incident → List Incident
  | [] => [e]
  | x :: xs => if reportBefore e x then e :: x :: xs else x :: insertReport e xs

/-- R149: the map in the reporting order. -/
def reportingOrder : List Incident → List Incident
  | [] => []
  | e :: es => insertReport e (reportingOrder es)

/-- R149: the wanted entries, in the reporting order. -/
def wantedEntries (s : State) : List Incident := (reportingOrder s.incd.map).filter Incident.unreported

/-- R197: an entry of the INCIDENT_LIST reply, 14 bytes. -/
def listEntry (e : Incident) : List Byte :=
  le1 e.kind.number ++ le1 ((severityOf e.kind).digit + if e.active then 128 else 0) ++ le2 e.count
    ++ le2 e.reported ++ timeBytes e.first ++ timeBytes e.last

end Sys2Proof.Machine
end

