-- ==== Sys2Proof/Machine/Line.lean ====
section
/-! DEFINITION. LINE: seizure (R41, R42), release (R43), ending reports (R46), digit sending (R53 to R56) and the
line-voltage watch's notice (R60). The tone channels are in `Machine/Tone.lean`. -/

namespace Sys2Proof.Machine

/-! ### Digits -/

def Symbol.dtmf : Symbol → Dtmf
  | .digit d => .digit d
  | .star => .star

/-- R54: the tone pair of each symbol, low and high group, in hertz. -/
def dtmfPair : Dtmf → Nat × Nat
  | .digit d =>
    match d.val with
    | 1 => (697, 1209) | 2 => (697, 1336) | 3 => (697, 1477)
    | 4 => (770, 1209) | 5 => (770, 1336) | 6 => (770, 1477)
    | 7 => (852, 1209) | 8 => (852, 1336) | 9 => (852, 1477)
    | _ => (941, 1336)
  | .a => (697, 1633)
  | .star => (941, 1209)
  | .hash => (941, 1477)
  | .d => (941, 1633)

/-- R55: digits 1 to 9 give 1 to 9 pulses, and digit 0 gives 10. Only digits are sent by this method (R41). -/
def pulsesOf : Dtmf → Nat
  | .digit d => if d.val = 0 then 10 else d.val
  | _ => 0

/-- R54: 80 ms of tone and 80 ms of silence a symbol. -/
def dtmfMs (n : Nat) : Nat := n * 160

/-- R55: 100 ms a pulse, 700 ms between digits, none after the last. -/
def loopPulseMs : List Dtmf → Nat
  | [] => 0
  | [x] => pulsesOf x * 100
  | x :: y :: rest => pulsesOf x * 100 + 700 + loopPulseMs (y :: rest)

/-- R53 to R55: how long the stored digit string takes. -/
def sendMs : SendingMethod → List Dtmf → Nat
  | .dtmf, l => dtmfMs l.length
  | .loopPulse, l => loopPulseMs l

/-- R41: LOOP_PULSE cannot send `*` or `#` (nor the symbols A and D). -/
def unsendable (m : SendingMethod) (l : List Dtmf) : Bool :=
  decide (m = .loopPulse) && l.any (fun x => match x with | .digit _ => false | _ => true)

/-! ### What LINE presents to the line -/

/-- The loop, tones and pulses presented to the line at an instant. -/
inductive LineDrive where
  | open
  | closed
  | tone (low high : Nat)
  | broken
deriving DecidableEq, Repr

/-- The DTMF output `ms` after the first symbol began. -/
def dtmfDrive (l : List Dtmf) (ms : Nat) : LineDrive :=
  match l[ms / 160]? with
  | some x => if ms % 160 < 80 then .tone (dtmfPair x).1 (dtmfPair x).2 else .closed
  | none => .closed

/-- The loop-pulse output `ms` after the first digit began: 60 ms of break and 40 ms of make a pulse (R55). -/
def pulseDrive : List Dtmf → Nat → LineDrive
  | [], _ => .closed
  | x :: rest, ms =>
    let t := pulsesOf x * 100
    if ms < t then (if ms % 100 < 60 then .broken else .closed)
    else if ms < t + 700 then .closed
    else pulseDrive rest (ms - t - 700)

/-- R40, R54 to R56: the line output of a state. -/
def lineDrive (s : State) : LineDrive :=
  match s.line.state with
  | .free | .guard => .open
  | .seizedWaitTone => .closed
  | .sending =>
    match s.line.method with
    | .dtmf => dtmfDrive s.line.digits (s.now - s.line.sendStart)
    | .loopPulse => pulseDrive s.line.digits (s.now - s.line.sendStart)
  | .seized =>
    match s.line.sender with
    | some (l, e) => dtmfDrive l (s.now - (e - dtmfMs l.length))
    | none => .closed

/-! ### Notices -/

/-- R60: the watch state with the line state and owner. -/
def lineNotice (s : State) : List Byte := le1 s.line.watch.code ++ le1 s.line.state.code ++ le1 s.line.owner.code

def postLine (s : State) : State := post .line (lineNotice s) s

/-- R60, R61: the watch changes state, and a LINE notice is posted. -/
def setWatch (w : Watch) (s : State) : State := postLine { s with line := { s.line with watch := w } }

/-! ### Seizure and release -/

/-- LINE's answer to a seizure request (R41). -/
inductive SeizeAnswer where
  | seized | refusedGuard | refusedOwned (o : Owner) | unsendable
deriving DecidableEq, Repr

/-- R61: a seizure made during the first voltage reading abandons it: the watch starts in PRESENT, and LINE_CUT is read
absent. -/
def abandonVoltageReading (s : State) : State :=
  if s.store.start.voltageRead then s
  else
    readAbsent .lineCut
      { s with line := { s.line with watch := .present },
               store := { s.store with start := { s.store.start with voltageRead := true } } }

/-- R42: the loop closes for the requester. The tone detector takes its first level at this instant, so that a run already
present is timed from it (R47). -/
def seize (who : Owner) (digits : List Dtmf) (s0 : State) : State :=
  let s := abandonVoltageReading s0
  { s with line := { s.line with
      state := .seizedWaitTone
      owner := who
      digits := digits
      method := s.config.sendingMethod
      dialToneTimer := s.after (s.config.dialToneWait * 1000)
      sendTimer := none
      armed := false
      absentSince := none
      reported := false
      reversed := false
      answered := false
      holdSince := none
      meterFreq := s.config.meterFreq
      centreFreq := s.config.centreFreq
      progress := { active := true, dialTiming := true, busyWatch := true }
      meter := {}
      centre := {}
      detectorTimer := s.after 0
      sender := none
      voltSince := none } }

/-- R41: LINE answers a seizure request at the instant it is made. -/
def requestSeizure (who : Owner) (digits : List Dtmf) (s : State) : State × SeizeAnswer :=
  match s.line.state with
  | .free =>
    if unsendable s.config.sendingMethod digits then (s, .unsendable) else (seize who digits s, .seized)
  | .guard => (s, .refusedGuard)
  | _ => (s, .refusedOwned s.line.owner)

/-- R43: the owner's release request. In FREE or GUARD it changes nothing. The voltage watch resumes, and a run contrary to
its state is timed from this instant (R60). -/
def release (s : State) : State :=
  if loopClosed s.line.state then
    { s with line := { s.line with
        state := .guard
        owner := .none
        guardTimer := s.after releaseGuardMs
        dialToneTimer := none
        sendTimer := none
        armed := false
        absentSince := none
        reported := false
        reversed := false
        answered := false
        holdSince := none
        progress := {}
        meter := {}
        centre := {}
        detectorTimer := none
        sender := none
        voltSince := if s.pins.voltage = decide (s.line.watch = .present) then none else s.after 0 } }
  else s

/-- R46: an ending report stops the dial-tone wait, makes the channels idle and disarms the loop-current watch; the
loop stays closed until the owner's release. -/
def endingReport (s : State) : State :=
  { s with line := { s.line with
      reported := true
      dialToneTimer := none
      sendTimer := none
      armed := false
      absentSince := none
      holdSince := none
      progress := {}
      meter := {}
      centre := {}
      detectorTimer := none } }

/-- A seizure is in progress and no ending report of it has been delivered. -/
def listening (l : LineBlock) : Bool := loopClosed l.state && !l.reported

/-- R45: the loop-current watch runs; it is suspended while digits are sent by loop pulses. -/
def watchRuns (l : LineBlock) : Bool :=
  listening l && !(decide (l.state = .sending) && decide (l.method = .loopPulse))

/-- R53: sending begins: the dial-tone wait stops, dial-tone timing is dropped and the busy watch kept; an absence
being timed when loop-pulse sending begins is discarded (R45). -/
def beginSending (s : State) : State :=
  { s with line := { s.line with
      state := .sending
      dialToneTimer := none
      sendTimer := s.after (sendMs s.line.method s.line.digits)
      sendStart := s.now
      absentSince := if s.line.method = .loopPulse then none else s.line.absentSince
      progress := { s.line.progress with dialTiming := false } } }

/-- R57: the polarity as LINE judges it: the input while loop current is present; in an absence it is taken as unchanged,
the one last judged (in a seizure that has seen no current yet, in an earlier one: DESIGN CHOICE, notes/assumptions 67). -/
def judgedPolarity (s : State) : Bool := if s.pins.loopCurrent then s.pins.polarity else s.line.polaritySeen

/-- R53, R57: the line enters SEIZED: the reference polarity is taken, and the meter channel (owner CALL) or the centre
channel (owner RPT) starts. After loop-pulse sending the watch resumes, and an absence is timed from this instant
(R45). -/
def enterSeized (s : State) : State :=
  { s with line := { s.line with
      state := .seized
      sendTimer := none
      absentSince :=
        if s.line.method = .loopPulse ∧ s.line.armed ∧ s.pins.loopCurrent = false then s.after 0
        else s.line.absentSince
      reference := judgedPolarity s
      polaritySeen := judgedPolarity s
      holdSince := none
      meter := { active := decide (s.line.owner = .call) }
      centre := { active := decide (s.line.owner = .rpt) } } }

/-- R56: RPT's request to send a string in band; refused in any other state (RPT makes none then). -/
def sendInBand (l : List Dtmf) (s : State) : State :=
  if s.line.state = .seized ∧ s.line.owner = .rpt ∧ s.line.sender = none then
    { s with line := { s.line with sender := some (l, s.now + dtmfMs l.length), centre := {} } }
  else s

end Sys2Proof.Machine
end

