-- ==== Sys2Proof/Machine/Bank.lean ====
section
/-! DEFINITION. BANK: states and notices (R110, R123), loading (R111 to R116), the closing check (R117), activation
(R118, R119), the in-use mark (R120), cancellation (R121), and band resolution (R100). -/

namespace Sys2Proof.Machine

/-! ### Table order (R114) -/

/-- R114: 0 lowest, then 1 to 9, then `*`; the shorter first where one string is the leading part of another. -/
def stringBefore : List Symbol → List Symbol → Bool
  | [], [] => false
  | [], _ :: _ => true
  | _ :: _, [] => false
  | x :: xs, y :: ys => if x.code = y.code then stringBefore xs ys else decide (x.code < y.code)

/-- Adds an entry at its place in table order, or replaces the one with the same digit string. -/
def putEntry (e : TableEntry) : List TableEntry → List TableEntry
  | [] => [e]
  | x :: xs =>
    if x.digits = e.digits then e :: xs
    else if stringBefore e.digits x.digits then e :: x :: xs
    else x :: putEntry e xs

/-- R115: a switch point is put at its place in ascending order of minute, or its band replaced. -/
def putPoint (p : SwitchPoint) : List SwitchPoint → List SwitchPoint
  | [] => [p]
  | x :: xs =>
    if x.minute = p.minute then p :: xs
    else if p.minute < x.minute then p :: x :: xs
    else x :: putPoint p xs

/-- R116: by month, then day, without a year before those with one, then by year. -/
def holidayRank (h : Holiday) : Nat := (h.month * 32 + h.day) * 4096 + (h.year.getD 0)

def putHoliday (h : Holiday) : List Holiday → List Holiday
  | [] => [h]
  | x :: xs => if holidayRank h < holidayRank x then h :: x :: xs else x :: putHoliday h xs

def BankContents.points (c : BankContents) : DayType → List SwitchPoint
  | .workday => c.workday
  | .saturday => c.saturday
  | .sundayHoliday => c.sunday

def BankContents.setPoints (c : BankContents) (d : DayType) (l : List SwitchPoint) : BankContents :=
  match d with
  | .workday => { c with workday := l }
  | .saturday => { c with saturday := l }
  | .sundayHoliday => { c with sunday := l }

/-! ### States and notices -/

def setBank (n : BankName) (b : Bank) (s : State) : State := { s with bank := s.bank.set n b }

def setContents (n : BankName) (c : BankContents) (s : State) : State :=
  setBank n { s.bank.get n with contents := c } s

/-- R123: bank, state left, state entered, label, cause; the pending time with SCHEDULED. -/
def bankNotice (n : BankName) (left entered : BankState) (label : List Byte) (c : BankCause) (due : Option When) :
    List Byte :=
  le1 (bankByte n) ++ le1 left.code ++ le1 entered.code ++ labelBytes label ++ le1 c.code
    ++ (if c = .scheduled then
          match due with
          | some (.time t) => le4 t
          | some .now => le4 nowTime
          | none => le4 absentTime
        else [])

/-- R110, R123: a bank changes state, and a BANK notice is posted. -/
def moveBank (n : BankName) (entered : BankState) (c : BankCause) (s : State) : State :=
  let b := s.bank.get n
  post .bank (bankNotice n b.state entered b.contents.label c b.due)
    (setBank n { b with state := entered } s)

/-- R111: contents emptied, label set, LOADING; no notice when the bank was already in LOADING. -/
def openBank (n : BankName) (label : List Byte) (s : State) : State :=
  let b := s.bank.get n
  let s1 := setBank n { b with contents := { BankContents.emptied with label := label }, due := none } s
  if b.state = .loading then s1 else moveBank n .loading .opened s1

/-! ### Closing check (R117) -/

/-- The fault of a closing check: kind position, index, and the class of a CLASS_ABSENT entry. -/
structure CloseFault where
  kind : Nat
  index : Nat
  cls : Option Nat
deriving DecidableEq, Repr

def hasMidnight (l : List SwitchPoint) : Bool := l.any (fun p => p.minute == 0)

/-- The first entry, in table order from index `i`, whose class is absent. -/
def absentClassFrom (classes : List (Option Price)) : Nat → List TableEntry → Option CloseFault
  | _, [] => none
  | i, e :: es =>
    if (classes.getD e.cls none).isNone then some ⟨1, i, some e.cls⟩ else absentClassFrom classes (i + 1) es

/-- R117: the four tests in order. -/
def closingFault (c : BankContents) : Option CloseFault :=
  if !hasMidnight c.workday then some ⟨0, 0, none⟩
  else if !hasMidnight c.saturday then some ⟨0, 1, none⟩
  else if !hasMidnight c.sunday then some ⟨0, 2, none⟩
  else match absentClassFrom c.classes 0 c.table with
    | some f => some f
    | none =>
      if c.defaultBand.isNone then some ⟨2, 0, none⟩
      else if c.table.isEmpty then some ⟨3, 0, none⟩
      else none

/-! ### Activation (R119) -/

/-- The bank named by the pending activation; at most one is PENDING. -/
def pendingBank (s : State) : Option BankName :=
  if s.bank.a.state = .pending then some .a else if s.bank.b.state = .pending then some .b else none

/-- R119: the activation instant has been reached. -/
def activationReached (s : State) (w : When) : Bool :=
  match w with
  | .now => true
  | .time t => match s.store.clock with
    | some c => decide (t ≤ c)
    | none => false

/-- R119 step 1: an ACTIVE bank is displaced, into RETIRING when in use. -/
def displace (n : BankName) (s : State) : State :=
  if (s.bank.get n).state = .active then
    moveBank n (if s.bank.inUse n then .retiring else .ready) .displaced s
  else s

/-- R119: the actions of the activation instant of bank `n`. -/
def activate (n : BankName) (s0 : State) : State :=
  let s := displace (otherBank n) s0
  let serial := max s.bank.a.serial s.bank.b.serial + 1
  moveBank n .active .activated (setBank n { s.bank.get n with serial := serial, due := none } s)

/-- R119: the pending activation is judged against the clock as it stands. -/
def judgeActivation (s : State) : State :=
  match pendingBank s with
  | none => s
  | some n =>
    match (s.bank.get n).due with
    | none => s
    | some w => if activationReached s w then activate n s else s

/-- R124: the bank as it stands is written to its area, before the step goes on (DEDUCED, notes/assumptions 69). -/
def writeBank (n : BankName) (s : State) : State :=
  let ar := s.store.areas
  { s with store := { s.store with areas := match n with
    | .a => { ar with bankA := ar.bankA.write s.bank.a, written := [.bankA] }
    | .b => { ar with bankB := ar.bankB.write s.bank.b, written := [.bankB] } } }

/-- R118, R124: a READY bank becomes PENDING, which is written to its area as it is made, and an activation already due is
made at the command itself. -/
def scheduleBank (n : BankName) (w : When) (s : State) : State :=
  judgeActivation (writeBank n (moveBank n .pending .scheduled (setBank n { s.bank.get n with due := some w } s)))

/-! ### The in-use mark (R120) -/

def setInUse (n : BankName) (v : Bool) (s : State) : State :=
  match n with
  | .a => { s with bank := { s.bank with inUseA := v } }
  | .b => { s with bank := { s.bank with inUseB := v } }

/-- R120: the mark is cleared, and a RETIRING bank becomes READY. -/
def clearInUse (n : BankName) (s : State) : State :=
  let s1 := setInUse n false s
  if (s1.bank.get n).state = .retiring then moveBank n .ready .retired s1 else s1

/-! ### Bands (R99, R100) -/

/-- R100 step 3: the band of the switch point with the greatest minute no later than `m`. -/
def bandAt (m : Nat) : List SwitchPoint → Nat → Nat
  | [], b => b
  | p :: ps, b => if p.minute ≤ m then bandAt m ps p.band else b

/-- R100: the band of an instant; the second component says that the clock was unset. -/
def resolveBand (s : State) (n : BankName) : Nat × Bool :=
  let c := (s.bank.get n).contents
  match s.store.clock with
  | none => (c.defaultBand.getD 0, true)
  | some t => (bandAt (minuteOfDay t) (c.points (dayTypeOf c.holidays t)) 0, false)

/-- R99: the minute of the next switch point after minute `m`, or midnight. -/
def nextSwitch (m : Nat) : List SwitchPoint → Nat
  | [] => 1440
  | p :: ps => if m < p.minute then p.minute else nextSwitch m ps

/-- R99: the tenths from a time, to the second, to the next switch point. -/
def tenthsToSwitch (c : BankContents) (t : Time) : Nat :=
  (nextSwitch (minuteOfDay t) (c.points (dayTypeOf c.holidays t)) * 60 - t % 86400) * 10

end Sys2Proof.Machine
end

