-- ==== Sys2Proof/Machine/Vault.lean ====
section
/-! DEFINITION. VAULT: counters (R125), vault load and VAULT_FULL (R126), the near-full mark (R128), the SERVICE
notice (R129) and the collection visit (R133, R134). -/

namespace Sys2Proof.Machine

/-! ### Notices -/

/-- The counters, in the order of VAULT's state list. -/
def counterBytes (c : Counters) : List Byte := c.denoms.flatMap le2 ++ le2 c.unknown ++ le2 c.total ++ le4 c.value

/-- ON and OPEN stand first in the lists of VAULT's state (positions from 0). -/
def switchCode (b : Bool) : List Byte := le1 (if b then 0 else 1)

/-- BELOW and ROOM stand before REACHED and FULL. -/
def secondCode (b : Bool) : List Byte := le1 (if b then 1 else 0)

/-- R125: what a VAULT notice carries. -/
def vaultNotice (s : State) : List Byte :=
  counterBytes s.vault.counters ++ le1 s.coin.escrow.length ++ le2 s.config.vaultCapacity
    ++ secondCode s.vault.nearFull ++ secondCode s.vault.full

def postVault (s : State) : State := post .vault (vaultNotice s) s

/-- R129's causes, in order. -/
inductive ServiceCause where
  | keyOn | keyOff | vaultDoorOpened | vaultDoorClosed | housingDoorOpened | housingDoorClosed | graceExpired
  | collectionStarted | collectionDone | startup
deriving DecidableEq, Repr

def ServiceCause.code : ServiceCause → Nat
  | .keyOn => 0 | .keyOff => 1 | .vaultDoorOpened => 2 | .vaultDoorClosed => 3 | .housingDoorOpened => 4
  | .housingDoorClosed => 5 | .graceExpired => 6 | .collectionStarted => 7 | .collectionDone => 8 | .startup => 9

/-- R134: the collection record's fields, in order. -/
def collectionBytes (r : CollectionRecord) : List Byte :=
  le4 r.number ++ timeBytes r.openTime ++ timeBytes r.closeTime ++ counterBytes r.counters ++ le1 r.closing.code

/-- R129: cause, key state, door states, service state, whether a collection is in progress; the record with
COLLECTION_DONE. -/
def serviceNotice (c : ServiceCause) (s : State) : List Byte :=
  le1 c.code ++ switchCode s.vault.keyOn ++ switchCode s.vault.vaultOpen ++ switchCode s.vault.housingOpen
    ++ le1 s.vault.service.code ++ markBytes s.vault.progress.isSome
    ++ (if c = .collectionDone then
          match s.vault.last with
          | some r => collectionBytes r
          | none => []
        else [])

def postService (c : ServiceCause) (s : State) : State := post .service (serviceNotice c s) s

/-! ### Load and marks -/

/-- R126: the VAULT_FULL state follows the vault load; a change raises or ends the condition, once the first switch
reading has been given (R137 step 5: before it the state is reported by the reading). -/
def fullFollow (s : State) : State :=
  let f := vaultAtCapacity s
  if f = s.vault.full then s
  else
    let s1 := { s with vault := { s.vault with full := f } }
    if s.store.start.switchesRead then
      (if f then countOccurrence .vaultFull s1 else endCondition .vaultFull s1)
    else s1

/-- R128: the near-full mark state follows the coin total; a change posts a VAULT notice. -/
def nearFollow (s : State) : State :=
  let n := decide (s.config.nearFullMark ≤ s.vault.counters.total)
  if n = s.vault.nearFull then s else postVault { s with vault := { s.vault with nearFull := n } }

/-- R126, R128: recomputed at each change of either count. -/
def vaultRefresh (s : State) : State := nearFollow (fullFollow s)

def bumpNth (n : Nat) : List Nat → List Nat
  | [] => []
  | x :: xs => if n = 0 then (x + 1) :: xs else x :: bumpNth (n - 1) xs

/-- R125: a coin of a denomination reaches the vault. -/
def Counters.coin (c : Counters) (denom value : Nat) : Counters :=
  { c with denoms := bumpNth (denom - 1) c.denoms, total := c.total + 1, value := c.value + value }

/-- R125: a coin of unknown denomination. -/
def Counters.blind (c : Counters) : Counters := { c with unknown := c.unknown + 1, total := c.total + 1 }

def setCounters (c : Counters) (s : State) : State := { s with vault := { s.vault with counters := c } }

/-! ### Collections -/

/-- R133: a collection starts, unless one is in progress. -/
def startCollection (s : State) : State :=
  match s.vault.progress with
  | some _ => s
  | none => postService .collectionStarted { s with vault := { s.vault with progress := some s.store.clock } }

/-- R134: the collection number is 1..4294967295. What follows the greatest is not stated: 1 does, as for the sequence number
of R174 (DESIGN CHOICE, notes/assumptions 55). -/
def nextNumber (n : Nat) : Nat := if 4294967295 ≤ n then 1 else n + 1

/-- R134: a collection in progress completes. Steps 4 and 5 are one instant, and no rule orders their notices: those of step 4
(the end of VAULT_FULL, and VAULT for a near-full mark that turns BELOW) are posted before COLLECTION_DONE and the VAULT of
step 5 (DESIGN CHOICE, notes/assumptions 89). -/
def completeCollection (c : Closing) (s : State) : State :=
  match s.vault.progress with
  | none => s
  | some openTime =>
    let r : CollectionRecord := ⟨nextNumber s.vault.number, openTime, s.store.clock, s.vault.counters, c⟩
    let s1 := { s with vault := { s.vault with number := r.number, last := some r, counters := {}, progress := none } }
    postVault (postService .collectionDone (vaultRefresh s1))

end Sys2Proof.Machine
end

