-- ==== Sys2Proof/Machine/Coin.lean ====
section
/-! DEFINITION. COIN: the validator decision (R63), the COIN notice (R66), the owner of the escrow (R71, R87), strokes
(R73, R81), the refund run and stranding (R77, R78), the purge (R85) and the suspect mark (R80). What a coin's fate
means to RATE and CALL is in `Machine/CoinEvents.lean`. -/

namespace Sys2Proof.Machine

/-! ### The validator's answer -/

/-- R63 test 8: a blind COLLECT stroke in progress is counted as one coin more. -/
def blindCollectCoin (c : CoinBlock) : Nat := if c.blind && decide (c.mover = .collecting) then 1 else 0

/-- R63: the tests in order; the first that fails gives the reason. -/
def rejectReason (code : Nat) (s : State) : Option RejectReason :=
  if s.coin.transit.isSome then some .overrun
  else if code < 1 ∨ 8 < code then some .unrecognised
  else if s.config.denomEnabled.getD (code - 1) false = false then some .disabled
  else if s.coin.inletFault then some .inletFault
  else if s.coin.lockoutTimer.isSome then some .lockout
  else if s.coin.order = .outOfOrder then some .escrowFault
  else if s.vault.vaultOpen then some .doorOpen
  else if s.config.vaultCapacity < vaultLoad s + 1 + blindCollectCoin s.coin then some .vaultFull
  else if coinPermission s.call.state = false then some .noCall
  else if s.coin.run ≠ .none then some .refundPending
  else if 12 ≤ s.coin.escrow.length then some .tubeFull
  else none

/-! ### COIN notices (R66) -/

/-- The outcomes, in order, each with its further fields; `none` for a coin is a blind stroke's. -/
inductive CoinOutcome where
  | rejected (r : RejectReason) (code : Nat)
  | accepted (denom value : Nat) (suspect : Bool)
  | unconfirmed (denom value : Nat)
  | stray (sensor : Nat)
  | collected (coin : Option (Nat × Nat))
  | refunded (coin : Option (Nat × Nat))
  | jammed (coin : Option (Nat × Nat)) (k : Stroke)
  | stranded (sum : CoinSum)
deriving DecidableEq, Repr

def CoinOutcome.code : CoinOutcome → Nat
  | .rejected _ _ => 0 | .accepted _ _ _ => 1 | .unconfirmed _ _ => 2 | .stray _ => 3 | .collected _ => 4
  | .refunded _ => 5 | .jammed _ _ => 6 | .stranded _ => 7

def coinBytes (c : Nat × Nat) : List Byte := le1 c.1 ++ le3 c.2

/-- R66's further fields. The denomination and value of COLLECTED, REFUNDED and JAMMED are one optional item, absent for a
blind stroke (R81; DESIGN CHOICE, notes/assumptions 88). -/
def CoinOutcome.fields : CoinOutcome → List Byte
  | .rejected r code => le1 r.code ++ le1 code
  | .accepted d v sus => coinBytes (d, v) ++ markBytes sus
  | .unconfirmed d v => coinBytes (d, v)
  | .stray n => le1 n
  | .collected c => optItem (c.map coinBytes)
  | .refunded c => optItem (c.map coinBytes)
  | .jammed c k => optItem (c.map coinBytes) ++ le1 k.code
  | .stranded t => le1 t.coins ++ le3 t.value

/-- R66: outcome, escrow count and value after it, inlet state, then the further fields, as they stand when the notice is
posted (DESIGN CHOICE, notes/assumptions 92). -/
def coinNotice (o : CoinOutcome) (s : State) : List Byte :=
  let e := escrowSum s.coin.escrow
  le1 o.code ++ le1 e.coins ++ le3 e.value ++ le1 (inletState s).code ++ o.fields

def postCoin (o : CoinOutcome) (s : State) : State := post .coin (coinNotice o s) s

/-! ### Records -/

def setOpen (sl : Option Slot) (s : State) : State := { s with call := { s.call with openSlot := sl } }

def Slot.modify (f : CallRecord → CallRecord) (sl : Slot) : Slot := { sl with record := f sl.record }

/-- A change to the record in the open slot. -/
def modifyOpen (f : CallRecord → CallRecord) (s : State) : State := setOpen (s.call.openSlot.map (Slot.modify f)) s

/-- A change to the first of the slots being closed at start-up. -/
def modifyHead (g : Slot → Slot) : List Slot → List Slot
  | [] => []
  | x :: xs => g x :: xs

/-- R71, R84: a change to the slot of the call that owns the escrow: the closing slot, else the oldest record being
closed at start-up, else the open slot. An escrow found at a start that has no record to close belongs to no record. -/
def modifyOwnerSlot (g : Slot → Slot) (s : State) : State :=
  match s.call.closingSlot with
  | some sl => { s with call := { s.call with closingSlot := some (g sl) } }
  | none =>
    match s.call.atStart with
    | [] => if escrowElsewhere s then s else setOpen (s.call.openSlot.map g) s
    | l => { s with call := { s.call with atStart := modifyHead g l } }

/-- A change to the record of the call that owns the escrow. -/
def modifyOwner (f : CallRecord → CallRecord) (s : State) : State := modifyOwnerSlot (Slot.modify f) s

/-! ### Strokes (R73) -/

/-- A request for a stroke of the head entry is not refused. -/
def canStroke (s : State) : Bool :=
  decide (s.coin.mover = .idle) && decide (s.coin.order = .inOrder) && !s.coin.escrow.isEmpty

/-- R74: stroke numbers 1..255, with 1 following 255. -/
def nextStroke (n : Nat) : Nat := if 255 ≤ n then 1 else n + 1

def moverOf : Stroke → Mover
  | .collect => .collecting
  | .refund => .refunding

def markMoving (k : Stroke) (no : Nat) : List EscrowEntry → List EscrowEntry
  | [] => []
  | e :: es => { e with moving := some (k, no) } :: es

/-- R73, R74: the head is marked MOVING, the mover energised and the exit timer started; a COLLECT raises the stroke
number. -/
def beginStroke (k : Stroke) (s : State) : State :=
  let no := match k with
    | .collect => nextStroke s.coin.strokeNo
    | .refund => s.coin.strokeNo
  { s with coin := { s.coin with
      escrow := markMoving k no s.coin.escrow
      strokeNo := no
      mover := moverOf k
      exitTimer := s.after exitMs
      blind := false } }

/-- R81, R85: a blind stroke. -/
def beginBlind (k : Stroke) (s : State) : State :=
  { s with coin := { s.coin with mover := moverOf k, exitTimer := s.after exitMs, blind := true } }

/-- The mover comes to rest. -/
def restMover (s : State) : State :=
  { s with coin := { s.coin with mover := .idle, exitTimer := none, blind := false } }

/-- The head entry leaves the list. -/
def dropHead (s : State) : State :=
  { s with coin := { s.coin with escrow := s.coin.escrow.tail, gone := s.coin.gone + 1 } }

/-- Every entry leaves the list. -/
def emptyList (s : State) : State := { s with coin := { s.coin with escrow := [], gone := enteredCoins s.coin } }

/-- R81, R136: why a blind stroke is refused. -/
def blindRefusal (k : Stroke) (s : State) : Option Result :=
  if s.coin.mover ≠ .idle then some .busy
  else if s.coin.order = .outOfOrder then some .state
  else if k = .collect ∧ vaultAtCapacity s then some .full
  else none

/-! ### The refund run (R77), stranding (R78) and the purge (R85) -/

def CoinSum.add (a b : CoinSum) : CoinSum := ⟨a.coins + b.coins, a.value + b.value⟩

/-- R78: the stranded tally saturates at 255 coins and value 65535. -/
def CoinSum.addCapped (a b : CoinSum) : CoinSum := ⟨min 255 (a.coins + b.coins), min 65535 (a.value + b.value)⟩

/-- R78: every entry still in the list moves to the stranded tally at one instant, and its value and count are counted as
stranded in the record that owns the escrow, unless it has counted them already (notes/assumptions 97). -/
def strand (s : State) : State :=
  match s.coin.escrow with
  | [] => s
  | l =>
    let e := escrowSum l
    let s1 := emptyList (modifyOwner (fun r => { r with stranded := r.stranded.add (uncountedSum l) }) s)
    postCoin (.stranded e)
      (vaultRefresh { s1 with coin := { s1.coin with
        strandedTally := s1.coin.strandedTally.addCapped e
        tally := { s1.coin.tally with stranded := s1.coin.tally.stranded.add e } } })

/-- R77: the run ends, and its end is reported to CALL; a run of start-up with no record to close reports to nobody. -/
def endRun (s : State) : State :=
  let wanted := decide (s.coin.run = .callEnd) || !s.call.atStart.isEmpty
  { s with coin := { s.coin with
      run := .none, report := wanted } }

/-- R77 steps 1 to 5 as they stand now; with the list already empty the run ends at once, whatever the mover does. -/
def runStep (s : State) : State :=
  match s.coin.run with
  | .callEnd | .startUp =>
    if s.coin.order = .outOfOrder then endRun (strand s)
    else if s.coin.escrow.isEmpty then endRun s
    else if s.coin.mover ≠ .idle then s
    else beginStroke .refund s
  | .none | .purge => s

/-- R77, R84: a refund run starts, its tallies at 0. -/
def startRun (r : RefundRun) (s : State) : State :=
  runStep { s with coin := { s.coin with run := r, tally := {}, report := false } }

/-- R72, R75: the escrow becomes OUT_OF_ORDER, and ESCROW_JAM is raised. -/
def escrowFails (s : State) : State :=
  countOccurrence .escrowJam { s with coin := { s.coin with order := .outOfOrder } }

/-- R85: a purge begins with its first blind REFUND stroke. -/
def startPurge (s : State) : State :=
  beginBlind .refund { s with coin := { s.coin with
    run := .purge, tally := {}, report := false, purgeStrokes := 1, purgeCount := some 0 } }

/-- R85: the purge ends: the mover is IDLE, the refund run NONE, the list empty. -/
def endPurge (s : State) : State :=
  endRun (restMover (emptyList s))

/-! ### What becomes of a stroked coin (R74, R75) -/

/-- R77: one coin's value. -/
def oneCoin (v : Nat) : CoinSum := ⟨1, v⟩

/-- R74: a REFUND of the head is confirmed: the coin counts as refunded in the run, and at the same instant in the owner's
record, which R2 has written as it changes; R77 has CALL copy the run's values at its end (DESIGN CHOICE,
notes/assumptions 18). A coin that the record has counted already is not counted again (97). -/
def refundHead (e : EscrowEntry) (s : State) : State :=
  let s1 := modifyOwner (fun r => { r with refunded := r.refunded.add (uncountedSum [e]) }) (dropHead (restMover s))
  postCoin (.refunded (some (e.denom, e.value)))
    (vaultRefresh { s1 with coin := { s1.coin with
      tally := { s1.coin.tally with refunded := s1.coin.tally.refunded.add (oneCoin e.value) } } })

/-- R75: the head is jammed: the coin counts as jammed in the owner's record (and in the run, for a REFUND), as `refundHead`
counts one refunded. The vault load
falls with step 1, so a VAULT_FULL that it ends (R126) is told before the ESCROW_JAM of step 3 (DEDUCED,
notes/assumptions 94). -/
def jamHead (e : EscrowEntry) (k : Stroke) (s : State) : State :=
  let s1 := modifyOwner (fun r => { r with jammed := r.jammed.add (uncountedSum [e]) }) (dropHead (restMover s))
  let t := s1.coin.tally
  postCoin (.jammed (some (e.denom, e.value)) k)
    (escrowFails (vaultRefresh { s1 with coin := { s1.coin with
      tally := if k = .refund then { t with jammed := t.jammed.add (oneCoin e.value) } else t } }))

/-- R74 step 2, R125: VAULT counts a coin of a denomination, and keeps its stroke number. -/
def vaultCounts (denom value stroke : Nat) (s : State) : State :=
  let s1 := setCounters (s.vault.counters.coin denom value) s
  { s1 with vault := { s1.vault with lastStroke := some stroke } }

/-- R74 steps 1 and 2: the head leaves the list and VAULT counts the coin. -/
def collectHead (e : EscrowEntry) (stroke : Nat) (s : State) : State :=
  postVault (vaultRefresh (vaultCounts e.denom e.value stroke (dropHead (restMover s))))

/-! ### Chute reversal (R80) -/

/-- R80: the entry lies no more than 2 s before the pulse. -/
def recentCoin (now : Nat) : Option Nat → Bool
  | some t => decide (now - t ≤ suspectMs)
  | none => false

def markEntry (now : Nat) (e : EscrowEntry) : EscrowEntry :=
  if recentCoin now e.entryAt then { e with suspect := true } else e

/-- R80: recent entries and a recent coin in transit are marked suspect; a mark newly set in the escrow sets
SUSPECT_COIN in its owner's record. -/
def markRecent (s : State) : State :=
  let marked := s.coin.escrow.map (markEntry s.now)
  let s1 := { s with coin := { s.coin with
      escrow := marked
      transit := s.coin.transit.map (fun t =>
        if recentCoin s.now (some t.acceptAt) then { t with suspect := true } else t) } }
  if marked = s.coin.escrow then s1
  else modifyOwner (fun r => { r with flags := { r.flags with suspectCoin := true } }) s1

end Sys2Proof.Machine
end

