-- ==== Sys2Proof/Machine/Rate.lean ====
section
/-! DEFINITION. RATE: the account (R86), charge steps (R90), settlement (R91 to R95), periods (R97 to R100), meter
pulses and fallback (R101 to R103), held steps (R96), and closing (R105 to R107). -/

namespace Sys2Proof.Machine

/-! ### The account (R86) -/

/-- A step's amount joins due (R90). -/
def Account.charge (a : Account) (v : Nat) : Account := { a with due := a.due + v }

/-- R92: a collected coin of value `v`. -/
def Account.credit (a : Account) (v : Nat) : Account :=
  { a with collected := a.collected + v, unused := a.unused + v, last := some v }

/-- R91 test 1: the whole of due moves into H. -/
def Account.settle (a : Account) : Account :=
  { a with charged := a.charged + a.due, unused := a.unused - a.due, due := 0 }

/-- R105 step 4. -/
def Account.close (a : Account) : Account :=
  if a.due ≤ a.unused then { a.settle with unsettled := 0 } else { a with unsettled := a.due }

def setAcct (a : Account) (s : State) : State := { s with rate := { s.rate with acct := a } }

def charge (v : Nat) (s : State) : State := setAcct (s.rate.acct.charge v) s

/-! ### Phases and what CALL makes of them (R88, R6, R21) -/

/-- R6: a WARNING is sounded, and the next is due in 5 s. -/
def soundWarning (s : State) : State :=
  { s with call := { s.call with lastWarning := some s.now, warningTimer := s.after warningMs } }

def stopWarning (s : State) : State := { s with call := { s.call with warningTimer := none } }

/-- R21: a held press is cleared when the phase becomes GRACE. -/
def clearHeld (s : State) : State := { s with call := { s.call with heldFollowOn := false } }

/-- What CALL does at a change of phase. -/
def tellPhase (p : Phase) (s : State) : State :=
  match p with
  | .warning => soundWarning s
  | .grace => clearHeld (soundWarning s)
  | .inactive | .settling | .running | .ended => stopWarning s

/-- R88: a change of phase is told to CALL; a phase left as it is, is not. -/
def setPhase (p : Phase) (s : State) : State :=
  if s.rate.phase = p then s else tellPhase p { s with rate := { s.rate with phase := p } }

/-! ### Settlement -/

/-- What settlement asks of CALL. -/
inductive Verdict where
  | nothing
  | settled
  | escrowFault
  | graceExpired
deriving DecidableEq, Repr

/-- R93: the warning test. -/
def warningTest (s : State) : State :=
  setPhase (if s.rate.acct.unused + callE s < s.rate.step then .warning else .running) s

/-- R91 test 1 and R93. -/
def completeSettlement (s : State) : State :=
  warningTest { s with rate := { s.rate with
    acct := s.rate.acct.settle, graceTimer := none, graceExpired := false } }

/-- R91 test 2: a COLLECT stroke requested by RATE is in flight (a blind stroke is the host's). -/
def collectInFlight (s : State) : Bool := decide (s.coin.mover = .collecting) && !s.coin.blind

/-- R91 test 6, R94, R95. -/
def enterGrace (s : State) : State × Verdict :=
  if s.rate.graceExpired then (s, .graceExpired)
  else
    (setPhase .grace { s with rate := { s.rate with
      graceTimer := match s.rate.graceTimer with
        | some d => some d
        | none => s.after graceMs } }, .nothing)

/-- R91: the tests in order. -/
def settle (s : State) : State × Verdict :=
  if s.rate.acct.due ≤ s.rate.acct.unused then (completeSettlement s, .settled)
  else if collectInFlight s then (setPhase .settling s, .nothing)
  else if !escrowElsewhere s && canStroke s then (setPhase .settling (beginStroke .collect s), .nothing)
  else if s.coin.transit.isSome then (setPhase .settling s, .nothing)
  else if s.coin.order = .outOfOrder then (s, .escrowFault)
  else enterGrace s

/-- RATE rates a call: an account is open and CALL has not told RATE the end. -/
def rating (s : State) : Bool :=
  !s.rate.closing &&
    (match s.rate.phase with
     | .settling | .running | .warning | .grace => true
     | .inactive | .ended => false)

/-- R91: settlement runs whenever due is greater than 0 and the phase is not ENDED. -/
def settleDue (s : State) : State × Verdict :=
  if rating s && decide (0 < s.rate.acct.due) then settle s else (s, .nothing)

/-- R92, R93, R94: what the outcome of a coin in entry transit does: settlement while due is greater than 0, the
warning test in RUNNING and WARNING. -/
def coinOutcome (s : State) : State × Verdict :=
  if rating s then
    if 0 < s.rate.acct.due then settle s else (warningTest s, .nothing)
  else (s, .nothing)

/-! ### Periods (R97 to R99) -/

/-- R98, R99: the limits; the duration used, the remainder, and whether the period is clamped. -/
def clampPeriod (d remainder : Nat) : Nat × Nat × Bool :=
  if d < 5 then (5, 0, true) else if 36000 < d then (36000, 0, true) else (d, remainder, false)

/-- R98. -/
def periodOf (step rate carried : Nat) : Nat × Nat × Bool :=
  let n := 600 * step + carried
  clampPeriod (n / rate) (n - n / rate * rate)

/-- R99: the duration of a zero-rate period. -/
def zeroPeriod (c : BankContents) : Option Time → Nat × Nat × Bool
  | some t => clampPeriod (tenthsToSwitch c t) 0
  | none => (36000, 0, true)

/-- The rate of the call's class in a band, read from the call's bank (R97 step 2). -/
def rateIn (s : State) (n : BankName) (cls band : Nat) : Nat :=
  match priceIn s n cls with
  | some p => p.rates.getD band 0
  | none => 0

/-- R97 step 3: the carried remainder. -/
def carriedRemainder (prev : Option Period) (band : Nat) : Nat :=
  match prev with
  | none => 0
  | some p => if p.band = band then p.remainder else 0

/-- R97 step 3: the band differs from the predecessor's. -/
def bandDiffers (prev : Option Period) (band : Nat) : Bool :=
  match prev with
  | none => false
  | some p => decide (p.band ≠ band)

/-- R96: RATE holds steps back while an absence of loop current is being timed. -/
def holdsSteps (s : State) : Bool := s.line.absentSince.isSome

def heldAmount (l : List HeldStep) : Nat := (l.map HeldStep.amount).sum

/-- How many of these steps raise the periods started (R90). -/
def periodSteps (l : List HeldStep) : Nat := (l.filter HeldStep.period).length

/-- R90: these steps are taken, in order: their amounts join due, and each step of a period counts it as started. -/
def takeSteps (l : List HeldStep) (s : State) : State :=
  charge (heldAmount l) { s with rate := { s.rate with periods := s.rate.periods + periodSteps l } }

/-- R90, R96: a step is taken, or held back. -/
def takeOrHold (h : HeldStep) (s : State) : State :=
  if holdsSteps s then { s with rate := { s.rate with held := s.rate.held ++ [h] } } else takeSteps [h] s

/-- R97: a period starts at the instant `t`. -/
def startPeriod (prev : Option Period) (t : Nat) (s : State) : State :=
  match s.rate.bank, s.rate.cls with
  | some n, some cls =>
    let b := resolveBand s n
    let r := rateIn s n cls b.1
    let d :=
      if r = 0 then zeroPeriod (s.bank.get n).contents s.store.clock
      else periodOf s.rate.step r (carriedRemainder prev b.1)
    let f := s.rate.flags
    takeOrHold ⟨t, if r = 0 then 0 else s.rate.step, true⟩
      { s with rate := { s.rate with
        band := some b.1
        rate := r
        period := some ⟨b.1, r, d.2.1, t, t + d.1 * 100⟩
        flags := { f with
          clockUnset := f.clockUnset || b.2
          bandChanged := f.bandChanged || bandDiffers prev b.1
          periodClamped := f.periodClamped || d.2.2 } } }
  | _, _ => { s with rate := { s.rate with period := none } }

/-- R91, R96: settlement runs at a step taken; at one held back it does not, and a due already waiting goes on waiting
for its own outcome. -/
def settleStep (s : State) : State × Verdict := if holdsSteps s then (s, .nothing) else settleDue s

/-! ### Answer (R89) -/

/-- R102: the supervision limit in tenths, 0 for none. -/
def supervisionLimit (step rate : Nat) : Nat :=
  if rate = 0 then 0 else 2 * (clampPeriod (600 * step / rate) 0).1 + 50

/-- R102: the supervision timer is armed at G; with no supervision it is not. -/
def armSupervision (s : State) : State :=
  { s with rate := { s.rate with
      superTimer := if s.rate.limit = 0 then none else s.after (s.rate.limit * 100) } }

/-- R102: at answer in METER. -/
def beginSupervision (n : BankName) (cls : Nat) (s : State) : State :=
  let b := resolveBand s n
  let f := s.rate.flags
  armSupervision { s with rate := { s.rate with
    band := some b.1
    rate := rateIn s n cls b.1
    limit := supervisionLimit s.rate.step (rateIn s n cls b.1)
    flags := { f with clockUnset := f.clockUnset || b.2 } } }

/-- R89 step 3. -/
def answerMode (s : State) (byPulse : Bool) : ConfigMode := if byPulse then .meter else s.config.ratingMode

def ratingModeOf : ConfigMode → RatingMode
  | .localTiming => .localTiming
  | .meter => .meter

/-- R89 steps 1 to 3, and the initial charge of step 4. The initial charge is a step whose instant is the answer (R90): while
an absence of loop current is being timed it is held, and a loss, whose end instant lies before it, discards it (R14, R96;
what RATE's phase is meanwhile is the model's choice, notes/assumptions 62). -/
def openAccount (cls : Nat) (n : BankName) (p : Price) (carried : Nat) (byPulse : Bool) (s : State) : State :=
  let m := answerMode s byPulse
  takeOrHold ⟨s.now, p.initial, false⟩ (setInUse n true { s with rate := { RateBlock.inactive with
    phase := .settling
    acct := { carried := carried, unused := carried }
    cls := some cls
    bank := some n
    initial := p.initial
    rates := p.rates
    step := s.config.chargeStep
    mode := some (ratingModeOf m)
    fixedMode := m
    answerAt := s.now } })

/-- R101 in METER at answer: the answering pulse is the call's first. -/
def firstPulse (byPulse long : Bool) (s : State) : State :=
  if byPulse then
    charge s.rate.step { s with rate := { s.rate with
      pulses := 1, flags := { s.rate.flags with longPulse := long } } }
  else s

/-- R89: the account starts at the instant of answer, and settlement runs once on what is due. -/
def startAccount (cls : Nat) (n : BankName) (p : Price) (carried : Nat) (byPulse long : Bool) (s : State) :
    State × Verdict :=
  let s1 := openAccount cls n p carried byPulse s
  match answerMode s byPulse with
  | .localTiming => settle (startPeriod none s.now s1)
  | .meter => settle (firstPulse byPulse long (beginSupervision n cls s1))

/-! ### Pulses (R101, R103) -/

def countPulse (long : Bool) (s : State) : State :=
  { s with rate := { s.rate with
      pulses := s.rate.pulses + 1
      flags := { s.rate.flags with longPulse := s.rate.flags.longPulse || long } } }

/-- R103: the running period is cancelled and the mode returns to METER. -/
def absorbPulse (s : State) : State :=
  armSupervision { s with rate := { s.rate with period := none, mode := some .meter } }

/-- R101. -/
def takePulse (long : Bool) (s : State) : State × Verdict :=
  if rating s then
    let s1 := countPulse long s
    match s.rate.mode with
    | some .meter => settleDue (armSupervision (charge s.rate.step s1))
    | some .meterFallback => (absorbPulse s1, .nothing)
    | some .localTiming | none => (s1, .nothing)
  else (s, .nothing)

/-- R102: the supervision timer expires in METER at the instant `t`. -/
def fallBack (t : Nat) (s : State) : State × Verdict :=
  settleStep (startPeriod none t { s with rate := { s.rate with
    mode := some .meterFallback
    superTimer := none
    fallbackUsed := true
    flags := { s.rate.flags with pulseFallback := true } } })

/-- R92: a confirmed COLLECT stroke of value `v` is credited, and its stroke number kept beside the account (R74). -/
def creditCollected (v stroke : Nat) (s : State) : State × Verdict :=
  match s.rate.phase with
  | .inactive | .ended => (s, .nothing)
  | _ =>
    let s1 := setAcct (s.rate.acct.credit v) s
    settleDue { s1 with call := { s1.call with lastCredited := some stroke } }

/-! ### Held steps (R96) -/

def clearSteps (s : State) : State := { s with rate := { s.rate with held := [] } }

/-- R96: the absence is discarded by the return of current. -/
def takeHeld (s : State) : State × Verdict :=
  match s.rate.held with
  | [] => (s, .nothing)
  | l => settleDue (takeSteps l (clearSteps s))

/-! ### Closing (R105, R106) -/

/-- R105 step 5: the phase becomes ENDED, and the bank is released (R120). -/
def accountEnded (s : State) : State :=
  let s1 := { setPhase .ended s with rate := { s.rate with
      acct := s.rate.acct.close, phase := .ended, closing := false } }
  match s1.rate.bank with
  | some n => clearInUse n s1
  | none => s1

/-- R105 steps 1 and 2. -/
def beginClose (endInstant : Nat) (s : State) : State :=
  let l := s.rate.held.filter (fun h => decide (h.time ≤ endInstant))
  takeSteps l { s with rate := { s.rate with
    graceTimer := none, graceExpired := false, period := none, superTimer := none, held := [], closing := true } }

/-- R105 step 3: the close goes on unless a COLLECT stroke is in flight. -/
def tryClose (s : State) : State :=
  if s.rate.closing && !collectInFlight s then accountEnded s else s

/-- R105, R19: the closed account gives the record its fields. -/
def copyAccount (a : SavedAccount) (r : CallRecord) : CallRecord :=
  { r with
    collected := a.acct.collected
    charged := a.acct.charged
    unsettled := a.acct.unsettled
    initial := a.initial
    periods := a.periods
    pulses := a.pulses
    mode := a.fixedMode
    fallbackUsed := a.fallbackUsed
    flags := { r.flags with
      clockUnset := r.flags.clockUnset || a.flags.clockUnset
      periodClamped := r.flags.periodClamped || a.flags.periodClamped
      bandChanged := r.flags.bandChanged || a.flags.bandChanged
      pulseFallback := r.flags.pulseFallback || a.flags.pulseFallback
      longPulse := r.flags.longPulse || a.flags.longPulse } }

/-- When CALL has copied the account, RATE becomes INACTIVE (R105). -/
def rateInactive (s : State) : State := { s with rate := RateBlock.inactive }

/-- CALL copies the closed account into the open record. -/
def copyClosed (s : State) : State :=
  match savedAccount s.rate with
  | some a => rateInactive (modifyOpen (copyAccount a) s)
  | none => s

/-- R106: the account is closed at a follow-on end: due is 0. -/
def closeForFollowOn (s : State) : State :=
  accountEnded { s with rate := { s.rate with
    graceTimer := none, graceExpired := false, period := none, superTimer := none, held := [] } }

/-! ### A retained account at a start (R107) -/

/-- R107: a coin found MOVING in a COLLECT stroke is credited unless the account already holds it. -/
def SavedAccount.atStart (moved : Option (Nat × Nat)) (lastCredited : Option Nat) (a : SavedAccount) : SavedAccount :=
  let acct := match moved with
    | some (value, stroke) => if lastCredited = some stroke then a.acct else a.acct.credit value
    | none => a.acct
  { a with acct := acct.close }

end Sys2Proof.Machine
end

