-- ==== Sys2Proof/Machine/Report.lean ====
section
/-! DEFINITION. RPT: the attempt (R158 to R164), its three ends (R164, R165, R167), the backoff wait (R165, R166),
the urgent hold (R168), the block list and the block string (R161, R162), and the REPORT notice (R170). -/

namespace Sys2Proof.Machine

/-! ### The report block (R162) -/

/-- A decimal digit as a DTMF symbol. -/
def digitSymbol (n : Nat) : Dtmf := .digit ⟨n % 10, Nat.mod_lt n (by decide)⟩

/-- A number in two decimal digits. -/
def twoDigits (n : Nat) : List Dtmf := [digitSymbol (n / 10), digitSymbol n]

/-- A number in three decimal digits. -/
def threeDigits (n : Nat) : List Dtmf := [digitSymbol (n / 100), digitSymbol (n / 10), digitSymbol n]

/-- `hhmm`, or `****` when absent. -/
def timeSymbols : Option Time → List Dtmf
  | some t => twoDigits (hourMinute t).1 ++ twoDigits (hourMinute t).2
  | none => [.star, .star, .star, .star]

/-- Symbols 2 to 25. -/
def blockBody (b : ReportBlock) : List Dtmf :=
  b.terminal.map Symbol.dtmf ++ [digitSymbol (if 9 < b.position then 0 else b.position)]
    ++ twoDigits b.kind.number ++ [digitSymbol (severityOf b.kind).digit, digitSymbol (if b.active then 1 else 0)]
    ++ threeDigits b.count ++ timeSymbols b.first ++ timeSymbols b.last

/-- The value a symbol counts in the check digit. -/
def checkValue : Dtmf → Nat
  | .digit d => d.val
  | _ => 0

def checkDigit (l : List Dtmf) : Nat := (l.map checkValue).sum % 10

/-- R162: the 27 symbols. -/
def blockString (b : ReportBlock) : List Dtmf :=
  .a :: blockBody b ++ [digitSymbol (checkDigit (blockBody b)), .hash]

/-! ### The block list (R161) -/

/-- The blocks of copies, from position `i`. -/
def blocksFrom (terminal : List Symbol) : Nat → List Incident → List ReportBlock
  | _, [] => []
  | i, e :: es => ⟨terminal, i, e.kind, e.active, e.count, e.first, e.last⟩ :: blocksFrom terminal (i + 1) es

def blockList (s : State) : List ReportBlock := blocksFrom s.rpt.terminal 1 (wantedEntries s)

def setRpt (r : RptBlock) (s : State) : State := { s with rpt := r }

/-- The block in hand, if any is left. -/
def blockInHand (r : RptBlock) : Option ReportBlock :=
  match r.blocks with
  | some l => l[r.index]?
  | none => none

/-! ### The REPORT notice (R170) -/

/-- The outcomes, in order. -/
inductive ReportOutcome where
  | completed
  | failed (f : ReportFailure)
  | aborted (c : AbortCause)
deriving DecidableEq, Repr

/-- R170: the outcome, and the failure or the abort cause in one byte, hex FF for neither (DESIGN CHOICE,
notes/assumptions 81). -/
def ReportOutcome.bytes : ReportOutcome → List Byte
  | .completed => le1 0 ++ optByte none
  | .failed f => le1 1 ++ optByte (some f.code)
  | .aborted c => le1 2 ++ optByte (some c.code)

/-- What an attempt had reached: blocks in its list, blocks acknowledged, and the kind of the block in hand. -/
structure Reached where
  blocks : Option Nat
  acked : Nat
  kind : Option Nat
deriving DecidableEq, Repr

def reached (r : RptBlock) (o : ReportOutcome) : Reached where
  blocks := r.blocks.map List.length
  acked := if r.blocks.isSome then r.index else 0
  kind := if o = .failed .noAck then (blockInHand r).map (fun b => b.kind.number) else none

/-- R170: the items of a REPORT notice; an incident kind is sent as its number 1..12 (DESIGN CHOICE, notes/assumptions 12). -/
def postReport (o : ReportOutcome) (p : Reached) (s : State) : State :=
  post .report
    (o.bytes ++ optItem (p.blocks.map le1) ++ le1 p.acked ++ optByte p.kind ++ le1 s.rpt.failures
      ++ le1 s.rpt.urgentFailures ++ le2 (remainingSeconds s)) s

/-! ### The ends of an attempt -/

/-- R164, R165, R167: RPT stops its timers, the line is released, and the block list is discarded. -/
def leaveAttempt (s : State) : State :=
  let s1 := release s
  { s1 with rpt := { s1.rpt with
      readyTimer := none, ackTimer := none, closeTimer := none, blocks := none, index := 0, sends := 0 } }

/-- R164, R167: R_READY_TO_START if a report is wanted, and R_IDLE otherwise. -/
def restState (s : State) : State :=
  { s with rpt := { s.rpt with state := if reportWanted s then .readyToStart else .idle } }

/-- R164: the attempt completes. -/
def completeAttempt (s : State) : State :=
  let s1 := leaveAttempt s
  postReport .completed (reached s.rpt .completed)
    (restState { s1 with rpt := { s1.rpt with
      failures := 0, urgentFailures := 0, backoffTimer := none, minuteTimer := none, savedWait := 0 } })

/-- R165: the backoff wait of a failure count, in ms. -/
def backoffMs (failures : Nat) : Nat :=
  if failures ≤ 1 then 120000 else if failures = 2 then 300000 else if failures = 3 then 900000 else 3600000

/-- R165, R166: the wait starts, and is written. -/
def startWait (ms : Nat) (s : State) : State :=
  { s with rpt := { s.rpt with
      state := .wait, backoffTimer := s.after ms, minuteTimer := s.after 60000, savedWait := ms / 100 } }

/-- R165: the attempt fails. -/
def failAttempt (f : ReportFailure) (s : State) : State :=
  let s1 := leaveAttempt s
  let n := min 255 (s1.rpt.failures + 1)
  postReport (.failed f) (reached s.rpt (.failed f))
    (startWait (backoffMs n) { s1 with rpt := { s1.rpt with
      failures := n, urgentFailures := min 3 (s1.rpt.urgentFailures + 1) } })

/-- R167: the attempt is aborted; with no attempt in progress, nothing. -/
def abortAttempt (c : AbortCause) (s : State) : State :=
  if attempting s.rpt.state then
    postReport (.aborted c) (reached s.rpt (.aborted c)) (restState (leaveAttempt s))
  else s

/-- R156, R166: a wait ends. -/
def endWait (s : State) : State :=
  restState { s with rpt := { s.rpt with backoffTimer := none, minuteTimer := none, savedWait := 0 } }

/-! ### Urgent occurrences (R166, R168) -/

/-- R166: a remaining wait longer than 2 min is set to 2 min. -/
def shortenWait (s : State) : State :=
  if s.rpt.state = .wait ∧ 120000 < remainingWait s then
    { s with rpt := { s.rpt with backoffTimer := s.after 120000, savedWait := 1200 } }
  else s

/-- R166, R168: an urgent occurrence is handed to RPT. -/
def urgentToReport (s : State) : State :=
  shortenWait { s with rpt := { s.rpt with urgentFailures := 0 } }

/-! ### The attempt -/

/-- R157: the idle guard is complete. -/
def guardComplete (s : State) : Bool :=
  match s.rpt.quietSince with
  | some t => quiet s && decide (guardRequired s ≤ s.now - t)
  | none => false

/-- R158: the four conditions, in R_READY_TO_START. -/
def mayStart (s : State) : Bool :=
  decide (s.rpt.state = .readyToStart) && reportWanted s && guardComplete s
    && decide (s.line.state = .free) && decide (s.line.owner = .none) && decide (s.line.watch = .present)
    && decide (s.vault.service = .normal)

/-- R158: the attempt starts. -/
def startAttempt (s : State) : State :=
  match requestSeizure .rpt (s.config.centreNumber.map Symbol.dtmf) s with
  | (s1, .seized) =>
    { s1 with rpt := { s1.rpt with
        state := .seize, terminal := s.config.terminalId, number := s.config.centreNumber,
        blocks := none, index := 0, sends := 0 } }
  | (s1, _) => { s1 with rpt := { s1.rpt with quietSince := none } }

/-- R163, R164: the block in hand is sent for the `n`th time, or D when no block is left. -/
def sendInHand (n : Nat) (s : State) : State :=
  match blockInHand s.rpt with
  | some b =>
    sendInBand (blockString b) { s with rpt := { s.rpt with state := .send, sends := n } }
  | none => sendInBand [.d] { s with rpt := { s.rpt with state := .send, sends := 0 } }

/-- R160, R161: READY fixes the block list. -/
def takeReady (s : State) : State :=
  sendInHand 1 { s with
    rpt := { s.rpt with readyTimer := none, blocks := some (blockList s), index := 0 } }

/-- R163: ACK: the entry is acknowledged, and the next block or D is sent. -/
def takeAck (s : State) : State :=
  match blockInHand s.rpt with
  | some b =>
    let s1 := acknowledge b.kind b.count { s with rpt := { s.rpt with ackTimer := none } }
    sendInHand 1 { s1 with rpt := { s1.rpt with index := s1.rpt.index + 1 } }
  | none => s

/-- R163: a send has failed. -/
def sendFailed (s : State) : State :=
  let s1 := { s with rpt := { s.rpt with ackTimer := none } }
  if s1.rpt.sends < 3 then sendInHand (s1.rpt.sends + 1) s1 else failAttempt .noAck s1

/-- R163, R164: LINE has delivered send complete. -/
def sendDone (s : State) : State :=
  match blockInHand s.rpt with
  | some _ => { s with rpt := { s.rpt with state := .awaitAck, ackTimer := s.after ackMs } }
  | none => { s with rpt := { s.rpt with state := .close, closeTimer := s.after closeMs } }

/-- R159, R160, R163 to R165: loss of loop current in an attempt. -/
def reportLineLost (s : State) : State :=
  match s.rpt.state with
  | .close => completeAttempt s
  | _ => failAttempt .lineLost s

/-- R164: "loss of loop current after D has been sent" — while D itself is being sent the state is R_SEND, and the
loss is failure LINE_LOST (R163). -/
def reportCadence (c : Cadence) (s : State) : State :=
  match s.rpt.state, c with
  | .awaitReady, .ready => takeReady s
  | .awaitAck, .ack => takeAck s
  | .awaitAck, .again => sendFailed s
  | .close, .bye => completeAttempt s
  | _, _ => s

end Sys2Proof.Machine
end

