-- ==== Sys2Proof/Machine/Call.lean ====
section
/-! DEFINITION. CALL: states and their notices (R1, R6), the log (R174, R175, R17), beginning a call (R8), ending one
(R16 to R18), completion, deposit and the line request (R5, R9 to R11), answer (R13), FOLLOW-ON (R21 to R23), urgent
incidents (R15, R148), and KEYS' answers to CALL's collection requests (R29). -/

namespace Sys2Proof.Machine

/-! ### CALL states and the earpiece -/

/-- R6: the tone selected at the entry to a state. -/
def stateTone (h : Hook) : CallState → Tone
  | .idle | .waitLine | .seizing | .sending | .followOnClearing => .silent
  | .collecting => .ready
  | .awaitDeposit => .deposit
  | .ringing | .connected => .line
  | .clearing => if h = .offHook then .reject else .silent
  | .abandoned => .reject

/-- R1: the new state, the service level and the number kind of the current call. -/
def callStateNotice (s : State) : List Byte :=
  le1 s.call.state.code ++ optByte (s.call.level.map ServiceLevel.code) ++ le1 (openKind s).code

/-- R1: the level is not held between calls. -/
def levelIn (st : CallState) (l : Option ServiceLevel) : Option ServiceLevel := if callExists st then l else none

/-- R1, R6: CALL enters a state, and a CALL_STATE notice is posted. A tone's pattern begins at the entry that selects it
(DEDUCED, notes/assumptions 46). -/
def setCallState (st : CallState) (s : State) : State :=
  let s1 := { s with call := { s.call with
    state := st, level := levelIn st s.call.level, earpiece := stateTone s.keys.hook st, toneSince := s.now } }
  post .callState (callStateNotice s1) s1

def postHook (s : State) : State := post .hook (le1 s.keys.hook.code) s

/-! ### KEYS' collection requests (R29) -/

/-- The clear request. -/
def keysClear (s : State) : State :=
  { s with keys := { s.keys with
      collection := .inactive, buffer := [], best := none, firstDigitTimer := none, interDigitTimer := none } }

/-- The start request. -/
def keysStart (s : State) : State :=
  { s with keys := { s.keys with collection := .awaitFirst, firstDigitTimer := s.after firstDigitMs } }

/-- The stop request, and an outcome's effect. -/
def keysStop (s : State) : State :=
  { s with keys := { s.keys with collection := .done, firstDigitTimer := none, interDigitTimer := none } }

/-! ### The call log (R174, R175) -/

/-- The next sequence number: 1 follows 4294967295 (R174). -/
def nextSeq (n : Nat) : Nat := if 4294967295 ≤ n then 1 else n + 1

def oldestSeq (l : LogArea) : Nat := (l.records.head?.map CallRecord.seq).getD 0

def newestSeq (l : LogArea) : Nat := (l.records.getLast?.map CallRecord.seq).getD 0

/-- R175: level, h, oldest and newest held, next sequence number, unlogged count. -/
def logNotice (l : LogArea) : List Byte :=
  le1 (logLevel l.records.length).code ++ le1 l.records.length ++ le4 (oldestSeq l) ++ le4 (newestSeq l)
    ++ le4 l.nextSeq ++ le1 l.unlogged

def postLog (s : State) : State := post .log (logNotice s.store.log) s

/-- R175: a change of level posts LOG. -/
def setLog (l : LogArea) (s : State) : State :=
  let s1 := { s with store := { s.store with log := l } }
  if logLevel l.records.length = logLevel s.store.log.records.length then s1 else postLog s1

/-- R193: CALL_END of a stored record. -/
def callEndStored (r : CallRecord) : List Byte :=
  le4 r.seq ++ le1 (causeCode r) ++ le1 r.kind.code ++ le3 r.charged

/-- R193: CALL_END that delivers an unlogged record. -/
def callEndUnlogged (r : CallRecord) : List Byte :=
  let f := linkForm { r with seq := 0 }
  le4 0 ++ le1 f.length ++ f

/-- R174, R17: a complete record is stored with the next sequence number, or delivered unlogged; the answer holds the
number it received. R17 and R175 give the LOG notice of a change of level and the CALL_END notice at one instant and no
order: LOG is posted first (DESIGN CHOICE, notes/assumptions 47). -/
def storeRecord (r : CallRecord) (s : State) : State × Option Nat :=
  let l := s.store.log
  if l.records.length < 64 then
    let r1 := { r with seq := l.nextSeq }
    (post .callEnd (callEndStored r1)
      (setLog { l with records := l.records ++ [r1], nextSeq := nextSeq l.nextSeq } s), some l.nextSeq)
  else
    (post .callEnd (callEndUnlogged r)
      (postLog { s with store := { s.store with log := { l with unlogged := min 255 (l.unlogged + 1) } } }), none)

/-- A slot's record is handed to the log, which keeps the instant its call began (notes/assumptions 45). -/
def storeSlot (sl : Slot) (s : State) : State × Option Nat :=
  let r := storeRecord sl.record s
  ({ r.1 with store := { r.1.store with log := { r.1.store.log with handed := some sl.offAt } } }, r.2)

/-! ### Beginning a call (R8) -/

/-- R8 step 2. -/
def newRecord (s : State) : CallRecord :=
  { offHook := s.store.clock, mode := s.config.ratingMode, flags := { clockUnset := s.store.clock.isNone } }

/-- R8. The record owns the coins that enter the escrow from now on (`Slot.base`, notes/assumptions 97). -/
def beginCall (s : State) : State :=
  let s1 := { s with call := { s.call with
    level := some (serviceLevel s)
    openSlot := some { record := newRecord s, offAt := s.now, base := enteredCoins s.coin }
    refundAsked := false
    replaced := false
    heldFollowOn := false
    aliveTimer := s.after 1000 } }
  setCallState .collecting (postHook (keysStart (keysClear s1)))

/-! ### Leaving CLEARING (R18) and ABANDONED (R20) -/

def enterIdle (s : State) : State :=
  setCallState .idle { s with call := { s.call with
    abandonedTimer := none, rejectTimer := none, aliveTimer := none, warningTimer := none } }

/-- R18 path (b), R1: the abandoned timer starts at the entry. -/
def enterAbandoned (s : State) : State :=
  setCallState .abandoned { s with call := { s.call with
    abandonedTimer := s.after abandonedMs, rejectTimer := s.after rejectMs, aliveTimer := none, warningTimer := none } }

/-- R18 paths (a), (b) and (c). -/
def leaveClearing (s : State) : State :=
  match s.keys.hook with
  | .onHook => enterIdle s
  | .offHook => if s.call.replaced then beginCall s else enterAbandoned s

/-! ### The sequence of R16 -/

/-- R16 step 5, R77, R84: CALL takes the end of a run; the owner's record, which holds the values of each coin, is then
complete. -/
def takeReport (s : State) : State :=
  if s.coin.report then
    modifyOwnerSlot (fun sl => { sl with complete := true }) { s with coin := { s.coin with report := false } }
  else s

/-- Storage of records in order, oldest first (R181). -/
def storeAll : List Slot → State → State
  | [], s => s
  | sl :: rest, s => storeAll rest (storeSlot sl s).1

/-- R181 step 5: when the owner of the escrow has its values, the records found at the start are stored. -/
def storeAtStart (s : State) : State :=
  match s.call.atStart with
  | [] => s
  | sl :: rest =>
    if sl.complete then storeAll (sl :: rest) { s with call := { s.call with atStart := [], restartEnd := none } }
    else s

/-- R17: the record in the closing slot is stored when it is complete, after those of the start. -/
def storeClosing (s : State) : State :=
  match s.call.closingSlot, s.call.atStart with
  | some sl, [] =>
    if sl.complete then (storeSlot sl { s with call := { s.call with closingSlot := none } }).1 else s
  | _, _ => s

/-- R16 step 3: the account is closed as soon as no COLLECT stroke is in flight. -/
def clearAccount (s : State) : State :=
  let s1 := tryClose s
  if s1.rate.phase = .ended then copyClosed s1 else s1

/-- R77: a request while the list is already empty ends at once with all three values 0, also while a purge keeps the
mover busy: the record is complete. -/
def refundNothing (s : State) : State :=
  { s with
    coin := { s.coin with tally := {} }
    call := { s.call with openSlot := s.call.openSlot.map (fun sl => { sl with complete := true }) } }

/-- R16 step 5: CALL asks COIN to refund the escrow, once steps 3 and 4 have ended and the escrow is this record's or, in a
purge, empty (R77). -/
def askRefund (s : State) : State :=
  if s.call.state = .clearing ∧ s.rate.phase = .inactive ∧ s.coin.transit = none ∧ s.call.refundAsked = false then
    let asked := { s with call := { s.call with refundAsked := true } }
    if s.coin.run = .purge ∧ s.coin.escrow = [] then refundNothing asked
    else if escrowElsewhere s = false ∧ s.coin.run = .none then startRun .callEnd asked
    else s
  else s

/-- R17, R18: the record of the call in CLEARING is stored, and CALL leaves CLEARING. -/
def storeOpen (s : State) : State :=
  match s.call.openSlot with
  | none => s
  | some sl =>
    if s.call.state = .clearing ∧ sl.complete = true ∧ s.call.closingSlot = none ∧ s.call.atStart = [] then
      leaveClearing (storeSlot sl (setOpen none s)).1
    else s

/-- What an event that one of the ended calls may be waiting for lets go on: COIN's report, storage of earlier
records, the account's close, the refund, and storage of this record (R16 to R18, R181). -/
def progress (s : State) : State :=
  storeOpen (takeReport (askRefund (clearAccount (storeClosing (storeAtStart (takeReport s))))))

/-! ### Ending a call (R16) -/

/-- R16 step 1: the record's end fields. -/
def endRecord (c : EndCause) (t : Option Time) (elapsed : Nat) (connected : Option Nat) (digits : List Symbol)
    (m : Option ConfigMode) (r : CallRecord) : CallRecord :=
  { r with
    cause := some c
    endTime := t
    elapsed := elapsed
    connected := connected
    digits := digits
    mode := m.getD r.mode
    flags := { r.flags with clockUnset := r.flags.clockUnset || t.isNone } }

/-- The open slot at an end instant. `m` is the configured rating mode where RATE was not started (R19). The connected
duration is the elapsed tenths less the tenths at answer, each rounded down, so it may be one tenth more than the time from
answer to end rounded down (DESIGN CHOICE, notes/assumptions 51); and it is 0 when the end instant, which for LINE_LOST is
the loss instant, lies before the answer (DESIGN CHOICE, notes/assumptions 70). -/
def endSlot (c : EndCause) (t : Option Time) (at_ : Nat) (digits : List Symbol) (m : Option ConfigMode) (sl : Slot) :
    Slot :=
  let elapsed := tenths sl.offAt at_
  { sl with
    ended := true
    record := endRecord c t elapsed (sl.answerElapsed.map (fun a => elapsed - a)) digits m sl.record }

/-- R19: RATE was not started for the call. -/
def unratedMode (s : State) : Option ConfigMode := if s.rate.phase = .inactive then some s.config.ratingMode else none

/-- R16 step 1. -/
def fixEnd (c : EndCause) (at_ : Nat) (s : State) : State :=
  { s with call := { s.call with
      openSlot := s.call.openSlot.map (endSlot c (clockAt s at_) at_ s.keys.buffer (unratedMode s))
      depositTimer := none
      answerTimer := none
      warningTimer := none
      heldFollowOn := false
      replaced := decide (s.keys.hook = .onHook)
      refundAsked := false } }

/-- R16 step 2. -/
def releaseCallLine (s : State) : State := if s.line.owner = .call then release s else s

/-- R16 step 3: CALL tells RATE that the call has ended. -/
def tellRateEnd (at_ : Nat) (s : State) : State := if s.rate.phase = .inactive then s else beginClose at_ s

/-- R16: every call end other than FOLLOW_ON. -/
def endCall (c : EndCause) (at_ : Nat) (s : State) : State :=
  progress (tellRateEnd at_ (releaseCallLine (setCallState .clearing (keysStop (fixEnd c at_ s)))))

/-- The states in which R9 to R14, R22 and R23 let a hook-on or another ending event end the call. -/
def endable : CallState → Bool
  | .collecting | .awaitDeposit | .waitLine | .seizing | .sending | .ringing | .connected | .followOnClearing => true
  | .idle | .clearing | .abandoned => false

/-! ### Completion, deposit and the line request (R5, R9 to R11) -/

/-- R11. -/
def lineRequest (s : State) : State :=
  if s.line.owner = .rpt then setCallState .waitLine (abortAttempt .lineRequest s)
  else
    match requestSeizure .call (s.keys.buffer.map Symbol.dtmf) s with
    | (s1, .seized) => setCallState .seizing s1
    | (s1, .unsendable) => endCall .barred s.now s1
    | (s1, _) => if s.call.state = .waitLine then s1 else setCallState .waitLine s1

/-- R10: the deposit is covered. -/
def depositCovered (s : State) : Bool := decide (s.call.deposit ≤ openCarried s + callE s)

/-- R10: the minimum deposit I + S, read at completion. -/
def minimumDeposit (s : State) : Nat :=
  let initial := match activeBank s, openCls s with
    | some n, some cls => ((priceIn s n cls).map Price.initial).getD 0
    | _, _ => 0
  initial + s.config.chargeStep

/-- R10: the deposit check at completion. -/
def depositCheck (s : State) : State :=
  let s1 := { s with call := { s.call with deposit := minimumDeposit s } }
  if depositCovered s1 then lineRequest s1
  else
    setCallState .awaitDeposit { s1 with call := { s1.call with
      depositTimer := s1.after (s1.config.depositWait * 1000) } }

/-- R10: the check is made again at each coin appended in AWAIT_DEPOSIT. -/
def depositAgain (s : State) : State :=
  if s.call.state = .awaitDeposit ∧ depositCovered s = true then
    lineRequest { s with call := { s.call with depositTimer := none } }
  else s

/-- R5: the check of the number kind against the level, after R9's test of `*` with loop pulses. -/
def checkNumber (k : NumberKind) (level : ServiceLevel) (s : State) : State :=
  if s.config.sendingMethod = .loopPulse ∧ s.keys.buffer.contains .star = true then endCall .barred s.now s
  else if k = .barred then endCall .barred s.now s
  else if honours level k = false then endCall .refused s.now s
  else if k = .charged then depositCheck s
  else lineRequest s

/-- R9, R37: a completed number with its kind and class. -/
def numberComplete (k : NumberKind) (cls : Option Nat) (s : State) : State :=
  if s.call.state = .collecting then
    let level := serviceLevel s
    checkNumber k level
      (modifyOpen (fun r => { r with kind := k, cls := cls })
        { s with call := { s.call with level := some level } })
  else s

/-- R9, R37: a failing outcome, with the kind it carries. -/
def numberFails (c : EndCause) (k : NumberKind) (s : State) : State :=
  if s.call.state = .collecting then endCall c s.now (modifyOpen (fun r => { r with kind := k }) s) else s

/-! ### FOLLOW-ON (R21 to R23) -/

/-- R22 step 6: the new record. -/
def followingRecord (s : State) (t : Option Time) (carried : Nat) (escrow : CoinSum) (follows : Option Nat) :
    CallRecord :=
  { follows := follows, offHook := t, carriedIn := carried, takenOver := escrow, mode := s.config.ratingMode,
    flags := { clockUnset := t.isNone } }

/-- R22. The new record owns the coins in the escrow, which it takes over (`Slot.base`, notes/assumptions 97). -/
def followOnEnd (s : State) : State :=
  match s.call.openSlot with
  | none => s
  | some sl0 =>
    let unused := s.rate.acct.unused
    let escrow := ownEscrow s
    let t := s.store.clock
    let sl := endSlot .followOn t s.now s.keys.buffer none sl0
    let s1 := copyClosed (closeForFollowOn (setOpen (some sl) { s with call := { s.call with
      heldFollowOn := false, warningTimer := none } }))
    let closed := s1.call.openSlot.getD sl
    let r := storeSlot (closed.modify (fun x => { x with carriedOut := unused, passedOn := escrow }))
      (releaseCallLine s1)
    let s2 := setOpen (some { record := followingRecord s t unused escrow r.2, offAt := s.now,
                              base := if escrowElsewhere s then enteredCoins s.coin else s.coin.gone }) r.1
    setCallState .followOnClearing (keysClear { s2 with call := { s2.call with
      aliveTimer := s.after 1000, refundAsked := false, replaced := false } })

/-- R21: the table of conditions at a press. -/
def followOnPress (s : State) : State :=
  if s.call.state = .connected ∧ openKind s = .charged ∧ s.rate.phase ≠ .grace then
    if s.rate.acct.due = 0 then followOnEnd s
    else { s with call := { s.call with heldFollowOn := true } }
  else s

/-- R23: the end of the release guard in FOLLOW_ON_CLEARING. -/
def followOnCollect (s : State) : State :=
  setCallState .collecting (keysStart { s with call := { s.call with level := some (serviceLevel s) } })

/-! ### What CALL makes of settlement (R14, R21) -/

/-- R14, R21, R91, R95: what RATE reports ends the call, or lets a held press take effect. -/
def actVerdict (r : State × Verdict) : State :=
  let s := r.1
  match r.2 with
  | .nothing => s
  | .settled =>
    if s.call.heldFollowOn = true ∧ s.call.state = .connected ∧ s.rate.phase ≠ .grace then followOnEnd s else s
  | .escrowFault => endCall .escrowFault s.now s
  | .graceExpired => endCall .creditOut s.now s

/-! ### Answer (R13) -/

/-- R13: the answer time and what measures the connected duration. -/
def markAnswer (s : State) : State :=
  let s1 := { s with call := { s.call with answerTimer := none } }
  setOpen (s1.call.openSlot.map (fun sl =>
    { sl with
      answerElapsed := some (tenths sl.offAt s.now)
      record := { sl.record with
        answer := s.store.clock
        flags := { sl.record.flags with clockUnset := sl.record.flags.clockUnset || s.store.clock.isNone } } })) s1

/-- R13: a CHARGED call is answered. -/
def answerCharged (byPulse long : Bool) (s : State) : State :=
  match activeBank s, openCls s with
  | some n, some cls =>
    match priceIn s n cls with
    | some p =>
      let s1 := modifyOpen (fun r => { r with bank := some (n, (s.bank.get n).contents.label) }) s
      actVerdict (startAccount cls n p (openCarried s) byPulse long (setCallState .connected s1))
    | none => endCall .refused s.now s
  | _, _ => endCall .refused s.now s

/-- R13, R58: answer delivered to CALL in RINGING. -/
def answerCall (byPulse long : Bool) (s : State) : State :=
  if s.call.state = .ringing then
    let s1 := markAnswer s
    if openKind s = .charged then answerCharged byPulse long s1 else setCallState .connected s1
  else s

/-! ### Incidents (R15, R148) -/

/-- R15: an urgent occurrence ends a call in these states, unless its kind is EMERGENCY. -/
def urgentEnds (st : CallState) (k : NumberKind) : Bool :=
  (match st with
   | .collecting | .awaitDeposit | .waitLine | .seizing | .sending | .ringing => true
   | .idle | .connected | .clearing | .followOnClearing | .abandoned => false) && decide (k ≠ .emergency)

/-- R15. -/
def urgentToCall (s : State) : State :=
  if urgentEnds s.call.state (openKind s) then endCall .incident s.now s else s

/-- R143, R148: an occurrence, handed to CALL and RPT when its kind is urgent. Its INCIDENT notice comes before the
CALL_STATE, LOG and CALL_END notices of the call that it ends; no rule orders them (DESIGN CHOICE, notes/assumptions 75). -/
def raiseIncident (k : IncidentKind) (s : State) : State :=
  let s1 := countOccurrence k s
  if severityOf k = .urgent then urgentToCall (urgentToReport s1) else s1

/-! ### The end of the coin path's waiting -/

/-- Every outcome COIN delivers lets its run, RATE and CALL go on: the run first, then the ended calls. -/
def coinSettled (s : State) : State := progress (runStep s)

end Sys2Proof.Machine
end

