-- ==== Sys2Proof/Machine/Keys.lean ====
section
/-! DEFINITION. KEYS: the key state machine (R25 to R27), digit collection (R29 to R33), and number analysis (R34 to
R37). -/

namespace Sys2Proof.Machine

/-! ### Number analysis (R34 to R36) -/

/-- `p` is the leading part of `l`. -/
def leads : List Symbol → List Symbol → Bool
  | [], _ => true
  | _ :: _, [] => false
  | x :: xs, y :: ys => decide (x = y) && leads xs ys

/-- The longer of two matches; digit strings are unique, so two matches never have one length (R34). -/
def longer (e : TableEntry) : Option TableEntry → TableEntry
  | none => e
  | some m => if m.digits.length < e.digits.length then e else m

/-- R34: the entry with the longest digit string that equals the leading symbols. -/
def bestMatch (buffer : List Symbol) : List TableEntry → Option TableEntry
  | [] => none
  | e :: es => if leads e.digits buffer then some (longer e (bestMatch buffer es)) else bestMatch buffer es

/-- R34: the best match in the bank ACTIVE now. -/
def analyse (s : State) : Option TableEntry := bestMatch s.keys.buffer (activeTable s)

/-- R35 step 1: the whole buffer equals an entry of the emergency list (an empty item is no entry, R192). -/
def isEmergency (s : State) : Bool :=
  s.config.emergency.any (fun e => !e.isEmpty && decide (e = s.keys.buffer))

def EntryKind.number : EntryKind → NumberKind
  | .charged => .charged
  | .free => .free
  | .barred => .barred

/-- R35 step 3. -/
def completesAtMax (m : TableEntry) (n : Nat) : Bool := decide (m.kind ≠ .barred) && decide (m.maxLen ≤ n)

/-- R30: the buffer, the best match's kind or none, and whether the number is complete. -/
def dialledNotice (complete : Bool) (s : State) : List Byte :=
  digitString s.keys.buffer ++ optByte (s.keys.best.map (fun m => m.kind.code)) ++ markBytes complete

/-- R37: a completion is handed to CALL, and its DIALLED notice is posted after the outcome. -/
def complete (k : NumberKind) (cls : Option Nat) (s : State) : State :=
  let s1 := keysStop s
  post .dialled (dialledNotice true s1) (numberComplete k cls s1)

/-- R35: the analysis after a stored symbol; without a completion, DIALLED is posted unmarked (R30). An emergency number
completes with no best match (DEDUCED, notes/assumptions 85). -/
def analyseStored (s : State) : State :=
  if isEmergency s then complete .emergency none { s with keys := { s.keys with best := none } }
  else
    let s1 := { s with keys := { s.keys with best := analyse s } }
    match s1.keys.best with
    | some m =>
      if completesAtMax m s1.keys.buffer.length then complete m.kind.number (some m.cls) s1
      else post .dialled (dialledNotice false s1) s1
    | none => post .dialled (dialledNotice false s1) s1

/-- R36: the timeout analysis. -/
def analyseTimeout (s : State) : State :=
  let s1 := { s with keys := { s.keys with best := analyse s } }
  match s1.keys.best with
  | some m =>
    if m.minLen ≤ s1.keys.buffer.length then complete m.kind.number (some m.cls) s1
    else numberFails .incomplete m.kind.number (keysStop s1)
  | none => numberFails .barred .barred (keysStop s1)

/-! ### Digit collection (R30, R33) -/

/-- The best match is present and the buffer has reached its minimum. -/
def enough (m : Option TableEntry) (n : Nat) : Bool :=
  match m with
  | some e => decide (e.minLen ≤ n)
  | none => false

/-- R33, R36: the stored best match is examined, and the buffer analysed again; the press is ignored when either has
not reached its minimum. -/
def hashPress (s : State) : State :=
  if s.keys.collection = .collectingDigits ∧ enough s.keys.best s.keys.buffer.length = true then
    match analyse s with
    | some m =>
      if m.minLen ≤ s.keys.buffer.length then
        complete m.kind.number (some m.cls) { s with keys := { s.keys with best := some m } }
      else s
    | none => s
  else s

/-- R9: the first symbol silences READY. -/
def symbolTold (s : State) : State :=
  if s.call.state = .collecting then { s with call := { s.call with earpiece := .silent } } else s

/-- R30: a symbol other than `#`. -/
def storeSymbol (x : Symbol) (s : State) : State :=
  if s.keys.buffer.length < 24 then
    analyseStored (symbolTold { s with keys := { s.keys with
      buffer := s.keys.buffer ++ [x]
      collection := .collectingDigits
      firstDigitTimer := none
      interDigitTimer := s.after (s.config.interDigit * 1000) } })
  else s

/-- R27: symbol presses are taken by digit collection in these two states. -/
def collecting (c : Collection) : Bool :=
  match c with
  | .awaitFirst | .collectingDigits => true
  | .inactive | .done => false

/-- R27: a taken press is delivered according to its key. -/
def deliverPress (k : Key) (s : State) : State :=
  match k with
  | .followOn => followOnPress s
  | .hash => if collecting s.keys.collection then hashPress s else s
  | .star => if collecting s.keys.collection then storeSymbol .star s else s
  | .digit d => if collecting s.keys.collection then storeSymbol (.digit d) s else s

/-! ### Key states (R25, R26) -/

def cellOf (k : Key) (b : KeysBlock) : KeyCell := b.cells.getD (keyIndex k) {}

def setCell (k : Key) (c : KeyCell) (s : State) : State :=
  { s with keys := { s.keys with cells := s.keys.cells.set (keyIndex k) c } }

/-- Another key is PRESSED (R25). -/
def otherPressed (k : Key) (b : KeysBlock) : Bool :=
  allKeys.any (fun j => decide (j ≠ k) && decide ((cellOf j b).state = .pressed))

/-- The crossing of a key reads as debounced, and its debounce run is over. -/
def settleCrossing (k : Key) (closed : Bool) (s : State) : State :=
  { s with
    pins := { s.pins with crossings := s.pins.crossings.set (keyIndex k) closed }
    samplers := { s.samplers with keys := s.samplers.keys.set (keyIndex k) none } }

/-- R25: a contact debounced closed. -/
def pressKey (k : Key) (s : State) : State :=
  match (cellOf k s.keys).state with
  | .released =>
    if otherPressed k s.keys then setCell k { state := .blocked, stuckTimer := s.after stuckMs } s
    else deliverPress k (setCell k { state := .pressed, stuckTimer := s.after stuckMs } s)
  | .pressed | .blocked | .stuck => s

/-- R25, R26: a contact debounced open; when the last key that holds the KEY_STUCK condition is released, it ends. -/
def releaseKey (k : Key) (s : State) : State :=
  match (cellOf k s.keys).state with
  | .released => s
  | .pressed | .blocked | .stuck =>
    let s1 := setCell k {} s
    if keyStuckHeld s.keys && !keyStuckHeld s1.keys then endCondition .keyStuck s1 else s1

/-- R26: the stuck timer of a key expires. -/
def stickKey (k : Key) (s : State) : State :=
  let c := cellOf k s.keys
  match c.state with
  | .pressed | .blocked => countOccurrence .keyStuck (setCell k { c with state := .stuck, stuckTimer := none } s)
  | .released | .stuck => s

end Sys2Proof.Machine
end

