-- ==== Sys2Proof/Machine/Tone.lean ====
section
/-! DEFINITION. The tone detector's three channels (R47 to R52), advanced at the end of each 5 ms interval. The interval that
has just ended belongs to the run in progress, and the presence judged at its end says whether that run goes on or a new
one begins at this instant (DEDUCED, notes/assumptions 33), so that a burst, a run or a silence ends, reaches and passes
its lengths at the instants the rules give. Each channel answers the events it recognises. -/

namespace Sys2Proof.Machine

/-- The run in progress takes the interval that has just ended. -/
def Run.grow (r : Run) : Run := { r with ms := r.ms + detectorMs }

/-- R48: what the end of a run (tone or silence) does to the busy watch. A silence that ends before 400 ms completes no cycle
and leaves the count as it stands (DEDUCED, notes/assumptions 83). -/
def endTone (c : ProgressChannel) : ProgressChannel :=
  if c.run.tone then
    if c.run.ms < 400 then { c with cycles := 0, runOk := false }
    else if c.run.ms ≤ 600 then { c with runOk := true }
    else { c with runOk := false }
  else { c with runOk := false }

/-- R48: the counts at the end of an interval: a run or silence that passes 600 ms resets the count; a silence that
reaches 400 ms after a tone run of 400..600 ms completes a cycle. -/
def busyCount (c : ProgressChannel) : ProgressChannel :=
  if 600 < c.run.ms then { c with cycles := 0, runOk := false }
  else if !c.run.tone && c.run.ms == 400 && c.runOk then { c with cycles := c.cycles + 1 }
  else c

/-- The run in progress ends at this instant when the presence judged is not its own, and a new one begins. -/
def turnProgress (p : Bool) (c : ProgressChannel) : ProgressChannel :=
  if c.run.tone = p then c else { endTone c with run := ⟨p, 0⟩ }

/-- R47, R48: one interval of the call-progress channel; events dial tone recognised and busy recognised. -/
def progressInterval (p : Bool) (c : ProgressChannel) : ProgressChannel × List Instr :=
  if c.active then
    let c1 := { c with run := c.run.grow }
    let c2 := if c1.busyWatch then busyCount c1 else c1
    let dial := c2.dialTiming && c2.run.tone && c2.run.ms == 300
    let busy := c2.busyWatch && c2.cycles == 3 && c1.cycles != 3
    (turnProgress p c2, (if dial then [.dialToneRecognised] else []) ++ (if busy then [.busyRecognised] else []))
  else (c, [])

/-- R49: the interval that has just ended, taken by the burst or the silence in progress: a burst that passes 500 ms is a
long pulse. An interval in which the burst was cut off is no whole interval of the silence after it. -/
def growMeter (c : MeterChannel) : MeterChannel × List Instr :=
  if c.broken then ({ c with broken := false }, [])
  else
    match c.burst with
    | some b =>
      let ms := b.ms + detectorMs
      if !b.judged && decide (500 < ms) then ({ c with burst := some { b with ms := ms, judged := true } }, [.meterPulse true])
      else ({ c with burst := some { b with ms := ms } }, [])
    | none => if c.ignoring then (c, []) else ({ c with gap := c.gap.map (fun g => g + detectorMs) }, [])

/-- R49: a burst that ends having lasted from its minimum up to 500 ms is a valid pulse, at its end. -/
def endedBurst (b : Burst) : List Instr := if !b.judged && decide (b.minimum ≤ b.ms) then [.meterPulse false] else []

/-- R49: the presence judged ends a run or begins one. A run begins a burst after 100 ms of silence, and the first one at
once; one that begins sooner is disregarded, whatever its length. -/
def turnMeter (p : Bool) (minimum : Nat) (c : MeterChannel) : MeterChannel × List Instr :=
  match c.burst with
  | some b => if p then (c, []) else ({ c with burst := none, gap := some 0 }, endedBurst b)
  | none =>
    if c.ignoring then (if p then c else { c with ignoring := false, gap := some 0 }, [])
    else if p then
      (if c.gap.all (fun g => decide (100 ≤ g)) then { c with burst := some ⟨0, minimum, false⟩ }
       else { c with ignoring := true }, [])
    else (c, [])

/-- R49: one interval of the meter channel. `p` is presence while loop current is present; `minimum` the configured
minimum, read when a burst begins. -/
def meterInterval (p : Bool) (minimum : Nat) (c : MeterChannel) : MeterChannel × List Instr :=
  if c.active then
    let a := growMeter c
    let b := turnMeter p minimum a.1
    (b.1, a.2 ++ b.2)
  else (c, [])

/-- R49: loop current becomes absent: a burst in progress ends at that instant and gives no pulse, and the silence after it is
counted from there. `whole` says that a detector interval begins at that instant too. -/
def meterCut (whole : Bool) (c : MeterChannel) : MeterChannel :=
  if c.burst.isSome || c.ignoring then { c with burst := none, ignoring := false, gap := some 0, broken := !whole } else c

/-- R50's table of cadences: the window a tone run's length falls in. -/
def cadenceWindow (ms : Nat) : Option Cadence :=
  if 560 ≤ ms ∧ ms ≤ 640 then some .ready
  else if 160 ≤ ms ∧ ms ≤ 240 then some .ack
  else if 360 ≤ ms ∧ ms ≤ 440 then some .again
  else none

/-- R51: a complete repetition. -/
def repetition (k : Cadence) (c : CentreChannel) : CentreChannel :=
  { c with candidate := none, latest := some k, count := if c.latest = some k then c.count + 1 else 1 }

/-- R51: what the run in progress brings about as it grows: BYE at 1000 ms of tone, a repetition at 160 ms of silence, and
the count 0 past 640 ms of tone or 240 ms of silence. -/
def growCentre (c : CentreChannel) : CentreChannel × List Instr :=
  if c.run.tone then
    if c.run.ms = 1000 then ({ c with count := 0 }, [.cadenceRecognised .bye])
    else if 640 < c.run.ms then ({ c with count := 0 }, [])
    else (c, [])
  else if c.run.ms = 160 then
    match c.candidate with
    | some k =>
      let c1 := repetition k c
      (c1, if c1.count = 2 then [.cadenceRecognised k] else [])
    | none => (c, [])
  else if 240 < c.run.ms then ({ c with count := 0, candidate := none }, [])
  else (c, [])

/-- R51: the end of a tone run gives the cadence whose window its length falls in, or the count 0. A silence that ends before
160 ms completes no repetition: the run before it is dropped, and the count of repetitions stays as it stands (DEDUCED,
notes/assumptions 87). -/
def endCentre (c : CentreChannel) : CentreChannel :=
  if c.run.tone then
    match cadenceWindow c.run.ms with
    | some k => { c with candidate := some k }
    | none => { c with candidate := none, count := 0 }
  else { c with candidate := none }

/-- R51, R52: one interval of the centre channel. After a delivery nothing is recognised until 400 ms of silence; the rule
does not say whether the silence under way at the delivery counts, and the model counts it (DESIGN CHOICE,
notes/assumptions 59). -/
def centreInterval (p : Bool) (c : CentreChannel) : CentreChannel × List Instr :=
  if c.active then
    let c1 := { c with run := c.run.grow }
    let a :=
      if c1.hold then
        if !c1.run.tone && decide (400 ≤ c1.run.ms) then
          ({ c1 with hold := false, count := 0, latest := none, candidate := none }, [])
        else (c1, [])
      else growCentre c1
    (if a.1.run.tone = p then a.1
     else { (if a.1.hold then a.1 else endCentre a.1) with run := ⟨p, 0⟩ }, a.2)
  else (c, [])

/-- R47 to R52: the end of one 5 ms interval of the tone detector. What it recognises is raised as an event of its own. To the
meter channel an absence of loop current is silence, and a tone that still sounds when current returns a run that begins there
(DEDUCED, notes/assumptions 80). -/
def detectorInterval (progress meter centre : Bool) (s : State) : State :=
  let a := progressInterval progress s.line.progress
  let b := meterInterval (meter && currentPresent s.line) s.config.meterMinBurst s.line.meter
  let c := centreInterval centre s.line.centre
  { s with
      raised := s.raised ++ a.2 ++ b.2 ++ c.2
      line := { s.line with progress := a.1, meter := b.1, centre := c.1, detectorTimer := s.after detectorMs } }

end Sys2Proof.Machine
end

