-- ==== Sys2Proof/Machine/Start.lean ====
section
/-! DEFINITION. A start of the part: judging the areas (R179), the kind of start (R180), the starting values of every
block (R1, R29, R39, R40, R83, R88, R124, R137, R153, R171, R199), closing interrupted calls (R181, R107), the escrow
(R83 to R85), the start-up readings (R154), and the STARTED notice (R185). -/

namespace Sys2Proof.Machine

/-! ### The retained areas at a start (R179) -/

/-- The contents the nine areas give, and the areas found invalid. -/
structure Judged where
  config : ConfigItems
  call : CallArea
  coin : CoinArea
  bankA : Bank
  bankB : Bank
  vault : VaultArea
  incd : List Incident
  rpt : RptArea
  log : LogArea
  invalid : List AreaName
deriving DecidableEq, Repr

/-- R179: the contents of the newer valid copy, or the factory values. -/
def contentsOr {α : Type} (x : Area α) (factory : α) : α :=
  match x.newest with
  | some c => c.contents
  | none => factory

/-- The area's name, when neither copy is valid. -/
def invalidName {α : Type} (n : AreaName) (x : Area α) : List AreaName := if x.newest.isNone then [n] else []

/-- R179: an invalid area is written to both copies. -/
def repaired {α : Type} (x : Area α) (v : α) : Area α := if x.newest.isNone then Area.both v else x

/-- The vault capacity raised where the retained vault load requires it (VAULT's configuration items). -/
def factoryConfig (total escrow : Nat) : ConfigItems :=
  { ConfigItems.default with vaultCapacity := max ConfigItems.default.vaultCapacity (total + escrow) }

/-- R74: with COIN's area at factory values the stroke numbers begin again at 1, and a number that VAULT or CALL has kept from
before names no stroke of COIN's any more: each holds none (DESIGN CHOICE, notes/assumptions 98). -/
def keptStroke (coin : Area CoinArea) (n : Option Nat) : Option Nat := if coin.newest.isNone then none else n

/-- R179: what each block takes from its area. -/
def judgeAreas (ar : Areas) : Judged :=
  let vault := contentsOr ar.vault {}
  let coin := contentsOr ar.coin {}
  let call := contentsOr ar.call {}
  { config := contentsOr ar.config (factoryConfig vault.counters.total coin.escrow.length)
    call := { call with lastCredited := keptStroke ar.coin call.lastCredited }
    coin := coin
    bankA := contentsOr ar.bankA Bank.factory
    bankB := contentsOr ar.bankB Bank.factory
    vault := { vault with lastStroke := keptStroke ar.coin vault.lastStroke }
    incd := contentsOr ar.incd []
    rpt := contentsOr ar.rpt {}
    log := contentsOr ar.log {}
    invalid := invalidName .config ar.config ++ invalidName .call ar.call ++ invalidName .coin ar.coin
      ++ invalidName .bankA ar.bankA ++ invalidName .bankB ar.bankB ++ invalidName .vault ar.vault
      ++ invalidName .incd ar.incd ++ invalidName .rpt ar.rpt ++ invalidName .log ar.log }

/-- R179: at FACTORY_CLEAR every area takes its factory values, and none is reported invalid. -/
def factoryAreas : Judged where
  config := ConfigItems.default
  call := {}
  coin := {}
  bankA := Bank.factory
  bankB := Bank.factory
  vault := {}
  incd := []
  rpt := {}
  log := {}
  invalid := []

def judgedAt (k : StartKind) (ar : Areas) : Judged := if k = .factory then factoryAreas else judgeAreas ar

/-- The copies after the judging: invalid areas written to both. COIN's is written with the step's other writes (`commit`), after
CALL's, so that a loss of power in between finds it invalid again (R83's ESCROW_UNKNOWN; DEDUCED, notes/assumptions 57). -/
def repairedAreas (k : StartKind) (j : Judged) (ar : Areas) : Areas :=
  if k = .factory then Areas.factory
  else
    { config := repaired ar.config j.config
      call := repaired ar.call j.call
      coin := ar.coin
      bankA := repaired ar.bankA j.bankA
      bankB := repaired ar.bankB j.bankB
      vault := repaired ar.vault j.vault
      incd := repaired ar.incd j.incd
      rpt := repaired ar.rpt j.rpt
      log := repaired ar.log j.log
      marker := ar.marker
      written := [] }

/-- R180: the marker gives the kind of start. -/
def kindOfMarker : Marker → StartKind
  | .running | .unreadable => .power
  | .restarting => .restart
  | .clearing => .factory

/-! ### Records found at a start (R181, R107) -/

/-- R181: the cause an open record takes. -/
def startCause (k : StartKind) : EndCause := if k = .restart then .restart else .power

/-- R181 steps 1 and 2 for an open record without an end: to the instant and clock kept with the marker, or to the
last-alive mark. A start after RESTARTING whose CALL area holds no restart instant ends the record at the mark (DESIGN
CHOICE, notes/assumptions 77). The connected duration is rounded as `endSlot` says (notes/assumptions 51), and is 0 when
the end lies before the answer, as a last-alive mark may (DESIGN CHOICE, notes/assumptions 70). A record that RATE never
opened keeps the rating mode configured at its beginning (DESIGN CHOICE, notes/assumptions 96). -/
def endAtStart (k : StartKind) (kept : Option (Nat × Option Time)) (sl : Slot) : Slot :=
  let byMark := (sl.lastAlive, sl.record.offHook.map (fun t => t + sl.lastAlive / 10))
  let e := match k, kept with
    | .restart, some (i, t) => (tenths sl.offAt i, t)
    | _, _ => byMark
  { sl with
    ended := true
    record := endRecord (startCause k) e.2 e.1 (sl.answerElapsed.map (fun a => e.1 - a)) sl.record.digits none
      sl.record }

/-- R181 step 1: an open record already in CLEARING takes the start's cause and keeps its end. -/
def closeOpenAtStart (k : StartKind) (kept : Option (Nat × Option Time)) (sl : Slot) : Slot :=
  if sl.ended then sl.modify (fun r => { r with cause := some (startCause k) }) else endAtStart k kept sl

/-- R84: the head found MOVING, with its stroke. -/
def movingHead (l : List EscrowEntry) : Option (EscrowEntry × Stroke × Nat) :=
  match l with
  | e :: _ => e.moving.map (fun m => (e, m.1, m.2))
  | [] => none

/-- R84, R107: the value and stroke number of a head found MOVING in a COLLECT stroke, which its record has still to count
(notes/assumptions 97). -/
def movedCollect (l : List EscrowEntry) : Option (Nat × Nat) :=
  match movingHead l with
  | some (e, .collect, n) => if e.counted then none else some (e.value, n)
  | _ => none

/-- R107: the retained account closes into the open record. -/
def closeAccountAtStart (a : CallArea) (moved : Option (Nat × Nat)) (sl : Slot) : Slot :=
  match a.account with
  | some acct => sl.modify (copyAccount (acct.atStart moved a.lastCredited))
  | none => sl

/-- R174: a record is never stored twice. A slot of CALL's area is one that the log has already taken when its call began
no later than the latest call handed to the log: records are handed over in the order in which their calls began (R17). -/
def alreadyLogged (handed : Option Nat) (sl : Slot) : Bool :=
  match handed with
  | some i => decide (sl.offAt ≤ i)
  | none => false

/-- R181: the records found in CALL's area, oldest first: those of an earlier interrupted start, the closing slot's, the open
slot's; without those the log has taken (R174). -/
def foundSlots (a : CallArea) (handed : Option Nat) : List Slot :=
  (a.atStart ++ a.closingSlot.toList ++ a.openSlot.toList).filter (fun sl => !alreadyLogged handed sl)

/-! The model's own marks: what the records have counted (notes/assumptions 97) -/

/-- The first `n` entries are marked: no record has to count them any more. -/
def markCounted : Nat → List EscrowEntry → List EscrowEntry
  | _, [] => []
  | 0, l => l
  | n + 1, e :: es => { e with counted := true } :: markCounted n es

/-- The escrow as the records found in CALL's area know it. COIN's list may hold coins that these records have counted as gone,
when the loss of power cut off COIN's write alone, and coins of a record that has been stored: these are marked. -/
def coinFound (a : CallArea) (slots : List Slot) (c : CoinArea) : CoinArea :=
  let base := (slots.head?.map Slot.base).getD 0
  { c with
    escrow := markCounted (max a.gone base - c.gone) c.escrow
    gone := max c.gone (a.gone - c.escrow.length) }

def dropNth (n : Nat) : List Nat → List Nat
  | [] => []
  | x :: xs => if n = 0 then (x - 1) :: xs else x :: dropNth (n - 1) xs

/-- R83, R67: the last coin that the record counts as accepted never reached COIN's retained list, and has not left it either:
its confirmation was cut off, and it counts as the coin in transit that it was. -/
def neverEntered (a : CallArea) (c : CoinArea) (no : Nat) : Bool :=
  decide (c.gone + c.escrow.length < no) && decide (a.gone < no)

/-- A slot as a start takes it over: its last coin judged against COIN's area, if that is valid. -/
def settleLast (a : CallArea) (c : Option CoinArea) (sl : Slot) : Slot :=
  let sl1 := { sl with lastCoin := none, complete := false }
  match sl.lastCoin, c with
  | some (no, denom), some c =>
    if neverEntered a c no then sl1.modify (fun r => { r with accepted := dropNth (denom - 1) r.accepted }) else sl1
  | _, _ => sl1

/-- R181: the records to be stored, oldest first, with the open record ended and its account closed. -/
def recordsAtStart (k : StartKind) (a : CallArea) (handed : Option Nat) (c : Option CoinArea) : List Slot :=
  let moved := c.bind (fun c => movedCollect (coinFound a (foundSlots a handed) c).escrow)
  (foundSlots { a with
      openSlot := a.openSlot.map (fun sl => closeAccountAtStart a moved (closeOpenAtStart k a.restartEnd sl)) }
    handed).map (settleLast a c)

/-! ### Starting values of the blocks -/

def callAtStart (slots : List Slot) (lastCredited : Option Nat) : CallBlock :=
  { CallBlock.fresh with atStart := slots, lastCredited := lastCredited }

/-- R29, R39: collection INACTIVE, and every key RELEASED until the 30 ms of its first reading have ended: the rule gives key
states at that end alone (DESIGN CHOICE, notes/assumptions 79). -/
def keysAtStart : KeysBlock := KeysBlock.fresh

/-- R40. -/
def lineAtStart (now : Nat) : LineBlock := LineBlock.fresh (some (now + releaseGuardMs))

/-- R83. An entry restored at a start has no entry instant (R80). -/
def coinAtStart (a : CoinArea) (jam : Bool) (now : Nat) : CoinBlock where
  latch := .none
  inletFault := a.inletFault
  unconfirmed := a.unconfirmed
  lockoutTimer := none
  jamTimer := if jam then some (now + jamLineMs) else none
  transit := none
  escrow := a.escrow.map (fun e => { e with entryAt := none })
  order := a.order
  mover := .idle
  exitTimer := none
  blind := false
  run := .none
  tally := {}
  report := false
  strandedTally := a.strandedTally
  strokeNo := a.strokeNo
  gone := a.gone
  purgeStrokes := 0
  purgeCount := none

/-- R137 step 1. The switches are unread: that the key reads OFF, the doors CLOSED and the service state NORMAL until the
reading, and that the load is that of the retained escrow, which STATUS then reports, is the model's choice (DESIGN CHOICE,
notes/assumptions 61). -/
def vaultAtStart (a : VaultArea) (c : ConfigItems) (escrow : Nat) : VaultBlock where
  counters := a.counters
  nearFull := decide (c.nearFullMark ≤ a.counters.total)
  full := decide (c.vaultCapacity ≤ a.counters.total + escrow)
  vaultOpen := false
  housingOpen := false
  vaultGrace := false
  housingGrace := false
  keyOn := false
  service := .normal
  graceTimer := none
  progress := a.progress
  last := a.last
  number := a.number
  lastStroke := a.lastStroke

/-- R171: a remaining wait is resumed. -/
def rptAtStart (a : RptArea) (now : Nat) : RptBlock where
  state := if 0 < a.savedWait then .wait else .idle
  failures := a.failures
  urgentFailures := a.urgentFailures
  backoffTimer := if 0 < a.savedWait then some (now + a.savedWait * 100) else none
  minuteTimer := if 0 < a.savedWait then some (now + 60000) else none
  savedWait := a.savedWait
  quietSince := none
  readyTimer := none
  ackTimer := none
  closeTimer := none
  terminal := []
  number := []
  blocks := none
  index := 0
  sends := 0

/-- R140: the shock input is taken as released, and an assertion under way must first be released; R79 says nothing of
a start, and the reversal beam is taken as restored. -/
def samplersAtStart (p : Pins) (now : Nat) : Samplers where
  keys := List.replicate 13 none
  hook := none
  keyOn := none
  vault := none
  housing := none
  cord := none
  shockLevel := p.shock
  shockRun := now
  shockReady := !p.shock
  beamLevel := false
  beamRun := now
  beamReady := true

def progressAtStart (k : StartKind) (now : Nat) (invalid : List AreaName) (closed : Nat) : StartProgress where
  kind := k
  beganAt := now
  invalid := invalid
  closed := closed
  keysRead := false
  hookRead := false
  switchesRead := false
  cordRead := false
  voltageRead := false
  cordSeenClosed := false
  voltageSeen := false

/-- Every block at its starting values, before any of them acts. A log emptied here, by FACTORY_CLEAR or because its area
failed, posts no LOG notice for its change of level (DESIGN CHOICE, notes/assumptions 76). -/
def blocksAtStart (k : StartKind) (j : Judged) (s : State) : State :=
  let slots := recordsAtStart k j.call j.log.handed (if j.invalid.contains .coin then none else some j.coin)
  { s with
    raised := []
    power := .starting
    samplers := samplersAtStart s.pins s.now
    config := j.config
    call := callAtStart slots j.call.lastCredited
    keys := keysAtStart
    line := lineAtStart s.now
    coin := coinAtStart (coinFound j.call (foundSlots j.call j.log.handed) j.coin) s.pins.jam s.now
    rate := RateBlock.inactive
    bank := ⟨j.bankA, j.bankB, false, false⟩
    vault := vaultAtStart j.vault j.config j.coin.escrow.length
    incd := ⟨j.incd, none, []⟩
    rpt := rptAtStart j.rpt s.now
    store := { s.store with
      areas := repairedAreas k j s.store.areas
      log := j.log
      start := progressAtStart k s.now j.invalid slots.length }
    link := LinkBlock.fresh }

/-! ### Start-up readings (R154) -/

/-- A reading of presence. -/
def readPresent (k : IncidentKind) (s : State) : State :=
  match findIncident k s.incd.map with
  | some e => if e.active then s else raiseIncident k s
  | none => raiseIncident k s

def reading (present : Bool) (k : IncidentKind) (s : State) : State :=
  if present then readPresent k s else readAbsent k s

/-- R153: POWER_LOSS, at a start after a loss of power or with INCD's area invalid. -/
def powerLossAtStart (k : StartKind) (s : State) : State :=
  if k = .power ∨ (k = .restart ∧ s.store.start.invalid.contains .incd = true) then countOccurrence .powerLoss s else s

/-- R154: the readings given at the start itself, in the model's order (DESIGN CHOICE, notes/assumptions 63). -/
def readingsAtStart (s : State) : State :=
  reading (decide (s.coin.order = .outOfOrder)) .escrowJam
    (reading s.coin.inletFault .inletJam (readAbsent .hookStuck (readAbsent .chuteReversal s)))

/-! ### Banks (R124) -/

/-- R124 step 3. -/
def resolveDoubleActive (s : State) : State :=
  if s.bank.a.state = .active ∧ s.bank.b.state = .active then
    if s.bank.a.serial < s.bank.b.serial then moveBank .a .ready .startup s else moveBank .b .ready .startup s
  else s

/-- R124 step 4. -/
def retireAtStart (n : BankName) (s : State) : State :=
  if (s.bank.get n).state = .retiring then moveBank n .ready .startup s else s

/-- R124 steps 3 to 5. -/
def banksAtStart (s : State) : State :=
  judgeActivation (retireAtStart .b (retireAtStart .a (resolveDoubleActive s)))

/-! ### The escrow (R83 to R85) -/

def setCredited (n : Nat) (s : State) : State := { s with call := { s.call with lastCredited := some n } }

/-- The head of the list is a coin of the oldest record being closed, and not of one that has been stored (the model's own,
notes/assumptions 97). -/
def headIsOwned (s : State) : Bool :=
  match s.call.atStart with
  | [] => false
  | sl :: _ => decide (sl.base ≤ s.coin.gone)

/-- R84: COIN has CALL set POWER_MOVE in the record that owns the escrow. -/
def markPowerMove (s : State) : State :=
  if headIsOwned s then modifyOwner (fun r => { r with flags := { r.flags with powerMove := true } }) s else s

/-- R84 step 1: the coin of an interrupted stroke is taken as having reached its exit; VAULT counts a COLLECT's unless it
already holds its stroke number. RATE's part (R107) is in `recordsAtStart`. A coin that its record has counted already is not
counted in it again (notes/assumptions 97). -/
def resolveMoving (s : State) : State :=
  match movingHead s.coin.escrow with
  | none => s
  | some (e, k, n) =>
    let s1 := dropHead (markPowerMove s)
    match k with
    | .collect =>
      if s.vault.lastStroke = some n then vaultRefresh (setCredited n s1)
      else postVault (vaultRefresh (vaultCounts e.denom e.value n (setCredited n s1)))
    | .refund => vaultRefresh (modifyOwner (fun r => { r with refunded := r.refunded.add (uncountedSum [e]) }) s1)

def markUnknown (s : State) : State :=
  modifyOwner (fun r => { r with flags := { r.flags with escrowUnknown := true } }) s

/-- R83: the list is discarded, and the load recomputed (R137 step 5). -/
def discardList (s : State) : State := vaultRefresh (emptyList s)

/-- R83 to R85: what the start makes of the escrow. -/
def escrowAtStart (k : StartKind) (callValid coinValid : Bool) (s : State) : State :=
  if k = .factory then startPurge s
  else if !coinValid then startPurge (markUnknown s)
  else if !callValid then
    if s.coin.order = .outOfOrder then strand s else startPurge (discardList s)
  else progress (startRun .startUp (resolveMoving s))

/-! ### The start -/

/-- R179: a start of kind `k`: areas, starting values, INCD, BANK, and the escrow with the records. R185 gives no order of the
notices of one instant: POWER_LOSS, the readings, BANK's and those of the escrow and the records follow one another so by
the model's choice (DESIGN CHOICE, notes/assumptions 63). -/
def startPart (k : StartKind) (s : State) : State :=
  let j := judgedAt k s.store.areas
  let ok (n : AreaName) : Bool := !j.invalid.contains n
  escrowAtStart k (ok .call) (ok .coin)
    (banksAtStart (readingsAtStart (powerLossAtStart k (blocksAtStart k j s))))

/-- R185: kind, invalid areas, clock state (SET 0, UNSET 1), purge count or none, records closed (one byte, DEDUCED,
notes/assumptions 91), level, held count, unlogged count. -/
def startedNotice (s : State) : List Byte :=
  let p := s.store.start
  le1 p.kind.code ++ le1 p.invalid.length ++ p.invalid.flatMap (fun n => le1 (areaByte n))
    ++ le1 (if s.store.clock.isSome then 0 else 1) ++ optItem (s.coin.purgeCount.map le1) ++ le1 p.closed
    ++ le1 (logLevel s.store.log.records.length).code ++ le1 s.store.log.records.length ++ le1 s.store.log.unlogged

/-- R185: the start is complete. -/
def completeStart (s : State) : State :=
  post .started (startedNotice s) { s with power := .running, store := { s.store with marker := .running } }

/-! ### The first readings -/

/-- The instant a first reading of `ms` ends. -/
def readingEnd (s : State) (ms : Nat) : State := reach (some (s.store.start.beganAt + ms)) s

/-- R39: keys found closed enter BLOCKED. The rule does not say what a contact that changes during the 30 ms is found to be:
with no reading commanded, the idle part takes the level at their end (`Machine/Idle.lean`, `dueStart`; DESIGN CHOICE,
notes/assumptions 48). -/
def cellAtStart (now : Nat) (closed : Bool) : KeyCell :=
  if closed then { state := .blocked, stuckTimer := some (now + stuckMs), foundClosed := true } else {}

/-- R39, R154: the key reading. -/
def takeKeyReading (closed : List Key) (s : State) : State :=
  let s1 := { s with
    pins := { s.pins with crossings := allKeys.map (fun k => closed.contains k) ++ s.pins.crossings.drop 13 }
    samplers := { s.samplers with keys := List.replicate 13 none }
    keys := { s.keys with cells := allKeys.map (fun k => cellAtStart s.now (closed.contains k)) }
    store := { s.store with start := { s.store.start with keysRead := true } } }
  reading (!closed.isEmpty) .keyStuck s1

/-- R28, R1: the hook reading: CALL enters IDLE or ABANDONED. -/
def takeHookReading (offHook : Bool) (s : State) : State :=
  let s1 := { s with
    pins := { s.pins with hookOff := offHook }
    samplers := { s.samplers with hook := none }
    keys := { s.keys with hook := if offHook then .offHook else .onHook }
    store := { s.store with start := { s.store.start with hookRead := true } } }
  if offHook then enterAbandoned s1 else enterIdle s1

/-- R137 step 3. -/
def collectionAtStart (s : State) : State :=
  match s.vault.progress with
  | some _ => if s.vault.vaultOpen then s else completeCollection .atStart s
  | none => if s.vault.keyOn && s.vault.vaultOpen then startCollection s else s

/-- R137 step 5: the load and marks are computed, and VAULT_FULL read. -/
def loadAtStart (s : State) : State :=
  let s1 := { s with
    vault := { s.vault with
      full := vaultAtCapacity s
      nearFull := decide (s.config.nearFullMark ≤ s.vault.counters.total) }
    store := { s.store with start := { s.store.start with switchesRead := true } } }
  reading s1.vault.full .vaultFull s1

/-- R137 steps 2 to 5, and then VAULT's two notices (DESIGN CHOICE, notes/assumptions 63). With both doors OPEN and the key OFF, VAULT_FORCED is read before
HOUSING_FORCED; step 4 gives no order (DESIGN CHOICE, notes/assumptions 74). -/
def takeSwitchReading (keyOn vaultOpen housingOpen : Bool) (s : State) : State :=
  let s1 := { s with
    pins := { s.pins with keyOn := keyOn, vaultOpen := vaultOpen, housingOpen := housingOpen }
    samplers := { s.samplers with keyOn := none, vault := none, housing := none }
    vault := { s.vault with
      keyOn := keyOn, vaultOpen := vaultOpen, housingOpen := housingOpen
      service := if keyOn then .service else .normal
      graceTimer := none, vaultGrace := false, housingGrace := false } }
  let s2 := collectionAtStart s1
  let s3 := reading (housingOpen && !keyOn) .housingForced (reading (vaultOpen && !keyOn) .vaultForced s2)
  postVault (postService .startup (loadAtStart s3))

/-- R154, R139: the cord reading. R154 names the samples that all read open; with mixed samples the cord loop state is CLOSED
(DESIGN CHOICE, notes/assumptions 66), and the input keeps its level. -/
def takeCordReading (loopOpen : Bool) (s : State) : State :=
  let s1 := { s with
    pins := { s.pins with cordOpen := s.pins.cordOpen || loopOpen }
    samplers := { s.samplers with cord := none }
    incd := { s.incd with cordOpen := some loopOpen }
    store := { s.store with start := { s.store.start with cordRead := true } } }
  reading loopOpen .cordCut s1

/-- R61: the voltage reading. The report to INCD is made before the LINE notice, the order in which the rule names them
(DEDUCED, notes/assumptions 49). -/
def takeVoltageReading (absent : Bool) (s : State) : State :=
  let s1 := { s with store := { s.store with start := { s.store.start with voltageRead := true } } }
  if absent then
    setWatch .cut (readPresent .lineCut { s1 with
      pins := { s1.pins with voltage := false }, line := { s1.line with voltSince := none } })
  else readAbsent .lineCut s1

end Sys2Proof.Machine
end

