-- ==== Sys2Proof/Machine/CallTimers.lean ====
section
/-! DEFINITION. The meanings of CALL's timers: deposit (R10), answer (R13), abandoned (R20), the REJECT tone of ABANDONED
(R6, R20), the repeated WARNING (R6), and the last-alive write (R181). -/

namespace Sys2Proof.Machine

/-- DEPOSIT_TIMEOUT (R10): the call ends NO_DEPOSIT. -/
def execDepositTimeout (s : State) : Host.Outcome State Fault Refusal :=
  .next (stepAlive (fun t =>
    match t.call.depositTimer with
    | some d =>
      if t.call.state = .awaitDeposit then
        let u := reach (some d) t
        endCall .noDeposit u.now u
      else t
    | none => t) s)

/-- ANSWER_TIMEOUT (R13): the call ends NO_ANSWER. -/
def execAnswerTimeout (s : State) : Host.Outcome State Fault Refusal :=
  .next (stepAlive (fun t =>
    match t.call.answerTimer with
    | some d =>
      if t.call.state = .ringing then
        let u := reach (some d) t
        endCall .noAnswer u.now u
      else t
    | none => t) s)

/-- ABANDONED_TIMEOUT (R20): an occurrence of HOOK_STUCK. -/
def execAbandonedTimeout (s : State) : Host.Outcome State Fault Refusal :=
  .next (stepAlive (fun t =>
    match t.call.abandonedTimer with
    | some d =>
      if t.call.state = .abandoned then
        let u := reach (some d) t
        countOccurrence .hookStuck { u with call := { u.call with abandonedTimer := none } }
      else t
    | none => t) s)

/-- REJECT_TONE_END (R6, R20): after 60 s ABANDONED is silent. -/
def execRejectToneEnd (s : State) : Host.Outcome State Fault Refusal :=
  .next (stepAlive (fun t =>
    match t.call.rejectTimer with
    | some d =>
      if t.call.state = .abandoned then
        let u := reach (some d) t
        { u with call := { u.call with rejectTimer := none, earpiece := .silent } }
      else t
    | none => t) s)

/-- R6: the phase is one in which WARNING is repeated. -/
def warned (p : Phase) : Bool :=
  match p with
  | .warning | .grace => true
  | .inactive | .settling | .running | .ended => false

/-- WARNING_REPEAT (R6): a WARNING every 5 s while the phase stays WARNING or GRACE. -/
def execWarningRepeat (s : State) : Host.Outcome State Fault Refusal :=
  .next (stepAlive (fun t =>
    match t.call.warningTimer with
    | some d => if t.call.state = .connected ∧ warned t.rate.phase = true then soundWarning (reach (some d) t) else t
    | none => t) s)

/-- R181: the mark in the open record's slot. -/
def markAlive (s : State) : State :=
  setOpen (s.call.openSlot.map (fun sl => { sl with lastAlive := tenths sl.offAt s.now })) s

/-- LAST_ALIVE_WRITE (R181): at each whole second of a call. -/
def execLastAliveWrite (s : State) : Host.Outcome State Fault Refusal :=
  .next (stepAlive (fun t =>
    match t.call.aliveTimer with
    | some d =>
      if callExists t.call.state then
        let u := markAlive (reach (some d) t)
        { u with call := { u.call with aliveTimer := some (d + 1000) } }
      else t
    | none => t) s)

end Sys2Proof.Machine
end

