-- ==== Sys2Proof/Machine/StartCommands.lean ====
section
/-! DEFINITION. The meanings of POWER_UP, POWER_FAIL, START_COMPLETE and the five first readings. -/

namespace Sys2Proof.Machine

/-- The areas neither of whose copies can be read any more. -/
def loseArea (ar : Areas) : AreaName → Areas
  | .config => { ar with config := ar.config.lose }
  | .call => { ar with call := ar.call.lose }
  | .coin => { ar with coin := ar.coin.lose }
  | .bankA => { ar with bankA := ar.bankA.lose }
  | .bankB => { ar with bankB := ar.bankB.lose }
  | .vault => { ar with vault := ar.vault.lose }
  | .incd => { ar with incd := ar.incd.lose }
  | .rpt => { ar with rpt := ar.rpt.lose }
  | .log => { ar with log := ar.log.lose }

/-- R178: a write torn by the loss of power leaves the newest copy unsound. -/
def tearArea (ar : Areas) : AreaName → Areas
  | .config => { ar with config := ar.config.tear }
  | .call => { ar with call := ar.call.tear }
  | .coin => { ar with coin := ar.coin.tear }
  | .bankA => { ar with bankA := ar.bankA.tear }
  | .bankB => { ar with bankB := ar.bankB.tear }
  | .vault => { ar with vault := ar.vault.tear }
  | .incd => { ar with incd := ar.incd.tear }
  | .rpt => { ar with rpt := ar.rpt.tear }
  | .log => { ar with log := ar.log.tear }

/-- The areas that one step writes before the named one: a confirmed COLLECT is written to VAULT's area, then CALL's, then
COIN's (R74), and every other step that writes CALL's area and COIN's writes CALL's first; a record goes to the log before
CALL's slot is emptied, and the activated bank's area before the displaced one's (DEDUCED from R2, R19 and R124 step 3,
notes/assumptions 57). -/
def writtenBefore (s : State) (a : AreaName) : List AreaName :=
  let counted := s.store.areas.written.contains .vault
  match a with
  | .log => if counted then [.vault] else []
  | .call => .log :: (if counted then [.vault] else [])
  | .coin => .log :: .call :: (if counted then [.vault] else [])
  | .bankA => if s.bank.b.state = .active then [.bankB] else []
  | .bankB => if s.bank.a.state = .active then [.bankA] else []
  | .config | .vault | .incd | .rpt => []

/-- R178: the areas whose latest write a loss of power cuts off: those named, and those that would have been written after
one of them. An area that the latest writing step did not write keeps its newest copy. -/
def cutWrites (torn : List AreaName) (s : State) : List AreaName :=
  let w := s.store.areas.written
  w.filter (fun a => torn.contains a || (writtenBefore s a).any (fun b => w.contains b && torn.contains b))

/-- R180: what a start reads as the marker: its first copy, its second when only that one reads, or nothing (DEDUCED,
notes/assumptions 56). -/
def markerRead (m : MarkerRead) (s : State) : Marker :=
  match m with
  | .both | .first => s.store.marker
  | .second => s.store.areas.marker
  | .neither => .unreadable

/-- R182, R180, R179: what the time without power has done to the clock, the marker and the areas. -/
def afterOutage (backupHeld : Bool) (marker : MarkerRead) (lost : List AreaName) (s : State) : State :=
  { s with store := { s.store with
      clock := if backupHeld then s.store.clock else none
      marker := markerRead marker s
      areas := lost.foldl loseArea s.store.areas } }

/-- POWER_UP (R179): the start the marker tells (R180). With the power on, there is no such event. -/
def execPowerUp (backupHeld : Bool) (marker : MarkerRead) (lost : List AreaName) (s : State) :
    Host.Outcome State Fault Refusal :=
  if s.power = .off then
    let s1 := afterOutage backupHeld marker lost s
    .next (finish s1 (startPart (kindOfMarker s1.store.marker) s1))
  else .next s

/-- R40, R76: when the part loses power or takes a RESTART, the loop opens and the mover stops where it stands. Nothing
retained changes: the head stays MOVING. That from the instant a RESTART or FACTORY_CLEAR is taken the earpiece is muted
too (R6) and the answer lines released (R62; R83 says so of the start itself) is the model's choice (DESIGN CHOICE,
notes/assumptions 58). -/
def stopOutputs (s : State) : State :=
  { s with
    raised := []
    line := LineBlock.fresh none
    coin := { s.coin with mover := .idle, exitTimer := none, latch := .none }
    call := { s.call with earpiece := .silent } }

/-- POWER_FAIL (R180, R178): nothing runs any more but the clock; a write under way is torn, and those that would have
followed it are not made (R74). -/
def execPowerFail (torn : List AreaName) (s : State) : Host.Outcome State Fault Refusal :=
  if s.power = .off then .next s
  else
    let s1 := stopOutputs s
    .next { s1 with
      power := .off
      link := LinkBlock.fresh
      store := { s1.store with areas := (cutWrites torn s).foldl tearArea s1.store.areas } }

/-- START_COMPLETE (R185). -/
def execStartComplete (s : State) : Host.Outcome State Fault Refusal :=
  .next (if startDone s then finish s (completeStart s) else s)

/-- KEY_READING_END (R39), 30 ms after the start. -/
def execKeyReadingEnd (closed : List Key) (s : State) : Host.Outcome State Fault Refusal :=
  .next (if s.power = .starting ∧ s.store.start.keysRead = false then
      finish s (takeKeyReading closed (readingEnd s 30)) else s)

/-- HOOK_READING_END (R28), 100 ms after the start. -/
def execHookReadingEnd (offHook : Bool) (s : State) : Host.Outcome State Fault Refusal :=
  .next (if s.power = .starting ∧ s.store.start.hookRead = false then
      finish s (takeHookReading offHook (readingEnd s 100)) else s)

/-- SWITCH_READING_END (R137), 200 ms after the start. -/
def execSwitchReadingEnd (keyOn vaultOpen housingOpen : Bool) (s : State) : Host.Outcome State Fault Refusal :=
  .next (if s.power = .starting ∧ s.store.start.switchesRead = false then
      finish s (takeSwitchReading keyOn vaultOpen housingOpen (readingEnd s 200)) else s)

/-- CORD_READING_END (R154), 500 ms after the start. -/
def execCordReadingEnd (loopOpen : Bool) (s : State) : Host.Outcome State Fault Refusal :=
  .next (if s.power = .starting ∧ s.store.start.cordRead = false then
      finish s (takeCordReading loopOpen (readingEnd s 500)) else s)

/-- VOLTAGE_READING_END (R61), 2 s after the start. -/
def execVoltageReadingEnd (absentThroughout : Bool) (s : State) : Host.Outcome State Fault Refusal :=
  .next (if s.power = .starting ∧ s.store.start.voltageRead = false then
      finish s (takeVoltageReading absentThroughout (readingEnd s 2000)) else s)

end Sys2Proof.Machine
end

