-- ==== Sys2Proof/Machine/HostCommands.lean ====
section
/-! DEFINITION. The meanings of the host's commands (KIND hex 01 to 1C, R190) and of UNKNOWN_COMMAND: LINK's taking of a
command (R189, R199), its tests in order (R190), and each owner's rule. -/

namespace Sys2Proof.Machine

/-! ### Taking a command (R189, R190, R199) -/

/-- The reply to a command: its result code and contents. -/
def respond (kind : Byte) (r : Result) (body : List Byte) (s : State) : State :=
  placeReply (replyKind kind) (le1 r.code ++ body) s

/-- R189: LINK takes a sound command frame when no command is outstanding, the reply slot is empty and no frame that ended
before it waits; until then it waits behind them (DEDUCED, notes/assumptions 14). From the instant a restart is awaited, frames are discarded (R184). -/
def takeCommand (kind : Byte) (payload : List Byte) (f : State → State) (s : State) : State :=
  if alive s then
    if linkTakes s.link then
      finish s (f { s with link := { s.link with turn := false, outstanding := some kind } })
    else { s with link := { s.link with ended := s.link.ended ++ [.sound kind payload] } }
  else s

/-- R199, R190: until STARTED has been posted every command but STATUS is answered BUSY; then the payload's length is
tested, and the owner's rule follows. -/
def ownerRule {α : Type} (kind : Byte) (args : Option α) (f : α → State → State) (s : State) : State :=
  if s.power = .starting then respond kind .busy [] s
  else
    match args with
    | none => respond kind .length [] s
    | some a => f a s

/-- A command that is not STATUS. -/
def hostCommand {α : Type} (kind : Byte) (payload : List Byte) (args : List Byte → Option α) (f : α → State → State)
    (s : State) : State :=
  takeCommand kind payload (ownerRule kind (args payload) f) s

/-- A command's owner tests: the first that fails gives the result and changes nothing; otherwise the effect and the
reply's contents. -/
def decideReply (kind : Byte) (refusal : Option Result) (ok : State → State × List Byte) (s : State) : State :=
  match refusal with
  | some r => respond kind r [] s
  | none =>
    let a := ok s
    respond kind .ok a.2 a.1

/-- The first reason of a list of tests that holds. -/
def firstOf : List (Bool × Result) → Option Result
  | [] => none
  | (c, r) :: rest => if c then some r else firstOf rest

/-- An effect whose reply holds the result code alone. -/
def quietly (f : State → State) (s : State) : State × List Byte := (f s, [])

/-! ### STATUS (R191) -/

/-- SET is 0 and UNSET 1, in the order STORE's state list names them. -/
def clockCode (s : State) : List Byte := le1 (if s.store.clock.isSome then 0 else 1)

def statusBytes (s : State) : List Byte :=
  le1 s.call.state.code ++ optByte (s.call.level.map ServiceLevel.code) ++ le1 s.keys.hook.code
    ++ le1 s.line.state.code ++ le1 s.line.owner.code ++ le1 s.line.watch.code
    ++ le1 (inletState s).code ++ le1 s.coin.order.code ++ le1 s.coin.escrow.length ++ le1 s.coin.mover.code
    ++ le1 s.rate.phase.code ++ le1 s.bank.a.state.code ++ le1 s.bank.b.state.code
    ++ le2 s.vault.counters.total ++ le2 s.config.vaultCapacity ++ secondCode s.vault.nearFull
    ++ secondCode s.vault.full ++ switchCode s.vault.keyOn ++ switchCode s.vault.vaultOpen
    ++ switchCode s.vault.housingOpen ++ le1 s.vault.service.code
    ++ le1 s.incd.map.length ++ le1 (s.incd.map.filter Incident.unreported).length
    ++ le1 s.rpt.state.code ++ le1 s.rpt.failures ++ le1 s.rpt.urgentFailures ++ le2 (remainingSeconds s)
    ++ le1 s.store.log.records.length ++ le1 (logLevel s.store.log.records.length).code ++ le1 s.store.log.unlogged
    ++ clockCode s ++ markBytes s.config.terminalBlocked ++ markBytes s.link.noticeLost
    ++ le1 s.link.notices.length

/-- R191: STATUS reports, and the notice-lost flag is cleared. -/
def statusRule (s : State) : State :=
  respond 0x01 .ok (statusBytes s) { s with link := { s.link with noticeLost := false } }

/-- STATUS (R191, R199): answered also during a start. -/
def execStatus (payload : List Byte) (s : State) : Host.Outcome State Fault Refusal :=
  .next (takeCommand 0x01 payload (fun t => match noArgs? payload with
    | some _ => statusRule t
    | none => respond 0x01 .length [] t) s)

/-! ### Configuration (R193) -/

/-- CONFIG_SET's payload: one or more items, each of the length of its form (R190). -/
def configSetArgs? (payload : List Byte) : Option (List (Nat × List Byte)) :=
  match splitItems payload.length payload with
  | some [] => none
  | some items => if items.all itemLengthOk then some items else none
  | none => none

/-- R193: the values that would hold after the command, or none when it is refused with RANGE. -/
def configAfter (s : State) (items : List (Nat × List Byte)) : Option ConfigItems :=
  if (items.map Prod.fst).Nodup then
    match setItems? s.config items with
    | none => none
    | some c =>
      if configJoint c && (!namesVault items || vaultPairOk (vaultLoad s) c) then some c else none
  else none

/-- R193, R127: every item takes its new value; a vault change recomputes the states and posts VAULT. An item that is named
with its present value counts as a change (DESIGN CHOICE, notes/assumptions 65). -/
def applyConfig (items : List (Nat × List Byte)) (c : ConfigItems) (s : State) : State :=
  let s1 := { s with config := c }
  if namesVault items then postVault (vaultRefresh s1) else s1

def configSetRule (items : List (Nat × List Byte)) (s : State) : State :=
  match configAfter s items with
  | some c => respond 0x02 .ok [] (applyConfig items c s)
  | none => respond 0x02 .range [] s

/-- CONFIG_SET (R193, R127). -/
def execConfigSet (payload : List Byte) (s : State) : Host.Outcome State Fault Refusal :=
  .next (hostCommand 0x02 payload configSetArgs? configSetRule s)

/-- CONFIG_GET's payload: one or more item numbers. -/
def configGetArgs? : List Byte → Option (List Nat)
  | [] => none
  | b :: bs => some ((b :: bs).map BitVec.toNat)

def configGetBytes (c : ConfigItems) (items : List Nat) : List Byte := items.flatMap (fun i => le1 i ++ itemValue c i)

/-- R193: the numbers are 1..37, and the values fit in one reply of 119 payload bytes. -/
def configGetRule (items : List Nat) (s : State) : State :=
  decideReply 0x03
    (firstOf [(items.any (fun i => i == 0 || decide (37 < i)), .range),
      (decide (118 < (configGetBytes s.config items).length), .length)])
    (fun t => (t, configGetBytes t.config items)) s

/-- CONFIG_GET (R193). -/
def execConfigGet (payload : List Byte) (s : State) : Host.Outcome State Fault Refusal :=
  .next (hostCommand 0x03 payload configGetArgs? configGetRule s)

/-! ### Clock (R183) -/

def setClock (t : Nat) (s : State) : State :=
  judgeActivation { s with store := { s.store with clock := some t, nextTick := s.now + 1000 } }

def clockSetRule (t : Nat) (s : State) : State :=
  decideReply 0x04 (firstOf [(!validTime t, .range)]) (quietly (setClock t)) s

/-- CLOCK_SET (R183, R119). -/
def execClockSet (payload : List Byte) (s : State) : Host.Outcome State Fault Refusal :=
  .next (hostCommand 0x04 payload fourBytes? clockSetRule s)

/-- CLOCK_GET (R183): the clock state and the time. -/
def execClockGet (payload : List Byte) (s : State) : Host.Outcome State Fault Refusal :=
  .next (hostCommand 0x05 payload noArgs?
    (fun _ t => respond 0x05 .ok (clockCode t ++ timeBytes t.store.clock) t) s)

/-! ### Banks (R111 to R122) -/

def bankState (s : State) (n : BankName) : BankState := (s.bank.get n).state

/-- R111: the table of states. -/
def openRefusal : BankState → Option Result
  | .empty | .loading | .ready | .pending => none
  | .active => some .state
  | .retiring => some .busy

def bankOpenRule (a : Byte × List Byte) (s : State) : State :=
  match bankOf? a.1 with
  | none => respond 0x06 .range [] s
  | some n =>
    if 16 < a.2.length ∨ a.2.all printable = false then respond 0x06 .range [] s
    else decideReply 0x06 (openRefusal (bankState s n)) (quietly (openBank n a.2)) s

/-- BANK_OPEN (R111). -/
def execBankOpen (payload : List Byte) (s : State) : Host.Outcome State Fault Refusal :=
  .next (hostCommand 0x06 payload bankOpenArgs? bankOpenRule s)

/-- R112 steps 1 and 2: the bank's name, then its state LOADING; then the item's own tests and change, a refusal or
the new contents. -/
def loadingRule (kind bank : Byte) (item : BankContents → Except Result BankContents) (s : State) : State :=
  match bankOf? bank with
  | none => respond kind .range [] s
  | some n =>
    if bankState s n ≠ .loading then respond kind .state [] s
    else
      match item (s.bank.get n).contents with
      | .error r => respond kind r [] s
      | .ok c => respond kind .ok [] (setContents n c s)

/-- R113: the price carried: an initial charge in 3 bytes and four rates of 2. -/
def priceOf (b : List Byte) : Price :=
  ⟨ofLe (b.take 3), [ofLe ((b.drop 3).take 2), ofLe ((b.drop 5).take 2), ofLe ((b.drop 7).take 2),
    ofLe ((b.drop 9).take 2)]⟩

def priceInRange (p : Price) : Bool := decide (p.initial ≤ 65535) && p.rates.all (fun r => decide (r ≤ 60000))

/-- R113. -/
def putClass (cls : Nat) (marker : Byte) (b : List Byte) (c : BankContents) : Except Result BankContents :=
  if 31 < cls then .error .range
  else if marker = 0 then .ok { c with classes := c.classes.set cls none }
  else if marker = 1 ∧ priceInRange (priceOf b) = true then .ok { c with classes := c.classes.set cls (some (priceOf b)) }
  else .error .range

/-- BANK_PUT_CLASS (R112, R113). -/
def execBankPutClass (payload : List Byte) (s : State) : Host.Outcome State Fault Refusal :=
  .next (hostCommand 0x07 payload putClassArgs?
    (fun a => loadingRule 0x07 a.1 (putClass a.2.1 a.2.2.1 a.2.2.2)) s)

/-- R114: the entry carried, when every field is in range. -/
def entryOf? (n : Nat) (packed : List Byte) (kind : Byte) (cls lo hi : Nat) : Option TableEntry :=
  match symbolsIn? false 1 12 n packed, entryKindOf? kind with
  | some ds, some k =>
    if cls ≤ 31 ∧ ds.length ≤ lo ∧ lo ≤ hi ∧ hi ≤ 24 then some ⟨ds, k, cls, lo, hi⟩ else none
  | _, _ => none

/-- R114: replaced in place, or added while there is room. -/
def putTableEntry (e : Option TableEntry) (c : BankContents) : Except Result BankContents :=
  match e with
  | none => .error .range
  | some e =>
    if c.table.any (fun x => decide (x.digits = e.digits)) = false ∧ 128 ≤ c.table.length then .error .full
    else .ok { c with table := putEntry e c.table }

/-- BANK_PUT_PREFIX (R112, R114). -/
def execBankPutPrefix (payload : List Byte) (s : State) : Host.Outcome State Fault Refusal :=
  .next (hostCommand 0x08 payload putEntryArgs?
    (fun a => loadingRule 0x08 a.1
      (putTableEntry (entryOf? a.2.1 a.2.2.1 a.2.2.2.1 a.2.2.2.2.1 a.2.2.2.2.2.1 a.2.2.2.2.2.2))) s)

/-- R114: an entry is removed by its digit string. -/
def dropTableEntry (ds : Option (List Symbol)) (c : BankContents) : Except Result BankContents :=
  match ds with
  | none => .error .range
  | some ds =>
    if c.table.any (fun x => decide (x.digits = ds)) then
      .ok { c with table := c.table.filter (fun x => decide (x.digits ≠ ds)) }
    else .error .none

/-- BANK_DROP_PREFIX (R112, R114). -/
def execBankDropPrefix (payload : List Byte) (s : State) : Host.Outcome State Fault Refusal :=
  .next (hostCommand 0x09 payload dropEntryArgs?
    (fun a => loadingRule 0x09 a.1 (dropTableEntry (symbolsIn? false 1 12 a.2.1 a.2.2))) s)

/-- R115: the day type of a target, in the order WORKDAY, SATURDAY, SUNDAY_HOLIDAY. -/
def dayTypeOf? : Nat → Option DayType
  | 0 => some .workday
  | 1 => some .saturday
  | 2 => some .sundayHoliday
  | _ => none

/-- R115: the byte that stands for *drop* (hex FF, R198's absent band). -/
def dropMark : Nat := 255

/-- R115 for a day type. -/
def putDayPoint (d : DayType) (minute band : Nat) (c : BankContents) : Except Result BankContents :=
  let l := c.points d
  if 1439 < minute then .error .range
  else if band = dropMark then
    if l.any (fun p => p.minute == minute) then
      .ok (c.setPoints d (l.filter (fun p => p.minute != minute)))
    else .error .none
  else if 3 < band then .error .range
  else if l.any (fun p => p.minute == minute) = false ∧ 6 ≤ l.length then .error .full
  else .ok (c.setPoints d (putPoint ⟨minute, band⟩ l))

/-- R112 step 3, R115 for DEFAULT: the minute is 0 with a band; with drop it is any minute of day (DEDUCED,
notes/assumptions 54). -/
def putDefault (minute band : Nat) (c : BankContents) : Except Result BankContents :=
  if 1439 < minute then .error .range
  else if band = dropMark then .ok { c with defaultBand := none }
  else if 3 < band ∨ minute ≠ 0 then .error .range
  else .ok { c with defaultBand := some band }

/-- R115: the target is a day type or DEFAULT (3). -/
def putSchedule (target minute band : Nat) (c : BankContents) : Except Result BankContents :=
  match dayTypeOf? target with
  | some d => putDayPoint d minute band c
  | none => if target = 3 then putDefault minute band c else .error .range

/-- BANK_PUT_SCHEDULE (R112, R115). -/
def execBankPutSchedule (payload : List Byte) (s : State) : Host.Outcome State Fault Refusal :=
  .next (hostCommand 0x0A payload scheduleArgs?
    (fun a => loadingRule 0x0A a.1 (putSchedule a.2.1 a.2.2.1 a.2.2.2)) s)

/-- R116. -/
def putHolidayEntry (month day : Nat) (marker : Byte) (year : Option Nat) (c : BankContents) :
    Except Result BankContents :=
  if (marker ≠ 0 ∧ marker ≠ 1) ∨ validHoliday month day year = false then .error .range
  else if c.holidays.contains ⟨month, day, year⟩ then .error .state
  else if 16 ≤ c.holidays.length then .error .full
  else .ok { c with holidays := putHoliday ⟨month, day, year⟩ c.holidays }

/-- BANK_PUT_HOLIDAY (R112, R116). -/
def execBankPutHoliday (payload : List Byte) (s : State) : Host.Outcome State Fault Refusal :=
  .next (hostCommand 0x0B payload holidayArgs?
    (fun a => loadingRule 0x0B a.1 (putHolidayEntry a.2.1 a.2.2.1 a.2.2.2.1 a.2.2.2.2)) s)

/-- R117: the CHECK reply adds the fault kind and index, and the class of a CLASS_ABSENT entry. -/
def checkBytes (f : CloseFault) : List Byte :=
  le1 Result.check.code ++ le1 f.kind ++ le1 f.index ++ (match f.cls with | some c => le1 c | none => [])

def bankCloseRule (b : Byte) (s : State) : State :=
  match bankOf? b with
  | none => respond 0x0C .range [] s
  | some n =>
    if bankState s n ≠ .loading then respond 0x0C .state [] s
    else
      match closingFault (s.bank.get n).contents with
      | some f => placeReply (replyKind 0x0C) (checkBytes f) s
      | none => respond 0x0C .ok [] (moveBank n .ready .closed s)

/-- BANK_CLOSE (R117). -/
def execBankClose (payload : List Byte) (s : State) : Host.Outcome State Fault Refusal :=
  .next (hostCommand 0x0C payload oneByte? bankCloseRule s)

/-- R118: the table of states. -/
def activateRefusal (this other : BankState) : Option Result :=
  match this with
  | .ready => if other = .pending then some .busy else none
  | .empty | .loading | .pending | .active | .retiring => some .state

def bankActivateRule (a : Byte × Nat) (s : State) : State :=
  match bankOf? a.1, whenOf? a.2 with
  | some n, some w =>
    decideReply 0x0D (activateRefusal (bankState s n) (bankState s (otherBank n))) (quietly (scheduleBank n w)) s
  | _, _ => respond 0x0D .range [] s

/-- BANK_ACTIVATE (R118, R119). -/
def execBankActivate (payload : List Byte) (s : State) : Host.Outcome State Fault Refusal :=
  .next (hostCommand 0x0D payload activateArgs? bankActivateRule s)

/-- R121: PENDING becomes READY with its contents; LOADING becomes EMPTY. -/
def cancelBank (n : BankName) (s : State) : State :=
  let b := s.bank.get n
  if b.state = .pending then moveBank n .ready .cancelled (setBank n { b with due := none } s)
  else moveBank n .empty .cancelled (setContents n BankContents.emptied s)

/-- R121. -/
def cancelRefusal : BankState → Option Result
  | .pending | .loading => none
  | .empty | .ready | .active | .retiring => some .state

def bankCancelRule (b : Byte) (s : State) : State :=
  match bankOf? b with
  | none => respond 0x0E .range [] s
  | some n => decideReply 0x0E (cancelRefusal (bankState s n)) (quietly (cancelBank n)) s

/-- BANK_CANCEL (R121). -/
def execBankCancel (payload : List Byte) (s : State) : Host.Outcome State Fault Refusal :=
  .next (hostCommand 0x0E payload oneByte? bankCancelRule s)

/-- R122: the pending time: absent, *now* or a time. -/
def dueBytes : Option When → List Byte
  | none => le4 absentTime
  | some .now => le4 nowTime
  | some (.time t) => le4 t

/-- R122 and its layout. -/
def bankInfoBytes (n : BankName) (s : State) : List Byte :=
  let b := s.bank.get n
  let c := b.contents
  le1 b.state.code ++ labelBytes c.label ++ optByte c.defaultBand
    ++ le1 (c.classes.filter Option.isSome).length ++ le1 c.workday.length ++ le1 c.saturday.length
    ++ le1 c.sunday.length ++ le1 c.holidays.length ++ le1 c.table.length ++ markBytes (s.bank.inUse n)
    ++ le4 b.serial ++ dueBytes b.due ++ markBytes (decide (b.state = .pending) && s.store.clock.isNone)

def bankInfoRule (b : Byte) (s : State) : State :=
  match bankOf? b with
  | none => respond 0x0F .range [] s
  | some n => respond 0x0F .ok (bankInfoBytes n s) s

/-- BANK_INFO (R122). -/
def execBankInfo (payload : List Byte) (s : State) : Host.Outcome State Fault Refusal :=
  .next (hostCommand 0x0F payload oneByte? bankInfoRule s)

/-! ### SNAPSHOT (R108) -/

def RateFlags.byte (f : RateFlags) : Nat :=
  (if f.clockUnset then 1 else 0) + (if f.periodClamped then 2 else 0) + (if f.bandChanged then 4 else 0)
    + (if f.pulseFallback then 8 else 0) + (if f.longPulse then 16 else 0)

/-- The ACCOUNT group; in INACTIVE, K is the carried-in amount of the open record. -/
def accountGroup (s : State) : List Byte :=
  let a := s.rate.acct
  le3 (if s.rate.phase = .inactive then openCarried s else a.carried) ++ le3 a.collected ++ le3 a.charged ++ le3 a.unused
    ++ le3 a.due ++ le3 (callE s) ++ le3 a.unsettled ++ le2 (a.last.getD 0) ++ le2 s.rate.periods ++ le2 s.rate.pulses
    ++ le1 s.rate.flags.byte

def entryBytes (e : EscrowEntry) : List Byte :=
  le1 e.denom ++ le2 e.value ++ le1 ((if e.suspect then 1 else 0) + (if e.moving.isSome then 2 else 0))

def escrowGroup (s : State) : List Byte :=
  le1 s.coin.order.code ++ markBytes s.coin.transit.isSome ++ le1 s.coin.escrow.length
    ++ s.coin.escrow.flatMap entryBytes

def dialGroup (s : State) : List Byte :=
  digitString s.keys.buffer ++ optByte (s.keys.best.map (fun m => m.kind.code))

/-- The period's start and end in tenths after answer; in METER, 0 and the tenths left on the supervision timer. -/
def periodSpan (s : State) : Nat × Nat :=
  match s.rate.mode, s.rate.period with
  | some .meter, _ => (0, ((s.rate.superTimer.getD s.now) - s.now) / 100)
  | _, some p => (tenths s.rate.answerAt p.startAt, tenths s.rate.answerAt p.endAt)
  | _, none => (0, 0)

/-- R108's PERIOD group. Its "carried remainder" is the new remainder of R98, which the running period keeps and its successor
carries; the rule may also mean the one carried in (DESIGN CHOICE, notes/assumptions 53). -/
def periodGroup (s : State) : List Byte :=
  optByte s.rate.band ++ le2 s.rate.rate ++ le2 ((s.rate.period.map Period.remainder).getD 0)
    ++ le3 (periodSpan s).1 ++ le3 (periodSpan s).2

def snapshotBytes (sel : Nat) (s : State) : List Byte :=
  let live := rating s
  let acc := sel.testBit 0
  let esc := sel.testBit 1
  let dial := sel.testBit 2
  let per := sel.testBit 3
  let groups := (if acc then 1 else 0) + (if esc then 2 else 0) + (if dial then 4 else 0)
    + (if per && live then 8 else 0) + (if per && !live then 16 else 0)
    + (if esc && escrowElsewhere s then 32 else 0)
  le1 s.call.state.code ++ le1 (openKind s).code ++ optByte (openCls s) ++ le1 s.rate.phase.code
    ++ optByte (s.rate.mode.map RatingMode.code) ++ le1 groups
    ++ (if acc then accountGroup s else []) ++ (if esc then escrowGroup s else [])
    ++ (if dial then dialGroup s else []) ++ (if per && live then periodGroup s else [])

def snapshotRule (b : Byte) (s : State) : State :=
  decideReply 0x10 (firstOf [(decide (16 ≤ b.toNat), .range)]) (fun t => (t, snapshotBytes b.toNat t)) s

/-- SNAPSHOT (R108). -/
def execSnapshot (payload : List Byte) (s : State) : Host.Outcome State Fault Refusal :=
  .next (hostCommand 0x10 payload oneByte? snapshotRule s)

/-! ### The call log (R176, R177) -/

/-- The held records from sequence number `n` onward. -/
def recordsFrom (n : Nat) : List CallRecord → List CallRecord
  | [] => []
  | r :: rs => if r.seq = n then r :: rs else recordsFrom n rs

/-- A record as its length byte and link form. -/
def recordItem (r : CallRecord) : List Byte :=
  let f := linkForm r
  le1 f.length ++ f

/-- R176: at most `count` whole records within `room` bytes; the first answer is what they hold. -/
def fitRecords : Nat → Nat → List CallRecord → List CallRecord
  | 0, _, _ => []
  | _, _, [] => []
  | k + 1, room, r :: rs =>
    if (recordItem r).length ≤ room then r :: fitRecords k (room - (recordItem r).length) rs else []

/-- R176: at least one record, and as many as fit (119 payload bytes less the 6 that open the reply). -/
def carriedRecords (count : Nat) : List CallRecord → List CallRecord
  | [] => []
  | r :: rs => r :: fitRecords (count - 1) (113 - (recordItem r).length) rs

def logReadBytes (count : Nat) (l : List CallRecord) : List Byte :=
  let c := carriedRecords count l
  le1 c.length ++ le4 (((l.drop c.length).head?.map CallRecord.seq).getD 0) ++ c.flatMap recordItem

/-- R176: 0 is the oldest held record. -/
def readFrom (n : Nat) (l : LogArea) : List CallRecord := if n = 0 then l.records else recordsFrom n l.records

def logReadRule (a : Nat × Nat) (s : State) : State :=
  decideReply 0x11
    (firstOf [(a.2 == 0 || decide (4 < a.2), .range), ((readFrom a.1 s.store.log).isEmpty, .none)])
    (fun t => (t, logReadBytes a.2 (readFrom a.1 t.store.log))) s

/-- LOG_READ (R176, R173). -/
def execLogRead (payload : List Byte) (s : State) : Host.Outcome State Fault Refusal :=
  .next (hostCommand 0x11 payload logReadArgs? logReadRule s)

/-- R177: the records after sequence number `n`. -/
def recordsAfter (n : Nat) (l : List CallRecord) : List CallRecord := (recordsFrom n l).drop 1

/-- R177. -/
def releaseLog (n : Nat) (s : State) : State × List Byte :=
  let l := s.store.log
  let rest := recordsAfter n l.records
  (setLog { l with records := rest, unlogged := 0 } s,
    le1 (l.records.length - rest.length) ++ le1 rest.length ++ le1 l.unlogged)

def logReleaseRule (n : Nat) (s : State) : State :=
  decideReply 0x12 (firstOf [((recordsFrom n s.store.log.records).isEmpty, .none)]) (releaseLog n) s

/-- LOG_RELEASE (R177). -/
def execLogRelease (payload : List Byte) (s : State) : Host.Outcome State Fault Refusal :=
  .next (hostCommand 0x12 payload fourBytes? logReleaseRule s)

/-! ### Incidents (R151, R152) -/

def incidentListBytes (n : Nat) (s : State) : List Byte :=
  le1 s.incd.map.length ++ le1 n ++ (((reportingOrder s.incd.map).drop n).take 8).flatMap listEntry

def incidentListRule (b : Byte) (s : State) : State :=
  decideReply 0x13 (firstOf [(decide (12 ≤ b.toNat), .range)]) (fun t => (t, incidentListBytes b.toNat t)) s

/-- INCIDENT_LIST (R151, R197). -/
def execIncidentList (payload : List Byte) (s : State) : Host.Outcome State Fault Refusal :=
  .next (hostCommand 0x13 payload oneByte? incidentListRule s)

/-- R152: one entry is removed, with its CLEARED notice. -/
def clearEntry (e : Incident) (s : State) : State :=
  postIncident e .cleared (setMap (removeIncident e.kind s.incd.map) s)

/-- R152: ALL removes every inactive entry, in the reporting order. -/
def clearAll (s : State) : State × List Byte :=
  let gone := (reportingOrder s.incd.map).filter (fun e => !e.active)
  (gone.foldl (fun t e => clearEntry e t) s,
    le1 gone.length ++ le1 (s.incd.map.length - gone.length))

def outsideService (s : State) : Bool := decide (s.vault.service ≠ .service)

def clearOne (k : IncidentKind) (s : State) : State :=
  match findIncident k s.incd.map with
  | none => respond 0x14 .none [] s
  | some e => if e.active then respond 0x14 .state [] s else respond 0x14 .ok [] (clearEntry e s)

def incidentClearRule (b : Byte) (s : State) : State :=
  match incidentScope? b with
  | none => respond 0x14 .range [] s
  | some scope =>
    if outsideService s then respond 0x14 .service [] s
    else
      match scope with
      | some k => clearOne k s
      | none => decideReply 0x14 none clearAll s

/-- INCIDENT_CLEAR (R152). -/
def execIncidentClear (payload : List Byte) (s : State) : Host.Outcome State Fault Refusal :=
  .next (hostCommand 0x14 payload oneByte? incidentClearRule s)

/-! ### Vault (R128, R134) -/

/-- R128; the open time is absent when no collection is in progress. -/
def vaultReadBytes (s : State) : List Byte :=
  counterBytes s.vault.counters ++ le1 s.coin.escrow.length ++ le2 (vaultLoad s) ++ le2 s.config.vaultCapacity
    ++ le2 s.config.nearFullMark ++ secondCode s.vault.nearFull ++ secondCode s.vault.full
    ++ switchCode s.vault.keyOn ++ switchCode s.vault.vaultOpen ++ switchCode s.vault.housingOpen
    ++ le1 s.vault.service.code ++ markBytes s.vault.progress.isSome ++ timeBytes (s.vault.progress.getD none)

/-- VAULT_READ (R128). -/
def execVaultRead (payload : List Byte) (s : State) : Host.Outcome State Fault Refusal :=
  .next (hostCommand 0x15 payload noArgs? (fun _ t => respond 0x15 .ok (vaultReadBytes t) t) s)

def collectionReadRule (s : State) : State :=
  match s.vault.last with
  | some r => respond 0x16 .ok (collectionBytes r) s
  | none => respond 0x16 .none [] s

/-- COLLECTION_READ (R134). -/
def execCollectionRead (payload : List Byte) (s : State) : Host.Outcome State Fault Refusal :=
  .next (hostCommand 0x16 payload noArgs? (fun _ => collectionReadRule) s)

/-! ### Terminal block (R4) and REPORT_NOW (R169) -/

def setBlocked (v : Bool) (s : State) : State := { s with config := { s.config with terminalBlocked := v } }

/-- TERMINAL_BLOCK (R4). -/
def execTerminalBlock (payload : List Byte) (s : State) : Host.Outcome State Fault Refusal :=
  .next (hostCommand 0x17 payload noArgs? (fun _ t => respond 0x17 .ok [] (setBlocked true t)) s)

/-- TERMINAL_UNBLOCK (R4). -/
def execTerminalUnblock (payload : List Byte) (s : State) : Host.Outcome State Fault Refusal :=
  .next (hostCommand 0x18 payload noArgs? (fun _ t => respond 0x18 .ok [] (setBlocked false t)) s)

/-- R169: the tests in order. -/
def reportNowRefusal (s : State) : Option Result :=
  firstOf [(s.config.terminalId.isEmpty || s.config.centreNumber.isEmpty, .state),
    (!s.incd.map.any Incident.unreported, .none), (attempting s.rpt.state, .busy)]

def reportNow (s : State) : State := if s.rpt.state = .wait then endWait s else s

/-- REPORT_NOW (R169). -/
def execReportNow (payload : List Byte) (s : State) : Host.Outcome State Fault Refusal :=
  .next (hostCommand 0x19 payload noArgs?
    (fun _ t => decideReply 0x19 (reportNowRefusal t) (quietly reportNow) t) s)

/-! ### ACTUATE (R135, R136, R81, R82) -/

/-- R135 tests 1 and 2: the action byte must be the row's own. -/
def actuateRule (action : Byte) (f : State → State) (b : Byte) (s : State) : State :=
  if b ≠ action then respond 0x1A .range [] s
  else if outsideService s then respond 0x1A .service [] s
  else f s

/-- R135 test 3, R136: a blind stroke; the command stays outstanding until it ends. -/
def blindRule (k : Stroke) (s : State) : State :=
  if callExists s.call.state then respond 0x1A .busy [] s
  else
    match blindRefusal k s with
    | some r => respond 0x1A r [] s
    | none => beginBlind k s

/-- REFUND_ONE (R135, R136, R81); an ACTUATE that names no action is answered here, RANGE (R135 test 1). -/
def execRefundOne (payload : List Byte) (s : State) : Host.Outcome State Fault Refusal :=
  .next (hostCommand 0x1A payload oneByte? (actuateRule 0 (blindRule .refund)) s)

/-- COLLECT_TEST_ONE (R135, R136, R81). -/
def execCollectTestOne (payload : List Byte) (s : State) : Host.Outcome State Fault Refusal :=
  .next (hostCommand 0x1A payload oneByte? (actuateRule 1 (blindRule .collect)) s)

/-- R82, R69: the flag is cleared; with the jam line asserted, its timer starts again. -/
def restoreInlet (s : State) : State :=
  endCondition .inletJam { s with coin := { s.coin with
    inletFault := false, unconfirmed := 0
    jamTimer := if s.pins.jam then s.after jamLineMs else s.coin.jamTimer } }

def restoreInletRule (s : State) : State :=
  decideReply 0x1A (firstOf [(!s.coin.inletFault, .state)]) (quietly restoreInlet) s

/-- RESTORE_INLET (R135, R136, R82). -/
def execRestoreInlet (payload : List Byte) (s : State) : Host.Outcome State Fault Refusal :=
  .next (hostCommand 0x1A payload oneByte? (actuateRule 2 restoreInletRule) s)

/-- R82: IN_ORDER again; the stranded tally is reported and set to zero. -/
def restoreEscrow (s : State) : State × List Byte :=
  (endCondition .escrowJam { s with coin := { s.coin with order := .inOrder, strandedTally := {} } },
    le1 s.coin.strandedTally.coins ++ le3 s.coin.strandedTally.value)

/-- RESTORE_ESCROW (R135, R136, R82). -/
def execRestoreEscrow (payload : List Byte) (s : State) : Host.Outcome State Fault Refusal :=
  .next (hostCommand 0x1A payload oneByte? (actuateRule 3 (decideReply 0x1A none restoreEscrow)) s)

/-! ### RESTART and FACTORY_CLEAR (R184) -/

/-- R184: the marker is written and no other block takes an event from here on; the loop opens and the mover stops
(R40, R76). -/
def awaitStart (m : Marker) (s : State) : State :=
  let s1 := stopOutputs s
  { s1 with power := .halted, store := { s1.store with marker := m } }

/-- R184, R181: RESTART keeps the end instant in CALL's area. -/
def restartRule (s : State) : State :=
  let s1 := { s with call := { s.call with restartEnd := some (s.now, s.store.clock) } }
  respond 0x1B .ok [] (awaitStart .restarting s1)

/-- RESTART (R184). -/
def execRestart (payload : List Byte) (s : State) : Host.Outcome State Fault Refusal :=
  .next (hostCommand 0x1B payload noArgs? (fun _ => restartRule) s)

/-- FACTORY_CLEAR (R184, R135 test 2). -/
def execFactoryClear (payload : List Byte) (s : State) : Host.Outcome State Fault Refusal :=
  .next (hostCommand 0x1C payload noArgs?
    (fun _ => fun t => decideReply 0x1C (firstOf [(outsideService t, .service)]) (quietly (awaitStart .clearing)) t) s)

/-! ### UNKNOWN_COMMAND (R188, R190) -/

/-- The KIND of the reply: the command KIND plus hex 80 for hex 1D..3F, hex FF for a KIND that is not a command. -/
def unknownKind (kind : Byte) : Byte := if kind = 0 ∨ 0x40 ≤ kind.toNat then 0xFF else replyKind kind

/-- UNKNOWN_COMMAND (R188, R190 test 1): answered UNKNOWN, also during a start, since it is no command. -/
def execUnknownCommand (kind : Byte) (payload : List Byte) (s : State) : Host.Outcome State Fault Refusal :=
  .next (takeCommand kind payload (placeReply (unknownKind kind) (le1 Result.unknown.code)) s)

end Sys2Proof.Machine
end

