-- ==== Sys2Proof/Machine/CoinEvents.lean ====
section
/-! DEFINITION. The meanings of COIN's events: the validator's strobe (R62 to R64), entry transit (R67, R68), the jam line
(R69), the vault and return sensors (R70, R74, R81, R85), the exit timer (R75), chute reversal (R79, R80). -/

namespace Sys2Proof.Machine

/-! ### The validator (R62 to R64, R67) -/

def setLatch (l : Latch) (s : State) : State := { s with coin := { s.coin with latch := l } }

/-- R63, R67: an ACCEPT creates the entry transit record. -/
def acceptCoin (code : Nat) (suspect : Bool) (s : State) : State :=
  let s1 := setLatch .accept s
  { s1 with coin := { s1.coin with
      transit := some ⟨code, s.config.denomValue.getD (code - 1) 0, suspect, s.now, s.now + confirmationMs⟩ } }

/-- R62 to R64: the answer to a rise of the strobe. -/
def answerStrobe (code : Nat) (suspect : Bool) (s : State) : State :=
  match rejectReason code s with
  | some r => postCoin (.rejected r code) (setLatch .reject s)
  | none => acceptCoin code suspect s

/-- VALIDATOR_STROBE (R62, R63). -/
def execValidatorStrobe (code : BitVec 4) (suspect : Bool) (s : State) : Host.Outcome State Fault Refusal :=
  .next (stepAlive (answerStrobe code.toNat suspect) s)

/-- STROBE_FALL (R62): the latch returns to NONE. -/
def execStrobeFall (s : State) : Host.Outcome State Fault Refusal := .next (stepAlive (setLatch .none) s)

/-! ### Entry transit (R67, R68, R70) -/

/-- R67 steps 1 and 2. -/
def appendCoin (t : Transit) (s : State) : State :=
  vaultRefresh { s with coin := { s.coin with
    escrow := s.coin.escrow ++ [⟨t.denom, t.value, t.suspect, some s.now, none, false⟩]
    transit := none
    unconfirmed := 0 } }

/-- R67 step 3: the open record counts the coin under its denomination. -/
def countAccepted (t : Transit) (r : CallRecord) : CallRecord :=
  { r with
    accepted := bumpNth (t.denom - 1) r.accepted
    flags := { r.flags with suspectCoin := r.flags.suspectCoin || t.suspect } }

/-- The open slot at a confirmation: its record counts the coin, now the escrow's last, and the slot keeps that coin's number
(the model's own, notes/assumptions 97). -/
def countEntered (t : Transit) (s : State) : State :=
  setOpen (s.call.openSlot.map (fun sl =>
    { sl with record := countAccepted t sl.record, lastCoin := some (enteredCoins s.coin, t.denom) })) s

/-- R67: a coin is confirmed. Its notice is posted after what RATE and CALL do at that instant, and shows the escrow that they
leave (DESIGN CHOICE, notes/assumptions 92). -/
def confirmCoin (t : Transit) (s : State) : State :=
  let s1 := countEntered t (appendCoin t s)
  coinSettled (postCoin (.accepted t.denom t.value t.suspect) (depositAgain (actVerdict (coinOutcome s1))))

/-- ENTRY_SENSOR (R67, R70): a coin in transit is confirmed; any other report is stray, sensor entry. -/
def execEntrySensor (s : State) : Host.Outcome State Fault Refusal :=
  .next (stepAlive (fun u =>
    match u.coin.transit with
    | some t => confirmCoin t u
    | none => postCoin (.stray 0) u) s)

/-- R68, R69: the inlet-fault flag is set, with an occurrence of INLET_JAM; already set, nothing. -/
def setInletFault (s : State) : State :=
  if s.coin.inletFault then s
  else countOccurrence .inletJam { s with coin := { s.coin with inletFault := true } }

/-- R68: the consecutive-unconfirmed count rises, and reaches 2. -/
def countUnconfirmed (s : State) : State :=
  let n := min 2 (s.coin.unconfirmed + 1)
  let s1 := { s with coin := { s.coin with unconfirmed := n } }
  if n = 2 then setInletFault s1 else s1

/-- R68: a coin is unconfirmed. -/
def loseCoin (t : Transit) (s : State) : State :=
  let s1 := postCoin (.unconfirmed t.denom t.value) { s with coin := { s.coin with transit := none } }
  let s2 := modifyOpen (fun r => { r with unconfirmed := r.unconfirmed + 1 }) s1
  coinSettled (actVerdict (coinOutcome (countUnconfirmed s2)))

/-- CONFIRMATION_WINDOW_END (R68). -/
def execConfirmationWindowEnd (s : State) : Host.Outcome State Fault Refusal :=
  .next (stepAlive (fun u =>
    match u.coin.transit with
    | some t => loseCoin t (reach (some t.windowEnd) u)
    | none => u) s)

/-! ### The jam line (R69) -/

def setJam (v : Bool) (s : State) : State := { s with pins := { s.pins with jam := v } }

def setJamTimer (t : Option Nat) (s : State) : State := { s with coin := { s.coin with jamTimer := t } }

/-- JAM_LINE_ASSERTED (R69): the timer starts at 1 s. Without power only the line's level changes (R83 reads it). -/
def execJamLineAsserted (s : State) : Host.Outcome State Fault Refusal :=
  .next (
    if s.pins.jam then s
    else if alive s then stepAlive (fun t => setJamTimer (t.after jamLineMs) (setJam true t)) s
    else setJam true s)

/-- JAM_LINE_RELEASED (R69): the timer stops. -/
def execJamLineReleased (s : State) : Host.Outcome State Fault Refusal :=
  .next (if alive s then stepAlive (fun t => setJamTimer none (setJam false t)) s else setJam false s)

/-- JAM_LINE_TIMEOUT (R69). -/
def execJamLineTimeout (s : State) : Host.Outcome State Fault Refusal :=
  .next (stepAlive (fun t =>
    match t.coin.jamTimer with
    | some d => setInletFault (setJamTimer none (reach (some d) t))
    | none => t) s)

/-! ### The sensors of the mover (R70, R74, R81, R85) -/

/-- R136, R81: the reply to a blind stroke's command, if the command is still outstanding. -/
def replyBlind (passed : Bool) (s : State) : State :=
  match s.link.outstanding with
  | some k => respond k .ok (markBytes passed) s
  | none => s

/-- The head entry and the number of its COLLECT stroke. -/
def headStroke (s : State) : Option (EscrowEntry × Nat) :=
  match s.coin.escrow with
  | e :: _ => some (e, (e.moving.map Prod.snd).getD s.coin.strokeNo)
  | [] => none

/-- R81, R125: a blind COLLECT passes a coin: VAULT counts one of unknown denomination. -/
def blindCollected (s : State) : State :=
  replyBlind true (postCoin (.collected none)
    (postVault (vaultRefresh (setCounters s.vault.counters.blind (restMover s)))))

/-- R74: a confirmed COLLECT of the head: VAULT, then RATE, then the notice. -/
def collectConfirmed (e : EscrowEntry) (n : Nat) (s : State) : State :=
  postCoin (.collected (some (e.denom, e.value))) (actVerdict (creditCollected e.value n (collectHead e n s)))

/-- VAULT_SENSOR (R74, R81, R70): confirms a COLLECT stroke, passes a blind one, or is stray, sensor vault. -/
def execVaultSensor (s : State) : Host.Outcome State Fault Refusal :=
  .next (stepAlive (fun t =>
    if t.coin.mover = .collecting then
      if t.coin.blind then coinSettled (blindCollected t)
      else
        match headStroke t with
        | some (e, n) => coinSettled (collectConfirmed e n t)
        | none => postCoin (.stray 1) t
    else postCoin (.stray 1) t) s)

/-- R85: after a stroke that passed a coin the purge goes on, or after its thirteenth sets the escrow OUT_OF_ORDER. COIN is
posted before the INCIDENT of that ESCROW_JAM (DESIGN CHOICE, notes/assumptions 93). -/
def purgePassed (s : State) : State :=
  let s1 := postCoin (.refunded none) { s with coin := { s.coin with purgeCount := s.coin.purgeCount.map (· + 1) } }
  if 13 ≤ s1.coin.purgeStrokes then endPurge (escrowFails s1)
  else beginBlind .refund { s1 with coin := { s1.coin with purgeStrokes := s1.coin.purgeStrokes + 1 } }

/-- R81: a blind REFUND passes a coin. -/
def blindRefunded (s : State) : State := replyBlind true (postCoin (.refunded none) (restMover s))

/-- RETURN_SENSOR (R74, R81, R85, R70): confirms a REFUND stroke, passes a blind one or one of the purge, or is stray,
sensor return. -/
def execReturnSensor (s : State) : Host.Outcome State Fault Refusal :=
  .next (stepAlive (fun t =>
    if t.coin.mover = .refunding then
      if t.coin.blind then coinSettled (if t.coin.run = .purge then purgePassed t else blindRefunded t)
      else
        match t.coin.escrow with
        | e :: _ => coinSettled (refundHead e t)
        | [] => postCoin (.stray 2) t
    else postCoin (.stray 2) t) s)

/-- R75, R85, R81: the exit timer has expired with no report. A jammed COLLECT lets RATE go on (R92). -/
def strokeEnds (s : State) : State :=
  if s.coin.blind then
    if s.coin.run = .purge then endPurge s else replyBlind false (restMover s)
  else
    match s.coin.escrow with
    | e :: _ =>
      if s.coin.mover = .collecting then actVerdict (settleDue (jamHead e .collect s)) else jamHead e .refund s
    | [] => restMover s

/-- EXIT_TIMER_EXPIRY (R75). -/
def execExitTimerExpiry (s : State) : Host.Outcome State Fault Refusal :=
  .next (stepAlive (fun t =>
    match t.coin.exitTimer with
    | some d => coinSettled (strokeEnds (reach (some d) t))
    | none => t) s)

/-! ### Chute reversal (R79, R80) -/

/-- REVERSAL_PULSE (R79, R80). -/
def execReversalPulse (s : State) : Host.Outcome State Fault Refusal :=
  .next (stepAlive (fun t =>
    markRecent (countOccurrence .chuteReversal { t with coin := { t.coin with lockoutTimer := t.after lockoutMs } })) s)

/-- LOCKOUT_EXPIRY (R79). -/
def execLockoutExpiry (s : State) : Host.Outcome State Fault Refusal :=
  .next (stepAlive (fun t =>
    match t.coin.lockoutTimer with
    | some d =>
      let u := reach (some d) t
      endCondition .chuteReversal { u with coin := { u.coin with lockoutTimer := none } }
    | none => t) s)

end Sys2Proof.Machine
end

