-- ==== Sys2Proof/Machine/IncidentEvents.lean ====
section
/-! DEFINITION. The meanings of INCD's own sensors: the cord loop (R139) and the shock sensor (R140, R141). -/

namespace Sys2Proof.Machine

/-- The cord loop state with its pin. -/
def setCord (v : Bool) (s : State) : State :=
  { s with
    pins := { s.pins with cordOpen := v }, samplers := { s.samplers with cord := none }
    incd := { s.incd with cordOpen := some v } }

/-- CORD_LOOP_OPEN (R139): an occurrence of CORD_CUT. -/
def execCordLoopOpen (s : State) : Host.Outcome State Fault Refusal :=
  .next (stepAlive (fun t =>
    if t.incd.cordOpen = some false then countOccurrence .cordCut (setCord true t) else t) s)

/-- CORD_LOOP_CLOSED (R139): the condition ends. -/
def execCordLoopClosed (s : State) : Host.Outcome State Fault Refusal :=
  .next (stepAlive (fun t =>
    if t.incd.cordOpen = some true then endCondition .cordCut (setCord false t) else t) s)

def setWindow (w : List Nat) (s : State) : State := { s with incd := { s.incd with window := w } }

/-- R141: the instants no more than 10 s before the new pulse. -/
def recentPulses (now : Nat) (w : List Nat) : List Nat := w.filter (fun t => decide (now - t ≤ shockWindowMs))

/-- R141: the third pulse within 10 s is an occurrence of SHOCK. -/
def shockPulseAct (s : State) : State :=
  let w := recentPulses s.now s.incd.window
  if 2 ≤ w.length then countOccurrence .shock (setWindow [] s) else setWindow (w ++ [s.now]) s

/-- SHOCK_PULSE (R140, R141). -/
def execShockPulse (s : State) : Host.Outcome State Fault Refusal := .next (stepAlive shockPulseAct s)

end Sys2Proof.Machine
end

