-- ==== Sys2Proof/Machine/KeyEvents.lean ====
section
/-! DEFINITION. The meanings of the key, digit-timer and hook events (R25 to R33, R28), with what CALL and RPT make of a
hook change (R8, R16, R18, R20, R167). -/

namespace Sys2Proof.Machine

/-- KEY_PRESS (R24, R25, R27): a contact debounced closed, once the first reading has been given (R39). -/
def execKeyPress (k : Key) (s : State) : Host.Outcome State Fault Refusal :=
  .next (stepAlive (fun t =>
    let t1 := settleCrossing k true t
    if t.store.start.keysRead then pressKey k t1 else t1) s)

/-- KEY_RELEASE (R24, R25, R26): a contact debounced open. -/
def execKeyRelease (k : Key) (s : State) : Host.Outcome State Fault Refusal :=
  .next (stepAlive (fun t =>
    let t1 := settleCrossing k false t
    if t.store.start.keysRead then releaseKey k t1 else t1) s)

/-- STUCK_TIMER_EXPIRY (R25, R26). -/
def execStuckTimerExpiry (k : Key) (s : State) : Host.Outcome State Fault Refusal :=
  .next (stepAlive (fun t =>
    match (cellOf k t.keys).stuckTimer with
    | some d => stickKey k (reach (some d) t)
    | none => t) s)

/-- FIRST_DIGIT_TIMEOUT (R31, R9): the call ends INCOMPLETE with kind NONE. -/
def execFirstDigitTimeout (s : State) : Host.Outcome State Fault Refusal :=
  .next (stepAlive (fun t =>
    match t.keys.firstDigitTimer with
    | some d =>
      if t.keys.collection = .awaitFirst then numberFails .incomplete .none (keysStop (reach (some d) t)) else t
    | none => t) s)

/-- INTER_DIGIT_TIMEOUT (R32, R36). -/
def execInterDigitTimeout (s : State) : Host.Outcome State Fault Refusal :=
  .next (stepAlive (fun t =>
    match t.keys.interDigitTimer with
    | some d => if t.keys.collection = .collectingDigits then analyseTimeout (reach (some d) t) else t
    | none => t) s)

/-! ### The hook (R28) -/

/-- The debounced hook state and its pin. -/
def setHook (h : Hook) (s : State) : State :=
  { s with
    pins := { s.pins with hookOff := decide (h = .offHook) }
    samplers := { s.samplers with hook := none }
    keys := { s.keys with hook := h } }

/-- R18 path (d): the refund of step 5 is still running, and the closing slot is empty. -/
def pathD (s : State) : Bool :=
  s.call.replaced && decide (s.rate.phase = .inactive) && s.coin.transit.isNone && s.call.refundAsked
    && decide (s.coin.run = .callEnd) && s.call.closingSlot.isNone

/-- R18 path (d): the ended record moves to the closing slot, and a new call begins. -/
def moveToClosing (s : State) : State :=
  beginCall { s with call := { s.call with closingSlot := s.call.openSlot, openSlot := none } }

/-- R6: CLEARING has REJECT while the handset is off-hook and SILENT while it is on-hook. -/
def clearingTone (s : State) : State :=
  { s with call := { s.call with earpiece := stateTone s.keys.hook .clearing, toneSince := s.now } }

/-- CALL takes a hook-off event (R8, R18). Every change posts a HOOK notice; `beginCall` posts its own. -/
def callHookOff (s : State) : State :=
  match s.call.state with
  | .idle => beginCall s
  | .clearing => if pathD s then moveToClosing s else clearingTone (postHook s)
  | .collecting | .awaitDeposit | .waitLine | .seizing | .sending | .ringing | .connected | .followOnClearing
  | .abandoned => postHook s

/-- CALL takes a hook-on event (R9 to R14, R16, R20, R23). HOOK is posted first, before the notices of a call that it ends
(R28 gives no order), and in ABANDONED before CALL_STATE and the INCIDENT notice of HOOK_STUCK's end, in this order (R20 and
R145 give none) (DESIGN CHOICE, notes/assumptions 71). -/
def callHookOn (s : State) : State :=
  let s1 := postHook s
  match s.call.state with
  | .idle => s1
  | .clearing => clearingTone { s1 with call := { s1.call with replaced := true } }
  | .abandoned => endCondition .hookStuck (enterIdle s1)
  | .collecting | .awaitDeposit | .waitLine | .seizing | .sending | .ringing | .connected | .followOnClearing =>
    endCall .userClear s.now s1

/-- HOOK_OFF (R28): RPT aborts an attempt (R167), and CALL acts. -/
def execHookOff (s : State) : Host.Outcome State Fault Refusal :=
  .next (stepAlive (fun t =>
    if t.store.start.hookRead = true ∧ t.keys.hook = .onHook then
      callHookOff (abortAttempt .hookOff (setHook .offHook t))
    else t) s)

/-- HOOK_ON (R28). -/
def execHookOn (s : State) : Host.Outcome State Fault Refusal :=
  .next (stepAlive (fun t =>
    if t.store.start.hookRead = true ∧ t.keys.hook = .offHook then callHookOn (setHook .onHook t) else t) s)

end Sys2Proof.Machine
end

