-- ==== Sys2Proof/Machine/LineEvents.lean ====
section
/-! DEFINITION. The meanings of LINE's events: guard end (R44), the dial-tone wait and its tone (R47), busy (R48), sending
(R53, R56), loop current (R45, R46, R96), meter pulses (R50), polarity (R57 to R59), centre cadences (R52), line
voltage (R60), and the tone detector's 5 ms interval (R47 to R52). -/

namespace Sys2Proof.Machine

/-- R44: the guard end report, to CALL in WAIT_LINE (R11) and FOLLOW_ON_CLEARING (R23). RPT's conditions (R158) read the
FREE line. -/
def guardReport (s : State) : State :=
  match s.call.state with
  | .waitLine => lineRequest s
  | .followOnClearing => followOnCollect s
  | .idle | .collecting | .awaitDeposit | .seizing | .sending | .ringing | .connected | .clearing | .abandoned => s

/-- GUARD_END (R44). -/
def execGuardEnd (s : State) : Host.Outcome State Fault Refusal :=
  .next (stepAlive (fun t =>
    match t.line.guardTimer with
    | some d =>
      if t.line.state = .guard then
        let u := reach (some d) t
        guardReport { u with line := { u.line with state := .free, guardTimer := none } }
      else t
    | none => t) s)

/-! ### Reports that end a seizure (R46), to their owner -/

/-- The states in which CALL acts on dial-tone expiry, busy and loss (R12 to R14). -/
def takesNoTone (st : CallState) : Bool := decide (st = .seizing)

def takesBusy : CallState → Bool
  | .seizing | .sending | .ringing => true
  | .idle | .collecting | .awaitDeposit | .waitLine | .connected | .clearing | .followOnClearing | .abandoned => false

def takesLoss : CallState → Bool
  | .seizing | .sending | .ringing | .connected => true
  | .idle | .collecting | .awaitDeposit | .waitLine | .clearing | .followOnClearing | .abandoned => false

/-- CALL ends the call, when it is in one of the states the rule names. -/
def callEnds (takes : CallState → Bool) (c : EndCause) (at_ : Nat) (s : State) : State :=
  if takes s.call.state then endCall c at_ s else s

/-- R165's states of a failure. -/
def reportFails (states : List ReportState) (f : ReportFailure) (s : State) : State :=
  if states.contains s.rpt.state then failAttempt f s else s

/-- The expiry of the dial-tone wait, to the owner (R47, R12, R159). -/
def noToneReport (s : State) : State :=
  match s.line.owner with
  | .call => callEnds takesNoTone .noDialTone s.now s
  | .rpt => reportFails [.seize] .noDialTone s
  | .none => s

/-- DIAL_TONE_TIMEOUT (R47). -/
def execDialToneTimeout (s : State) : Host.Outcome State Fault Refusal :=
  .next (stepAlive (fun t =>
    match t.line.dialToneTimer with
    | some d =>
      if t.line.state = .seizedWaitTone ∧ t.line.reported = false then noToneReport (endingReport (reach (some d) t))
      else t
    | none => t) s)

/-- Dial tone recognised, to the owner (R12, R159). -/
def toneReport (s : State) : State :=
  match s.line.owner with
  | .call => if s.call.state = .seizing then setCallState .sending s else s
  | .rpt => { s with rpt := { s.rpt with state := .dial } }
  | .none => s

/-- DIAL_TONE_RECOGNISED (R47): sending begins. -/
def execDialToneRecognised (s : State) : Host.Outcome State Fault Refusal :=
  .next (stepAlive (fun t =>
    if t.line.state = .seizedWaitTone ∧ t.line.reported = false ∧ t.line.progress.dialTiming = true then
      toneReport (beginSending t)
    else t) s)

/-- Busy, to the owner (R12, R13, R159, R160). -/
def busyReport (s : State) : State :=
  match s.line.owner with
  | .call => callEnds takesBusy .busy s.now s
  | .rpt => reportFails [.seize, .dial, .awaitReady] .busy s
  | .none => s

/-- BUSY_RECOGNISED (R48). -/
def execBusyRecognised (s : State) : Host.Outcome State Fault Refusal :=
  .next (stepAlive (fun t =>
    if listening t.line ∧ t.line.progress.busyWatch = true then busyReport (endingReport t) else t) s)

/-! ### Sending -/

/-- Sending complete, to the owner: RINGING with the answer timer (R12), or R_AWAIT_READY with the READY timer (R159). -/
def sentReport (s : State) : State :=
  match s.line.owner with
  | .call =>
    if s.call.state = .sending then
      setCallState .ringing { s with call := { s.call with answerTimer := s.after (s.config.answerWait * 1000) } }
    else s
  | .rpt => { s with rpt := { s.rpt with state := .awaitReady, readyTimer := s.after readyMs } }
  | .none => s

/-- SENDING_COMPLETE (R53). -/
def execSendingComplete (s : State) : Host.Outcome State Fault Refusal :=
  .next (stepAlive (fun t =>
    match t.line.sendTimer with
    | some d =>
      if t.line.state = .sending ∧ t.line.reported = false then sentReport (enterSeized (reach (some d) t)) else t
    | none => t) s)

/-- SEND_COMPLETE (R56): the sender is IDLE again, the centre channel restarts, and RPT goes on (R163, R164). -/
def execSendComplete (s : State) : Host.Outcome State Fault Refusal :=
  .next (stepAlive (fun t =>
    match t.line.sender with
    | some (_, d) =>
      if listening t.line then
        let u := reach (some d) t
        let v := { u with line := { u.line with sender := none, centre := { active := true } } }
        if v.rpt.state = .send then sendDone v else v
      else t
    | none => t) s)

/-! ### Loop current (R45) -/

def setCurrent (v : Bool) (s : State) : State := { s with pins := { s.pins with loopCurrent := v } }

/-- R45, R96: current returns: the absence is discarded, and RATE takes the held steps. -/
def currentReturns (s : State) : State :=
  let s1 := { s with line := { s.line with armed := true, absentSince := none } }
  if s.line.absentSince.isSome then actVerdict (takeHeld s1) else s1

/-- LOOP_CURRENT_PRESENT (R45, R96). A first presence while the watch is suspended, in SENDING by LOOP_PULSE, does not arm
it: it is armed by the first presence after the suspension (DESIGN CHOICE, notes/assumptions 52). -/
def execLoopCurrentPresent (s : State) : Host.Outcome State Fault Refusal :=
  .next (stepAlive (fun t =>
    let u := setCurrent true t
    if watchRuns t.line then currentReturns u else u) s)

/-- LOOP_CURRENT_ABSENT (R45, R49): an absence begins to be timed; the meter channel disregards tone. -/
def execLoopCurrentAbsent (s : State) : Host.Outcome State Fault Refusal :=
  .next (stepAlive (fun t =>
    let u := setCurrent false t
    if watchRuns t.line ∧ t.line.armed = true ∧ t.line.absentSince = none then
      { u with line := { u.line with
          absentSince := u.after 0
          meter := meterCut (decide (u.line.detectorTimer = u.after detectorMs)) u.line.meter } }
    else u) s)

/-- Loss of loop current, to the owner: CALL ends LINE_LOST at the loss instant (R14, R16). -/
def lossReport (since : Nat) (s : State) : State :=
  match s.line.owner with
  | .call => callEnds takesLoss .lineLost since s
  | .rpt => reportLineLost s
  | .none => s

/-- LOOP_CURRENT_LOST (R45): the absence has passed 400 ms. -/
def execLoopCurrentLost (s : State) : Host.Outcome State Fault Refusal :=
  .next (stepAlive (fun t =>
    match t.line.absentSince with
    | some since =>
      if watchRuns t.line then
        lossReport since (endingReport (setCurrent false (reach (some (since + lossMs + 1)) t)))
      else t
    | none => t) s)

/-! ### Meter pulses, polarity and answer (R50, R57 to R59) -/

/-- R58: the answered flag is set and the busy watch stops. -/
def setAnswered (s : State) : State :=
  { s with line := { s.line with answered := true, progress := { s.line.progress with busyWatch := false } } }

/-- LINE is in SEIZED for CALL and delivers events. -/
def callSeized (l : LineBlock) : Bool := listening l && decide (l.state = .seized) && decide (l.owner = .call)

/-- R50: the disposal of a valid pulse. -/
def disposePulse (long : Bool) (s : State) : State :=
  if s.line.answered then actVerdict (takePulse long s)
  else if s.config.ratingMode = .meter then answerCall true long (setAnswered s)
  else s

/-- R49, R96: meter pulses do not arise during an absence of loop current; one whose instant is that at which the absence
began is no later than it. -/
def pulseArises (s : State) : Bool :=
  callSeized s.line && s.line.meter.active &&
    match s.line.absentSince with
    | some t => decide (s.now ≤ t)
    | none => true

/-- METER_PULSE (R50). -/
def execMeterPulse (long : Bool) (s : State) : Host.Outcome State Fault Refusal :=
  .next (stepAlive (fun t => if pulseArises t then disposePulse long t else t) s)

/-- R58: an accepted reversal sets the mark, and answers when the reversal answer is enabled and the call unanswered. -/
def acceptReversal (s : State) : State :=
  let s1 := { s with
    pins := { s.pins with polarity := !s.line.reference }
    line := { s.line with reversed := true, holdSince := none, polaritySeen := !s.line.reference } }
  if s.line.answered = false ∧ s.config.reversalAnswer = true then answerCall false false (setAnswered s1) else s1

/-- REVERSAL_ACCEPTED (R57, R58). -/
def execReversalAccepted (s : State) : Host.Outcome State Fault Refusal :=
  .next (stepAlive (fun t => if callSeized t.line ∧ t.line.reversed = false then acceptReversal t else t) s)

/-- R59: an accepted return clears the mark; after answer it is far-end clear. -/
def acceptReturn (s : State) : State :=
  let s1 := { s with
    pins := { s.pins with polarity := s.line.reference }
    line := { s.line with reversed := false, holdSince := none, polaritySeen := s.line.reference } }
  if s.line.answered then callEnds (fun st => decide (st = .connected)) .farEnd s.now (endingReport s1) else s1

/-- RETURN_ACCEPTED (R57, R59). -/
def execReturnAccepted (s : State) : Host.Outcome State Fault Refusal :=
  .next (stepAlive (fun t => if callSeized t.line ∧ t.line.reversed = true then acceptReturn t else t) s)

/-! ### Centre cadences (R52) -/

/-- R52: a delivery: no further cadence until 400 ms of silence; READY stops the busy watch. -/
def deliverCadence (c : Cadence) (s : State) : State :=
  reportCadence c { s with line := { s.line with
    centre := { s.line.centre with hold := true }
    progress := if c = .ready then { s.line.progress with busyWatch := false } else s.line.progress } }

/-- CADENCE_RECOGNISED (R52). -/
def execCadenceRecognised (c : Cadence) (s : State) : Host.Outcome State Fault Refusal :=
  .next (stepAlive (fun t =>
    if listening t.line ∧ t.line.state = .seized ∧ t.line.owner = .rpt ∧ t.line.centre.active = true
        ∧ t.line.centre.hold = false then
      deliverCadence c t
    else t) s)

/-! ### Line voltage (R60) -/

/-- R60: the watch runs in FREE and GUARD, once its first reading has been given (R61). -/
def voltageWatched (s : State) : Bool := !loopClosed s.line.state && s.store.start.voltageRead

/-- R60: a run of more than 2 s has ended at this instant. -/
def voltageRunEnd (s : State) : State :=
  let s1 := match s.line.voltSince with
    | some t => reach (some (t + 2001)) s
    | none => s
  { s1 with line := { s1.line with voltSince := none } }

def setVoltage (v : Bool) (s : State) : State := { s with pins := { s.pins with voltage := v } }

/-- VOLTAGE_ABSENT (R60): CUT, with an occurrence of LINE_CUT. The rule gives no order of the two notices: LINE is posted
before INCIDENT, here and in `execVoltagePresent` (DESIGN CHOICE, notes/assumptions 49). -/
def execVoltageAbsent (s : State) : Host.Outcome State Fault Refusal :=
  .next (stepAlive (fun t =>
    if voltageWatched t = true ∧ t.line.watch = .present then
      countOccurrence .lineCut (setWatch .cut (setVoltage false (voltageRunEnd t)))
    else t) s)

/-- VOLTAGE_PRESENT (R60): PRESENT, and the LINE_CUT condition ends. -/
def execVoltagePresent (s : State) : Host.Outcome State Fault Refusal :=
  .next (stepAlive (fun t =>
    if voltageWatched t = true ∧ t.line.watch = .cut then
      endCondition .lineCut (setWatch .present (setVoltage true (voltageRunEnd t)))
    else t) s)

/-! ### The tone detector -/

/-- TONE_DETECTOR_INTERVAL (R47 to R52): one 5 ms interval of the three channels. -/
def execToneDetectorInterval (progress meter centre : Bool) (s : State) : Host.Outcome State Fault Refusal :=
  .next (stepAlive (fun t =>
    match t.line.detectorTimer with
    | some d => if listening t.line then detectorInterval progress meter centre (reach (some d) t) else t
    | none => t) s)

end Sys2Proof.Machine
end

