-- ==== Sys2Proof/Machine/LinkEvents.lean ====
section
/-! DEFINITION. The meanings of BYTE_RECEIVED, FRAME_TIMEOUT, FRAME_FAULT and TRANSMIT_DONE: the frame assembler (R187),
frame faults (R188), and the transmitter with the start that follows a RESTART's reply (R184, R196). -/

namespace Sys2Proof.Machine

/-! ### The input buffer (R187, R189) -/

/-- The bytes a frame that has ended and waits holds in the input buffer (R189). -/
def Ended.size : Ended → Nat
  | .sound _ p => p.length + 4
  | .fault _ n => n

def InputItem.size : InputItem → Nat
  | .byte _ _ => 1
  | .loss => 0

/-- The bytes in the input buffer: those the assembler has not taken, and those of frames that wait. -/
def inputLoad (l : LinkBlock) : Nat := (l.input.map InputItem.size).sum + (l.ended.map Ended.size).sum

/-- R187: a byte that arrives while the buffer holds 128 is discarded, and a loss mark stands in its place. -/
def bufferByte (b : Byte) (now : Nat) (l : LinkBlock) : LinkBlock :=
  { l with input := l.input ++ [if inputLoad l < 128 then .byte b now else .loss] }

/-! ### The assembler (R187) -/

/-- A frame ends, and the assembler returns to HUNT with no loss mark. -/
def endFrame (e : Ended) (l : LinkBlock) : LinkBlock :=
  { l with assembler := .hunt, lost := false, ended := l.ended ++ [e] }

/-- At its completion or timeout a frame marked OVERRUN is a fault OVERRUN whatever its sum. -/
def faultOr (l : LinkBlock) (r : FrameReason) : FrameReason := if l.lost then .overrun else r

/-- R187: a complete frame: `len` counts KIND and payload; the sum runs over LEN, KIND, payload and CHK. -/
def completeFrame (len : Nat) (bytes : List Byte) (l : LinkBlock) : LinkBlock :=
  let size := bytes.length + 2
  if l.lost then endFrame (.fault .overrun size) l
  else if byteOf len + sumBytes bytes = 0 then
    match bytes with
    | kind :: rest => endFrame (.sound kind rest.dropLast) l
    | [] => endFrame (.fault .check size) l
  else endFrame (.fault .check size) l

/-- R187: a byte taken in LENGTH or BODY more than 50 ms after the byte before it. -/
def late (arrival : Nat) (l : LinkBlock) : Bool := decide (l.lastByteAt + interByteMs < arrival)

/-- R187: what the assembler does with a byte, by its state. -/
def assemble (b : Byte) (arrival : Nat) (l : LinkBlock) : LinkBlock :=
  let l1 := { l with lastByteAt := arrival }
  match l.assembler with
  | .hunt => if b = 0xA5 then { l1 with assembler := .length } else l
  | .length =>
    if 1 ≤ b.toNat ∧ b.toNat ≤ 120 then { l1 with assembler := .body b.toNat [] }
    else endFrame (.fault .lengthRange 2) l1
  | .body len bytes =>
    let bs := bytes ++ [b]
    if bs.length = len + 1 then completeFrame len bs l1 else { l1 with assembler := .body len bs }

/-- The assembler is within a frame. -/
def inFrame (a : Assembler) : Bool := decide (a ≠ .hunt)

/-- R187: the assembler takes the item at the head of the buffer. A late byte faults the frame in hand and is itself
taken in HUNT. A loss mark keeps no arrival instant, so a discarded byte is no byte before the next one (DEDUCED,
notes/assumptions 82). -/
def takeItem (i : InputItem) (l : LinkBlock) : LinkBlock :=
  match i with
  | .loss => { l with lost := true }
  | .byte b arrival =>
    if inFrame l.assembler && late arrival l then assemble b arrival (endFrame (.fault (faultOr l .timeout) 0) l)
    else assemble b arrival l

/-- R189: frames are taken one at a time in the order they ended; the assembler goes on while none waits. -/
def drainItems : List InputItem → LinkBlock → LinkBlock
  | [], l => { l with input := [] }
  | i :: is, l => if l.ended.isEmpty then drainItems is (takeItem i l) else { l with input := i :: is }

def drain (s : State) : State := { s with link := drainItems s.link.input s.link }

/-- BYTE_RECEIVED (R187). -/
def execByteReceived (b : Byte) (s : State) : Host.Outcome State Fault Refusal :=
  .next (stepAlive (fun t => drain { t with link := bufferByte b t.now t.link }) s)

/-- No byte waits in the buffer (loss marks take no room). -/
def noByteWaits (l : LinkBlock) : Bool := l.input.all (fun i => i.size == 0)

/-- R187: 50 ms have passed since the last byte of the frame in hand. -/
def timeoutFrame (l : LinkBlock) : LinkBlock :=
  let l1 := { l with lost := l.lost || !l.input.isEmpty, input := [] }
  endFrame (.fault (faultOr l1 .timeout) 0) l1

/-- FRAME_TIMEOUT (R187). -/
def execFrameTimeout (s : State) : Host.Outcome State Fault Refusal :=
  .next (stepAlive (fun t =>
    if inFrame t.link.assembler && noByteWaits t.link then
      let u := reach (some (t.link.lastByteAt + interByteMs)) t
      { u with link := timeoutFrame u.link }
    else t) s)

/-- FRAME_FAULT (R188): the fault is replied at the instant it is taken; before its turn it waits. -/
def execFrameFault (reason : FrameReason) (s : State) : Host.Outcome State Fault Refusal :=
  .next (stepAlive (fun t =>
    if linkTakes t.link then
      placeReply 0xFF (le1 Result.frame.code ++ le1 (reasonByte reason)) { t with link := { t.link with turn := false } }
    else { t with link := { t.link with ended := t.link.ended ++ [.fault reason 0] } }) s)

/-! ### The transmitter (R196, R184) -/

def idleTx (s : State) : State := { s with link := { s.link with tx := none } }

/-- R184: with the reply to RESTART or FACTORY_CLEAR sent, the start begins, of the kind the marker gives. -/
def afterReply (t : Sending) (s : State) : State :=
  if t.isReply then finish s (startPart (kindOfMarker s.store.marker) s) else pump s

/-- TRANSMIT_DONE (R196): the frame ends, and the next is chosen. -/
def execTransmitDone (s : State) : Host.Outcome State Fault Refusal :=
  .next (match s.link.tx with
    | none => s
    | some t =>
      let s1 := idleTx (reach (some t.endsAt) s)
      match s.power with
      | .off => s
      | .halted => if s1.link.reply = none then afterReply t s1 else pump s1
      | .starting | .running => finish s s1)

end Sys2Proof.Machine
end

