-- ==== Sys2Proof/Machine/RateEvents.lean ====
section
/-! DEFINITION. The meanings of RATE's timers (R95, R97, R102), of the activation instant (R119) and of the clock's tick
(R182). -/

namespace Sys2Proof.Machine

/-- R97: a period ends only in a mode that times periods. -/
def timesPeriods (m : Option RatingMode) : Bool :=
  match m with
  | some .localTiming | some .meterFallback => true
  | some .meter | none => false

/-- PERIOD_END (R97): the next period starts at that instant. -/
def execPeriodEnd (s : State) : Host.Outcome State Fault Refusal :=
  .next (stepAlive (fun t =>
    match t.rate.period with
    | some p =>
      if rating t && timesPeriods t.rate.mode then
        actVerdict (settleStep (startPeriod (some p) p.endAt (reach (some p.endAt) t)))
      else t
    | none => t) s)

/-- SUPERVISION_TIMEOUT (R102): METER_FALLBACK. -/
def execSupervisionTimeout (s : State) : Host.Outcome State Fault Refusal :=
  .next (stepAlive (fun t =>
    match t.rate.superTimer with
    | some d => if rating t then actVerdict (fallBack d (reach (some d) t)) else t
    | none => t) s)

/-- R95: the table of phases at the expiry of the grace timer. -/
def graceExpiry (s : State) : State :=
  let s1 := { s with rate := { s.rate with graceTimer := none } }
  match s.rate.phase with
  | .grace => actVerdict (s1, .graceExpired)
  | .settling => { s1 with rate := { s1.rate with graceExpired := true } }
  | .inactive | .running | .warning | .ended => s1

/-- GRACE_TIMER_EXPIRY (R95). -/
def execGraceTimerExpiry (s : State) : Host.Outcome State Fault Refusal :=
  .next (stepAlive (fun t =>
    match t.rate.graceTimer with
    | some d => graceExpiry (reach (some d) t)
    | none => t) s)

/-- ACTIVATION_INSTANT (R119): the pending activation, when its instant has been reached. -/
def execActivationInstant (s : State) : Host.Outcome State Fault Refusal := .next (stepAlive judgeActivation s)

/-- R182: the clock advances one second; past 2099-12-31 23:59:59 it becomes UNSET. -/
def tickClock : Option Time → Option Time
  | some t => if t + 1 < clockEnd then some (t + 1) else none
  | none => none

/-- R182: the next second. -/
def clockSecond (s : State) : State :=
  let s1 := reach (some s.store.nextTick) s
  { s1 with store := { s1.store with clock := tickClock s1.store.clock, nextTick := s1.store.nextTick + 1000 } }

/-- CLOCK_TICK (R182): the clock runs on the backup supply while power is off, and through a restart. -/
def execClockTick (s : State) : Host.Outcome State Fault Refusal :=
  .next (if alive s then stepAlive clockSecond s else clockSecond s)

end Sys2Proof.Machine
end

