-- ==== Sys2Proof/Machine/ReportEvents.lean ====
section
/-! DEFINITION. The meanings of RPT's own events: the start of an attempt (R158), its three timers (R160, R163, R164), and
the backoff wait (R156, R166). -/

namespace Sys2Proof.Machine

/-- ATTEMPT_START (R158): when the four conditions hold in R_READY_TO_START. -/
def execAttemptStart (s : State) : Host.Outcome State Fault Refusal :=
  .next (stepAlive (fun t => if mayStart t then startAttempt t else t) s)

/-- READY_TIMEOUT (R160): failure NO_READY. -/
def execReadyTimeout (s : State) : Host.Outcome State Fault Refusal :=
  .next (stepAlive (fun t =>
    match t.rpt.readyTimer with
    | some d => if t.rpt.state = .awaitReady then failAttempt .noReady (reach (some d) t) else t
    | none => t) s)

/-- ACK_TIMEOUT (R163): the send has failed. -/
def execAckTimeout (s : State) : Host.Outcome State Fault Refusal :=
  .next (stepAlive (fun t =>
    match t.rpt.ackTimer with
    | some d => if t.rpt.state = .awaitAck then sendFailed (reach (some d) t) else t
    | none => t) s)

/-- CLOSE_TIMEOUT (R164): the attempt completes. -/
def execCloseTimeout (s : State) : Host.Outcome State Fault Refusal :=
  .next (stepAlive (fun t =>
    match t.rpt.closeTimer with
    | some d => if t.rpt.state = .close then completeAttempt (reach (some d) t) else t
    | none => t) s)

/-- BACKOFF_EXPIRY (R166, R156): the wait ends. -/
def execBackoffExpiry (s : State) : Host.Outcome State Fault Refusal :=
  .next (stepAlive (fun t =>
    match t.rpt.backoffTimer with
    | some d => if t.rpt.state = .wait then endWait (reach (some d) t) else t
    | none => t) s)

/-- R166: the remaining wait is written, in tenths, at each whole minute of elapsed wait. -/
def writeWait (s : State) : State :=
  { s with rpt := { s.rpt with savedWait := remainingWait s / 100, minuteTimer := s.after 60000 } }

/-- WAIT_MINUTE_WRITE (R166). -/
def execWaitMinuteWrite (s : State) : Host.Outcome State Fault Refusal :=
  .next (stepAlive (fun t =>
    match t.rpt.minuteTimer with
    | some d => if t.rpt.state = .wait then writeWait (reach (some d) t) else t
    | none => t) s)

end Sys2Proof.Machine
end

