-- ==== Sys2Proof/Machine/VaultEvents.lean ====
section
/-! DEFINITION. The meanings of the service key, the two doors and the service grace timer (R129 to R134). -/

namespace Sys2Proof.Machine

/-- The three switches: key ON, vault door OPEN, housing door OPEN, with their pins. -/
def setKey (v : Bool) (s : State) : State :=
  { s with
    pins := { s.pins with keyOn := v }, samplers := { s.samplers with keyOn := none }
    vault := { s.vault with keyOn := v } }

def setVaultDoor (v : Bool) (s : State) : State :=
  { s with
    pins := { s.pins with vaultOpen := v }, samplers := { s.samplers with vault := none }
    vault := { s.vault with vaultOpen := v } }

def setHousingDoor (v : Bool) (s : State) : State :=
  { s with
    pins := { s.pins with housingOpen := v }, samplers := { s.samplers with housing := none }
    vault := { s.vault with housingOpen := v } }

/-- The service state with the grace timer and the grace-held marks. -/
def setService (st : ServiceState) (timer : Option Nat) (vaultHeld housingHeld : Bool) (s : State) : State :=
  { s with vault := { s.vault with
      service := st, graceTimer := timer, vaultGrace := vaultHeld, housingGrace := housingHeld } }

/-- A change of a switch is taken after its first reading (R137). -/
def switchChange (changed : State → Bool) (f : State → State) (s : State) : State :=
  stepAlive (fun t => if t.store.start.switchesRead && changed t then f t else t) s

/-- R130: SERVICE; with the vault door OPEN a collection starts. The KEY_ON notice is posted before COLLECTION_STARTED, and
shows no collection in progress yet; no rule orders the two (DESIGN CHOICE, notes/assumptions 73). -/
def turnKeyOn (s : State) : State :=
  let s1 := postService .keyOn (setService .service none false false (setKey true s))
  if s.vault.vaultOpen then startCollection s1 else s1

/-- KEY_ON (R130, R133). -/
def execKeyOn (s : State) : Host.Outcome State Fault Refusal :=
  .next (switchChange (fun t => !t.vault.keyOn) turnKeyOn s)

/-- R130: NORMAL with both doors CLOSED, else SERVICE_GRACE with each OPEN door grace-held. -/
def turnKeyOff (s : State) : State :=
  let s1 := setKey false s
  postService .keyOff
    (if s.vault.vaultOpen || s.vault.housingOpen then
      setService .serviceGrace (s1.after serviceGraceMs) s.vault.vaultOpen s.vault.housingOpen s1
    else setService .normal none false false s1)

/-- KEY_OFF (R130). -/
def execKeyOff (s : State) : Host.Outcome State Fault Refusal :=
  .next (switchChange (fun t => t.vault.keyOn) turnKeyOff s)

/-- VAULT_DOOR_OPENED (R131, R133). Here, at the closings and at the grace expiry the rules give no order of the SERVICE and
the INCIDENT notice: SERVICE is posted first (DESIGN CHOICE, notes/assumptions 64). It is posted before COLLECTION_STARTED
too, and shows no collection in progress yet (DESIGN CHOICE, notes/assumptions 73). -/
def execVaultDoorOpened (s : State) : Host.Outcome State Fault Refusal :=
  .next (switchChange (fun t => !t.vault.vaultOpen) (fun t =>
    let u := postService .vaultDoorOpened (setVaultDoor true t)
    if t.vault.service = .service then startCollection u else raiseIncident .vaultForced u) s)

/-- R130: a door closes in SERVICE_GRACE; with the other CLOSED the state is NORMAL. -/
def graceClosing (otherOpen : Bool) (vaultHeld housingHeld : Bool) (s : State) : State :=
  if s.vault.service = .serviceGrace then
    if otherOpen then setService .serviceGrace s.vault.graceTimer vaultHeld housingHeld s
    else setService .normal none false false s
  else s

/-- R134: how the collection closes: by the service state in which the door closed. -/
def closingOf : ServiceState → Closing
  | .service | .serviceGrace => .inService
  | .normal => .inNormal

/-- VAULT_DOOR_CLOSED (R130, R131, R134). Its SERVICE notice is posted before the collection completes, and shows it still in
progress (DESIGN CHOICE, notes/assumptions 64); INCIDENT for the end of VAULT_FORCED stands between the two (DESIGN CHOICE,
notes/assumptions 89). -/
def execVaultDoorClosed (s : State) : Host.Outcome State Fault Refusal :=
  .next (switchChange (fun t => t.vault.vaultOpen) (fun t =>
    let u := postService .vaultDoorClosed
      (graceClosing t.vault.housingOpen false t.vault.housingGrace (setVaultDoor false t))
    completeCollection (closingOf t.vault.service) (endCondition .vaultForced u)) s)

/-- HOUSING_DOOR_OPENED (R131). -/
def execHousingDoorOpened (s : State) : Host.Outcome State Fault Refusal :=
  .next (switchChange (fun t => !t.vault.housingOpen) (fun t =>
    let u := postService .housingDoorOpened (setHousingDoor true t)
    if t.vault.service = .service then u else raiseIncident .housingForced u) s)

/-- HOUSING_DOOR_CLOSED (R130, R131). -/
def execHousingDoorClosed (s : State) : Host.Outcome State Fault Refusal :=
  .next (switchChange (fun t => t.vault.housingOpen) (fun t =>
    endCondition .housingForced (postService .housingDoorClosed
      (graceClosing t.vault.vaultOpen t.vault.vaultGrace false (setHousingDoor false t)))) s)

/-- R132: an occurrence for each door grace-held at the expiry, the vault door's first (DESIGN CHOICE,
notes/assumptions 74). -/
def forceHeld (vaultHeld housingHeld : Bool) (s : State) : State :=
  let s1 := if vaultHeld then raiseIncident .vaultForced s else s
  if housingHeld then raiseIncident .housingForced s1 else s1

/-- GRACE_EXPIRED (R132). -/
def execGraceExpired (s : State) : Host.Outcome State Fault Refusal :=
  .next (stepAlive (fun t =>
    match t.vault.graceTimer with
    | some d =>
      if t.vault.service = .serviceGrace then
        forceHeld t.vault.vaultGrace t.vault.housingGrace
          (postService .graceExpired (setService .normal none false false (reach (some d) t)))
      else t
    | none => t) s)

end Sys2Proof.Machine
end

