-- ==== Sys2Proof/Machine/Idle.lean ====
section
/-! DEFINITION. What the part does when no command waits (DESIGN CHOICE, notes/assumptions 3): the event that falls due
now, if any, becomes the waiting command; otherwise the part's own time advances 1 ms and the inputs are sampled
(R24, R28, R45, R57, R60, R79, R129, R139, R140). -/

namespace Sys2Proof.Machine

/-! ### From an ended frame to its command (R189, R190) -/

/-- ACTUATE's rows by the action byte; any other argument stands with REFUND_ONE, whose tests refuse it (R135). -/
def actuateCommand (p : List Byte) : Instr :=
  if p = [1] then .collectTestOne p
  else if p = [2] then .restoreInlet p
  else if p = [3] then .restoreEscrow p
  else .refundOne p

/-- The command of a sound frame's KIND (R190's table). -/
def commandOf (kind : Byte) (p : List Byte) : Instr :=
  match kind.toNat with
  | 0x01 => .status p | 0x02 => .configSet p | 0x03 => .configGet p | 0x04 => .clockSet p | 0x05 => .clockGet p
  | 0x06 => .bankOpen p | 0x07 => .bankPutClass p | 0x08 => .bankPutPrefix p | 0x09 => .bankDropPrefix p
  | 0x0A => .bankPutSchedule p | 0x0B => .bankPutHoliday p | 0x0C => .bankClose p | 0x0D => .bankActivate p
  | 0x0E => .bankCancel p | 0x0F => .bankInfo p | 0x10 => .snapshot p | 0x11 => .logRead p | 0x12 => .logRelease p
  | 0x13 => .incidentList p | 0x14 => .incidentClear p | 0x15 => .vaultRead p | 0x16 => .collectionRead p
  | 0x17 => .terminalBlock p | 0x18 => .terminalUnblock p | 0x19 => .reportNow p | 0x1A => actuateCommand p
  | 0x1B => .restart p | 0x1C => .factoryClear p
  | _ => .unknownCommand kind p

def frameCommand : Ended → Instr
  | .sound k p => commandOf k p
  | .fault r _ => .frameFault r

/-! ### What falls due -/

/-- An expiry at or before now, while its condition holds. -/
def expired (now : Nat) (t : Option Nat) (holds : Bool) (i : Instr) : List Instr :=
  match t with
  | some d => if d ≤ now && holds then [i] else []
  | none => []

def dueWhen (holds : Bool) (i : Instr) : List Instr := if holds then [i] else []

def isStuckCandidate (c : KeyCell) : Bool :=
  match c.state with
  | .pressed | .blocked => true
  | .released | .stuck => false

def dueKeys (s : State) : List Instr :=
  allKeys.flatMap (fun k =>
    expired s.now (cellOf k s.keys).stuckTimer (isStuckCandidate (cellOf k s.keys)) (.stuckTimerExpiry k))
    ++ expired s.now s.keys.firstDigitTimer (decide (s.keys.collection = .awaitFirst)) .firstDigitTimeout
    ++ expired s.now s.keys.interDigitTimer (decide (s.keys.collection = .collectingDigits)) .interDigitTimeout

def dueCall (s : State) : List Instr :=
  expired s.now s.call.depositTimer (decide (s.call.state = .awaitDeposit)) .depositTimeout
    ++ expired s.now s.call.answerTimer (decide (s.call.state = .ringing)) .answerTimeout
    ++ expired s.now s.call.abandonedTimer (decide (s.call.state = .abandoned)) .abandonedTimeout
    ++ expired s.now s.call.rejectTimer (decide (s.call.state = .abandoned)) .rejectToneEnd
    ++ expired s.now s.call.warningTimer (decide (s.call.state = .connected) && warned s.rate.phase) .warningRepeat
    ++ expired s.now s.call.aliveTimer (callExists s.call.state) .lastAliveWrite

/-- R57: the polarity hold that is due, in an absence of loop current too (DEDUCED, notes/assumptions 84). -/
def duePolarity (s : State) : List Instr :=
  if s.line.reversed then expired s.now (s.line.holdSince.map (· + 300)) (callSeized s.line) .returnAccepted
  else expired s.now (s.line.holdSince.map (· + 100)) (callSeized s.line) .reversalAccepted

/-- R60: the voltage run that is due. -/
def dueVoltage (s : State) : List Instr :=
  expired s.now (s.line.voltSince.map (· + 2001)) (voltageWatched s)
    (match s.line.watch with | .present => .voltageAbsent | .cut => .voltagePresent)

/-- A sending ends now: the channel that its end starts hears the line from this instant (R51 to R53), so the detector's
interval that ends with it is judged after it (DEDUCED, notes/assumptions 33). -/
def sendingEnds (s : State) : Bool :=
  let l := s.line
  !(expired s.now l.sendTimer (decide (l.state = .sending) && !l.reported) .sendingComplete).isEmpty
    || !(expired s.now (l.sender.map Prod.snd) (listening l) .sendComplete).isEmpty

def dueLine (s : State) : List Instr :=
  let l := s.line
  expired s.now l.guardTimer (decide (l.state = .guard)) .guardEnd
    ++ expired s.now l.dialToneTimer (decide (l.state = .seizedWaitTone) && !l.reported) .dialToneTimeout
    ++ expired s.now l.sendTimer (decide (l.state = .sending) && !l.reported) .sendingComplete
    ++ expired s.now (l.sender.map Prod.snd) (listening l) .sendComplete
    ++ expired s.now (l.absentSince.map (· + (lossMs + 1))) (watchRuns l) .loopCurrentLost
    ++ duePolarity s ++ dueVoltage s
    ++ expired s.now l.detectorTimer (listening l && !sendingEnds s)
        (.toneDetectorInterval s.pins.progressTone s.pins.meterTone s.pins.centreTone)

def dueCoin (s : State) : List Instr :=
  expired s.now (s.coin.transit.map Transit.windowEnd) true .confirmationWindowEnd
    ++ expired s.now s.coin.jamTimer true .jamLineTimeout
    ++ expired s.now s.coin.exitTimer true .exitTimerExpiry
    ++ expired s.now s.coin.lockoutTimer true .lockoutExpiry

def dueRate (s : State) : List Instr :=
  expired s.now (s.rate.period.map Period.endAt) (rating s && timesPeriods s.rate.mode) .periodEnd
    ++ expired s.now s.rate.superTimer (rating s) .supervisionTimeout
    ++ expired s.now s.rate.graceTimer true .graceTimerExpiry

/-- R119: the pending activation's instant has been reached. -/
def activationDue (s : State) : Bool :=
  match pendingBank s with
  | some n =>
    match (s.bank.get n).due with
    | some w => activationReached s w
    | none => false
  | none => false

def dueClock (s : State) : List Instr := expired s.now (some s.store.nextTick) true .clockTick

def dueReport (s : State) : List Instr :=
  dueWhen (mayStart s) .attemptStart
    ++ expired s.now s.rpt.readyTimer (decide (s.rpt.state = .awaitReady)) .readyTimeout
    ++ expired s.now s.rpt.ackTimer (decide (s.rpt.state = .awaitAck)) .ackTimeout
    ++ expired s.now s.rpt.closeTimer (decide (s.rpt.state = .close)) .closeTimeout
    ++ expired s.now s.rpt.backoffTimer (decide (s.rpt.state = .wait)) .backoffExpiry
    ++ expired s.now s.rpt.minuteTimer (decide (s.rpt.state = .wait)) .waitMinuteWrite

/-- The keys whose crossings read closed. -/
def closedKeys (p : Pins) : List Key := allKeys.filter (fun k => p.crossings.getD (keyIndex k) false)

/-- R185: the first readings and the completion of a start. A first reading of the keys, the hook or the switches gives the
level at its end (for a contact that changes during the reading R39 says nothing: DESIGN CHOICE, notes/assumptions 48). -/
def dueStart (s : State) : List Instr :=
  let p := s.store.start
  let at_ (ms : Nat) : Option Nat := some (p.beganAt + ms)
  if s.power = .starting then
    expired s.now (at_ 30) (!p.keysRead) (.keyReadingEnd (closedKeys s.pins))
      ++ expired s.now (at_ 100) (!p.hookRead) (.hookReadingEnd s.pins.hookOff)
      ++ expired s.now (at_ 200) (!p.switchesRead)
          (.switchReadingEnd s.pins.keyOn s.pins.vaultOpen s.pins.housingOpen)
      ++ expired s.now (at_ 500) (!p.cordRead) (.cordReadingEnd (!p.cordSeenClosed))
      ++ expired s.now (at_ 2000) (!p.voltageRead) (.voltageReadingEnd (!p.voltageSeen))
      ++ dueWhen (startDone s) .startComplete
  else []

def dueSend (s : State) : List Instr := expired s.now (s.link.tx.map Sending.endsAt) true .transmitDone

/-- R187: the inter-byte timeout has passed. -/
def dueFrameTimeout (s : State) : List Instr :=
  dueWhen (inFrame s.link.assembler && noByteWaits s.link && decide (s.link.lastByteAt + interByteMs < s.now))
    .frameTimeout

/-- Everything that falls due now besides what the detectors have raised and the frame LINK is ready to take. -/
def dueTimers (s : State) : List Instr :=
  match s.power with
  | .off => dueClock s
  | .halted => dueSend s ++ dueClock s
  | .starting | .running =>
    dueStart s ++ dueKeys s ++ dueCall s ++ dueLine s ++ dueCoin s ++ dueRate s
      ++ dueWhen (activationDue s) .activationInstant ++ dueClock s
      ++ expired s.now s.vault.graceTimer (decide (s.vault.service = .serviceGrace)) .graceExpired
      ++ dueReport s ++ dueFrameTimeout s ++ dueSend s

/-! ### Sampling the inputs -/

/-- A debounced input: since when it has read contrary to its debounced state. -/
def contrary (now : Nat) (differs : Bool) (r : Contrary) : Contrary := if differs then some (r.getD now) else none

/-- The contrary run has lasted `ms`. -/
def ripe (now ms : Nat) (r : Contrary) : Bool :=
  match r with
  | some t => decide (t + ms ≤ now)
  | none => false

def raiseIf (b : Bool) (i : Instr) (s : State) : State := if b then { s with raised := s.raised ++ [i] } else s

/-- R24: one crossing. -/
def sampleKey (k : Key) (s : State) : State :=
  let closed := s.pins.crossings.getD (keyIndex k) false
  let down := decide ((cellOf k s.keys).state ≠ .released)
  let r := contrary s.now (closed != down) (s.samplers.keys.getD (keyIndex k) none)
  raiseIf (ripe s.now 30 r) (if closed then .keyPress k else .keyRelease k)
    { s with samplers := { s.samplers with keys := s.samplers.keys.set (keyIndex k) r } }

/-- R24: the fitted crossings; the three unfitted ones are disregarded. -/
def sampleKeys (s : State) : State :=
  if s.store.start.keysRead then allKeys.foldl (fun t k => sampleKey k t) s else s

/-- R28. -/
def sampleHook (s : State) : State :=
  if s.store.start.hookRead then
    let r := contrary s.now (s.pins.hookOff != decide (s.keys.hook = .offHook)) s.samplers.hook
    raiseIf (ripe s.now 100 r) (if s.pins.hookOff then .hookOff else .hookOn)
      { s with samplers := { s.samplers with hook := r } }
  else s

/-- R129. -/
def sampleSwitches (s : State) : State :=
  if s.store.start.switchesRead then
    let k := contrary s.now (s.pins.keyOn != s.vault.keyOn) s.samplers.keyOn
    let v := contrary s.now (s.pins.vaultOpen != s.vault.vaultOpen) s.samplers.vault
    let h := contrary s.now (s.pins.housingOpen != s.vault.housingOpen) s.samplers.housing
    raiseIf (ripe s.now 200 k) (if s.pins.keyOn then .keyOn else .keyOff)
      (raiseIf (ripe s.now 200 v) (if s.pins.vaultOpen then .vaultDoorOpened else .vaultDoorClosed)
        (raiseIf (ripe s.now 200 h) (if s.pins.housingOpen then .housingDoorOpened else .housingDoorClosed)
          { s with samplers := { s.samplers with keyOn := k, vault := v, housing := h } }))
  else s

/-- R139; before the first reading has been given, R154's samples. -/
def sampleCord (s : State) : State :=
  match s.incd.cordOpen with
  | some o =>
    let r := contrary s.now (s.pins.cordOpen != o) s.samplers.cord
    raiseIf (ripe s.now 500 r) (if s.pins.cordOpen then .cordLoopOpen else .cordLoopClosed)
      { s with samplers := { s.samplers with cord := r } }
  | none =>
    { s with store := { s.store with start := { s.store.start with
        cordSeenClosed := s.store.start.cordSeenClosed || !s.pins.cordOpen } } }

/-- The inputs sampled at intervals of 5 ms, at the multiples of 5 ms of the part's own time (DESIGN CHOICE,
notes/assumptions 86). -/
def sampleFive (s : State) : State :=
  if s.now % 5 = 0 then sampleCord (sampleSwitches (sampleHook (sampleKeys s))) else s

/-- R140: a shock pulse after 5 ms of assertion; a new one needs 5 ms of release. -/
def sampleShock (s : State) : State :=
  let run := if s.pins.shock = s.samplers.shockLevel then s.samplers.shockRun else s.now
  let long := decide (run + 5 ≤ s.now)
  let pulse := s.pins.shock && long && s.samplers.shockReady
  raiseIf pulse .shockPulse { s with samplers := { s.samplers with
    shockLevel := s.pins.shock, shockRun := run
    shockReady := if s.pins.shock then s.samplers.shockReady && !pulse else s.samplers.shockReady || long } }

/-- R79: a reversal pulse after 5 ms of interruption; a new one needs 5 ms of the beam. -/
def sampleBeam (s : State) : State :=
  let run := if s.pins.beam = s.samplers.beamLevel then s.samplers.beamRun else s.now
  let long := decide (run + 5 ≤ s.now)
  let pulse := s.pins.beam && long && s.samplers.beamReady
  raiseIf pulse .reversalPulse { s with samplers := { s.samplers with
    beamLevel := s.pins.beam, beamRun := run
    beamReady := if s.pins.beam then s.samplers.beamReady && !pulse else s.samplers.beamReady || long } }

/-- R45: the first presence and each change of loop current while the watch runs. -/
def sampleCurrent (s : State) : State :=
  if watchRuns s.line then
    raiseIf (s.pins.loopCurrent && (!s.line.armed || s.line.absentSince.isSome)) .loopCurrentPresent
      (raiseIf (!s.pins.loopCurrent && s.line.armed && s.line.absentSince.isNone) .loopCurrentAbsent s)
  else s

/-- R57: polarity is judged while loop current is present, from seizure on; changes are timed in SEIZED with owner CALL. An
absence leaves a hold being timed alone. -/
def samplePolarity (s : State) : State :=
  if loopClosed s.line.state && s.pins.loopCurrent then
    { s with line := { s.line with
        polaritySeen := s.pins.polarity
        holdSince :=
          if callSeized s.line then
            contrary s.now ((s.pins.polarity != s.line.reference) != s.line.reversed) s.line.holdSince
          else s.line.holdSince } }
  else s

/-- R60, R61: the run contrary to the watch state while the loop is open. -/
def sampleVoltage (s : State) : State :=
  if loopClosed s.line.state then s
  else
    { s with
      line := { s.line with
        voltSince := contrary s.now (s.pins.voltage != decide (s.line.watch = .present)) s.line.voltSince }
      store := { s.store with start := { s.store.start with
        voltageSeen := s.store.start.voltageSeen || s.pins.voltage } } }

/-- One millisecond passes, and the inputs are sampled. Without power, or while a restart is awaited, nothing is. -/
def advance (s : State) : State :=
  let s1 := { s with now := s.now + 1 }
  if alive s1 then
    sampleVoltage (samplePolarity (sampleCurrent (sampleBeam (sampleShock (sampleFive s1)))))
  else s1

/-! ### The idle step -/

/-- The frame LINK is ready to take (R189). -/
def readyFrame (s : State) : Option Ended :=
  if alive s && linkReady s.link then s.link.ended.head? else none

/-- R189: the first of the ended frames is the next to be taken. -/
def popFrame (s : State) : State := drain { s with link := { s.link with ended := s.link.ended.tail, turn := true } }

/-- What may be taken now: what the detectors have raised, the expiries, and the frame LINK is ready to take. -/
def dueCount (s : State) : Nat :=
  s.raised.length + (dueTimers s).length + (if (readyFrame s).isSome then 1 else 0)

/-- The `i`th of them becomes the waiting command. -/
def takeDue (i : Nat) (s : State) : State :=
  let r := s.raised.length
  let n := r + (dueTimers s).length
  if i < r then { s with raised := s.raised.eraseIdx i, pending := s.pending ++ (s.raised[i]?).toList }
  else if i < n then { s with pending := s.pending ++ ((dueTimers s)[i - r]?).toList }
  else
    match readyFrame s with
    | some e => { popFrame s with pending := s.pending ++ [frameCommand e] }
    | none => s

/-- "Either may be taken first": which of `n` things is the free value's choice. -/
def choose (n : Nat) (s : State) : Nat := if n ≤ 1 then 0 else Config.tieChoice s.ties % n

/-- The part with no command waiting. -/
def idle (s : State) : State :=
  let n := dueCount s
  if n = 0 then advance s
  else takeDue (choose n s) { s with ties := if n ≤ 1 then s.ties else s.ties + 1 }

end Sys2Proof.Machine
end

