-- ==== Sys2Proof/Machine/Dispatch.lean ====
section
/-! DEFINITION. One arm for each command: one direct call of its meaning. -/

namespace Sys2Proof.Machine

def exec (i : Instr) (s : State) : Host.Outcome State Fault Refusal :=
  match i with
  | .powerUp backupHeld marker lost => Sys2Proof.Machine.execPowerUp backupHeld marker lost s
  | .powerFail torn => Sys2Proof.Machine.execPowerFail torn s
  | .startComplete => Sys2Proof.Machine.execStartComplete s
  | .keyReadingEnd closed => Sys2Proof.Machine.execKeyReadingEnd closed s
  | .hookReadingEnd offHook => Sys2Proof.Machine.execHookReadingEnd offHook s
  | .switchReadingEnd keyOn vaultOpen housingOpen => Sys2Proof.Machine.execSwitchReadingEnd keyOn vaultOpen housingOpen s
  | .cordReadingEnd loopOpen => Sys2Proof.Machine.execCordReadingEnd loopOpen s
  | .voltageReadingEnd absentThroughout => Sys2Proof.Machine.execVoltageReadingEnd absentThroughout s
  | .status payload => Sys2Proof.Machine.execStatus payload s
  | .configSet payload => Sys2Proof.Machine.execConfigSet payload s
  | .configGet payload => Sys2Proof.Machine.execConfigGet payload s
  | .clockSet payload => Sys2Proof.Machine.execClockSet payload s
  | .clockGet payload => Sys2Proof.Machine.execClockGet payload s
  | .bankOpen payload => Sys2Proof.Machine.execBankOpen payload s
  | .bankPutClass payload => Sys2Proof.Machine.execBankPutClass payload s
  | .bankPutPrefix payload => Sys2Proof.Machine.execBankPutPrefix payload s
  | .bankDropPrefix payload => Sys2Proof.Machine.execBankDropPrefix payload s
  | .bankPutSchedule payload => Sys2Proof.Machine.execBankPutSchedule payload s
  | .bankPutHoliday payload => Sys2Proof.Machine.execBankPutHoliday payload s
  | .bankClose payload => Sys2Proof.Machine.execBankClose payload s
  | .bankActivate payload => Sys2Proof.Machine.execBankActivate payload s
  | .bankCancel payload => Sys2Proof.Machine.execBankCancel payload s
  | .bankInfo payload => Sys2Proof.Machine.execBankInfo payload s
  | .snapshot payload => Sys2Proof.Machine.execSnapshot payload s
  | .logRead payload => Sys2Proof.Machine.execLogRead payload s
  | .logRelease payload => Sys2Proof.Machine.execLogRelease payload s
  | .incidentList payload => Sys2Proof.Machine.execIncidentList payload s
  | .incidentClear payload => Sys2Proof.Machine.execIncidentClear payload s
  | .vaultRead payload => Sys2Proof.Machine.execVaultRead payload s
  | .collectionRead payload => Sys2Proof.Machine.execCollectionRead payload s
  | .terminalBlock payload => Sys2Proof.Machine.execTerminalBlock payload s
  | .terminalUnblock payload => Sys2Proof.Machine.execTerminalUnblock payload s
  | .reportNow payload => Sys2Proof.Machine.execReportNow payload s
  | .refundOne payload => Sys2Proof.Machine.execRefundOne payload s
  | .collectTestOne payload => Sys2Proof.Machine.execCollectTestOne payload s
  | .restoreInlet payload => Sys2Proof.Machine.execRestoreInlet payload s
  | .restoreEscrow payload => Sys2Proof.Machine.execRestoreEscrow payload s
  | .restart payload => Sys2Proof.Machine.execRestart payload s
  | .factoryClear payload => Sys2Proof.Machine.execFactoryClear payload s
  | .unknownCommand kind payload => Sys2Proof.Machine.execUnknownCommand kind payload s
  | .byteReceived b => Sys2Proof.Machine.execByteReceived b s
  | .frameTimeout => Sys2Proof.Machine.execFrameTimeout s
  | .frameFault reason => Sys2Proof.Machine.execFrameFault reason s
  | .transmitDone => Sys2Proof.Machine.execTransmitDone s
  | .keyPress k => Sys2Proof.Machine.execKeyPress k s
  | .keyRelease k => Sys2Proof.Machine.execKeyRelease k s
  | .stuckTimerExpiry k => Sys2Proof.Machine.execStuckTimerExpiry k s
  | .firstDigitTimeout => Sys2Proof.Machine.execFirstDigitTimeout s
  | .interDigitTimeout => Sys2Proof.Machine.execInterDigitTimeout s
  | .hookOff => Sys2Proof.Machine.execHookOff s
  | .hookOn => Sys2Proof.Machine.execHookOn s
  | .depositTimeout => Sys2Proof.Machine.execDepositTimeout s
  | .answerTimeout => Sys2Proof.Machine.execAnswerTimeout s
  | .abandonedTimeout => Sys2Proof.Machine.execAbandonedTimeout s
  | .rejectToneEnd => Sys2Proof.Machine.execRejectToneEnd s
  | .warningRepeat => Sys2Proof.Machine.execWarningRepeat s
  | .lastAliveWrite => Sys2Proof.Machine.execLastAliveWrite s
  | .guardEnd => Sys2Proof.Machine.execGuardEnd s
  | .dialToneTimeout => Sys2Proof.Machine.execDialToneTimeout s
  | .dialToneRecognised => Sys2Proof.Machine.execDialToneRecognised s
  | .busyRecognised => Sys2Proof.Machine.execBusyRecognised s
  | .sendingComplete => Sys2Proof.Machine.execSendingComplete s
  | .sendComplete => Sys2Proof.Machine.execSendComplete s
  | .loopCurrentPresent => Sys2Proof.Machine.execLoopCurrentPresent s
  | .loopCurrentAbsent => Sys2Proof.Machine.execLoopCurrentAbsent s
  | .loopCurrentLost => Sys2Proof.Machine.execLoopCurrentLost s
  | .meterPulse long => Sys2Proof.Machine.execMeterPulse long s
  | .reversalAccepted => Sys2Proof.Machine.execReversalAccepted s
  | .returnAccepted => Sys2Proof.Machine.execReturnAccepted s
  | .cadenceRecognised c => Sys2Proof.Machine.execCadenceRecognised c s
  | .voltageAbsent => Sys2Proof.Machine.execVoltageAbsent s
  | .voltagePresent => Sys2Proof.Machine.execVoltagePresent s
  | .validatorStrobe code suspect => Sys2Proof.Machine.execValidatorStrobe code suspect s
  | .strobeFall => Sys2Proof.Machine.execStrobeFall s
  | .entrySensor => Sys2Proof.Machine.execEntrySensor s
  | .confirmationWindowEnd => Sys2Proof.Machine.execConfirmationWindowEnd s
  | .jamLineAsserted => Sys2Proof.Machine.execJamLineAsserted s
  | .jamLineReleased => Sys2Proof.Machine.execJamLineReleased s
  | .jamLineTimeout => Sys2Proof.Machine.execJamLineTimeout s
  | .vaultSensor => Sys2Proof.Machine.execVaultSensor s
  | .returnSensor => Sys2Proof.Machine.execReturnSensor s
  | .exitTimerExpiry => Sys2Proof.Machine.execExitTimerExpiry s
  | .reversalPulse => Sys2Proof.Machine.execReversalPulse s
  | .lockoutExpiry => Sys2Proof.Machine.execLockoutExpiry s
  | .periodEnd => Sys2Proof.Machine.execPeriodEnd s
  | .supervisionTimeout => Sys2Proof.Machine.execSupervisionTimeout s
  | .graceTimerExpiry => Sys2Proof.Machine.execGraceTimerExpiry s
  | .activationInstant => Sys2Proof.Machine.execActivationInstant s
  | .clockTick => Sys2Proof.Machine.execClockTick s
  | .keyOn => Sys2Proof.Machine.execKeyOn s
  | .keyOff => Sys2Proof.Machine.execKeyOff s
  | .vaultDoorOpened => Sys2Proof.Machine.execVaultDoorOpened s
  | .vaultDoorClosed => Sys2Proof.Machine.execVaultDoorClosed s
  | .housingDoorOpened => Sys2Proof.Machine.execHousingDoorOpened s
  | .housingDoorClosed => Sys2Proof.Machine.execHousingDoorClosed s
  | .graceExpired => Sys2Proof.Machine.execGraceExpired s
  | .cordLoopOpen => Sys2Proof.Machine.execCordLoopOpen s
  | .cordLoopClosed => Sys2Proof.Machine.execCordLoopClosed s
  | .shockPulse => Sys2Proof.Machine.execShockPulse s
  | .attemptStart => Sys2Proof.Machine.execAttemptStart s
  | .readyTimeout => Sys2Proof.Machine.execReadyTimeout s
  | .ackTimeout => Sys2Proof.Machine.execAckTimeout s
  | .closeTimeout => Sys2Proof.Machine.execCloseTimeout s
  | .backoffExpiry => Sys2Proof.Machine.execBackoffExpiry s
  | .waitMinuteWrite => Sys2Proof.Machine.execWaitMinuteWrite s
  | .toneDetectorInterval progress meter centre => Sys2Proof.Machine.execToneDetectorInterval progress meter centre s

end Sys2Proof.Machine
end

