-- ==== Sys2Proof/Safety.lean ====
section
/-! DEFINITION. The terms the claims are stated in: what a command leaves alone (`State.body`, `OnlyChanges`), what the
host and the notice queue see of it (`Answered`, `LinkKept`, `Posted`), the invariants of the part, and the situations
the claims about calls start from. -/

namespace Sys2Proof.Machine

/-! ### Frames -/

/-- R156: R_IDLE and R_READY_TO_START follow the wanted test at the end of each step; for a frame they count as one. -/
def ReportState.atRest : ReportState → ReportState
  | .readyToStart => .idle
  | r => r

/-- The state without what the end of every step may touch: the retained copies (R178), the reply slot, the
mark of the frame in turn, the transmitter and the notice queue (R189, R194, R196), RPT's R_IDLE or R_READY_TO_START and its idle guard (R156, R157).
`t.body = u.body` says that `t` is `u` in everything else. -/
def State.body (s : State) : State :=
  { s with
    store := { s.store with areas := Areas.factory }
    rpt := { s.rpt with state := s.rpt.state.atRest, quietSince := none }
    link := { s.link with
      turn := false, outstanding := none, reply := none, tx := none, notices := [], noticeLost := false } }

/-- The parts of the state, for a frame that names the blocks a command may change. -/
inductive Part where
  | pending | now | ties | raised | power | pins | samplers | config | call | keys | line | coin | rate | bank | vault
  | incd | rpt | log | marker | clock | start | input
deriving DecidableEq, Repr

/-- The part reads the same in both states (RPT, the link's input and the samplers as `State.body` has them). -/
def Part.same (s t : State) : Part → Prop
  | .pending => t.pending = s.pending
  | .now => t.now = s.now
  | .ties => t.ties = s.ties
  | .raised => t.raised = s.raised
  | .power => t.power = s.power
  | .pins => t.pins = s.pins
  | .samplers => t.samplers = s.samplers
  | .config => t.config = s.config
  | .call => t.call = s.call
  | .keys => t.keys = s.keys
  | .line => t.line = s.line
  | .coin => t.coin = s.coin
  | .rate => t.rate = s.rate
  | .bank => t.bank = s.bank
  | .vault => t.vault = s.vault
  | .incd => t.incd = s.incd
  | .rpt => t.body.rpt = s.body.rpt
  | .log => t.store.log = s.store.log
  | .marker => t.store.marker = s.store.marker
  | .clock => t.store.clock = s.store.clock ∧ t.store.nextTick = s.store.nextTick
  | .start => t.store.start = s.store.start
  | .input => t.body.link = s.body.link

/-- Every part but the named ones reads the same. -/
def OnlyChanges (l : List Part) (s t : State) : Prop := ∀ p : Part, p ∉ l → p.same s t

/-! ### What the host and the notice queue see -/

/-- LINK takes the next row of a command or of a frame fault (R189): no command is outstanding, the reply slot is empty, and
the row is the frame whose turn it is, or no frame that ended before it waits. -/
abbrev Takes (s : State) : Prop :=
  s.link.outstanding = none ∧ s.link.reply = none ∧ (s.link.turn = true ∨ s.link.ended = [])

/-- LINK can take a command of the running part (R189, R199). -/
abbrev Ready (s : State) : Prop := s.power = .running ∧ Takes s

/-- The reply of this KIND and payload is the command's reply: no command is outstanding, and the reply waits in the
slot, or is already being sent when the transmitter was IDLE (R189, R196). -/
def Answered (kind : Byte) (payload : List Byte) (s t : State) : Prop :=
  t.link.outstanding = none ∧
    match s.link.tx with
    | some x => t.link.tx = some x ∧ t.link.reply = some ⟨kind, payload⟩
    | none =>
      t.link.reply = none
        ∧ t.link.tx = some ⟨frameBytes kind payload, t.now + frameMs (frameBytes kind payload).length, true⟩

/-- A command that is no host command leaves the outstanding command and the frame in turn alone, and the frame being sent (R196). -/
def LinkKept (s t : State) : Prop :=
  t.link.outstanding = s.link.outstanding ∧ t.link.turn = s.link.turn ∧ (s.link.tx.isSome = true → t.link.tx = s.link.tx ∧ t.link.reply = s.link.reply)

/-- The notices are posted in this order, and no other (R194, R195); an IDLE transmitter may have taken the head of the
queue (R196). -/
def Posted (ns : List Notice) (s t : State) : Prop :=
  let u := ns.foldl (fun x n => post n.kind n.payload x) s
  t.link.noticeLost = u.link.noticeLost ∧
    (t.link.notices = u.link.notices ∨
      (s.link.tx = none ∧ ∃ n e, u.link.notices = n :: t.link.notices
        ∧ t.link.tx = some ⟨frameBytes (byteOf n.kind.kind) n.payload, e, false⟩))

/-- The KIND and payload of a host command (R190's table). -/
def hostFrame : Instr → Option (Byte × List Byte)
  | .status p => some (0x01, p) | .configSet p => some (0x02, p) | .configGet p => some (0x03, p)
  | .clockSet p => some (0x04, p) | .clockGet p => some (0x05, p) | .bankOpen p => some (0x06, p)
  | .bankPutClass p => some (0x07, p) | .bankPutPrefix p => some (0x08, p) | .bankDropPrefix p => some (0x09, p)
  | .bankPutSchedule p => some (0x0A, p) | .bankPutHoliday p => some (0x0B, p) | .bankClose p => some (0x0C, p)
  | .bankActivate p => some (0x0D, p) | .bankCancel p => some (0x0E, p) | .bankInfo p => some (0x0F, p)
  | .snapshot p => some (0x10, p) | .logRead p => some (0x11, p) | .logRelease p => some (0x12, p)
  | .incidentList p => some (0x13, p) | .incidentClear p => some (0x14, p) | .vaultRead p => some (0x15, p)
  | .collectionRead p => some (0x16, p) | .terminalBlock p => some (0x17, p) | .terminalUnblock p => some (0x18, p)
  | .reportNow p => some (0x19, p) | .refundOne p => some (0x1A, p) | .collectTestOne p => some (0x1A, p)
  | .restoreInlet p => some (0x1A, p) | .restoreEscrow p => some (0x1A, p) | .restart p => some (0x1B, p)
  | .factoryClear p => some (0x1C, p)
  | .unknownCommand k p => some (k, p)
  | _ => none

/-! ### Invariants -/

/-- The newest sound copy of an area holds the contents (R178). -/
def Area.Holds {α : Type} [DecidableEq α] (x : Area α) (c : α) : Prop := x.newest.map Copy.contents = some c

/-- R178, R180: while the part runs its blocks, every retained area's newest copy holds the retained state as it stands,
and both copies of the marker word are the marker. -/
def CopiesCurrent (s : State) : Prop :=
  alive s = true →
    s.store.areas.config.Holds s.config ∧ s.store.areas.call.Holds (callArea s)
      ∧ s.store.areas.coin.Holds (coinArea s) ∧ s.store.areas.bankA.Holds s.bank.a
      ∧ s.store.areas.bankB.Holds s.bank.b ∧ s.store.areas.vault.Holds (vaultArea s)
      ∧ s.store.areas.incd.Holds s.incd.map ∧ s.store.areas.rpt.Holds (rptArea s)
      ∧ s.store.areas.log.Holds s.store.log ∧ s.store.areas.marker = s.store.marker

/-- R196: the transmitter is IDLE only when no reply waits, and no notice either (but for the wait for a restart, in
which no notice is sent, R184). -/
def SenderBusy (s : State) : Prop :=
  s.link.tx = none → s.link.reply = none ∧ (s.power = .halted ∨ s.link.notices = [])

/-- R86: U + H = K + C. -/
def AccountBalanced (s : State) : Prop :=
  s.rate.acct.unused + s.rate.acct.charged = s.rate.acct.carried + s.rate.acct.collected

/-- R110: at most one bank is ACTIVE. -/
def OneActive (s : State) : Prop := ¬ (s.bank.a.state = .active ∧ s.bank.b.state = .active)

/-- Each record's sequence number is followed by the next record's, and the last by `next` (R174). -/
def SeqChain (next : Nat) : List CallRecord → Prop
  | [] => True
  | [r] => nextSeq r.seq = next
  | r :: q :: rest => nextSeq r.seq = q.seq ∧ SeqChain next (q :: rest)

/-- R174: at most 64 records, numbered in unbroken order up to the next sequence number, which is 1..4294967295. -/
def LogWf (l : LogArea) : Prop :=
  l.records.length ≤ 64 ∧ SeqChain l.nextSeq l.records ∧ 1 ≤ l.nextSeq ∧ l.nextSeq ≤ 4294967295

/-- What a sound copy of an area holds satisfies `P`. -/
def Area.All {α : Type} (P : α → Prop) (x : Area α) : Prop :=
  (x.one.sound = true → P x.one.contents) ∧ (x.two.sound = true → P x.two.contents)

/-- R174, in the log and in both copies of its area. -/
def LogKept (s : State) : Prop := LogWf s.store.log ∧ s.store.areas.log.All LogWf

/-- R194: at most 32 notices, and at most one of each coalescible kind. -/
def QueueWf (q : List Notice) : Prop :=
  q.length ≤ 32 ∧ q.Pairwise (fun m n => m.kind = n.kind → m.kind.coalescible = false)

/-- R194 for the notice queue. -/
def NoticesKept (s : State) : Prop := QueueWf s.link.notices

/-- R189: no command is outstanding while a reply waits in the slot. -/
def OneAtATime (s : State) : Prop := s.link.outstanding = none ∨ s.link.reply = none

/-- R189: the frame whose turn it is, is the one command that waits, and LINK takes it: nothing comes between. -/
def FrameInTurn (s : State) : Prop :=
  s.link.turn = true → alive s = true ∧ linkReady s.link = true ∧ ∃ e, s.pending = [frameCommand e]

/-- R156, R157: RPT follows the wanted test between attempts, and the idle guard runs exactly while the payphone is
quiet. -/
def ReportFollows (s : State) : Prop :=
  alive s = true →
    (s.rpt.state = .idle → reportWanted s = false) ∧ (s.rpt.state = .readyToStart → reportWanted s = true)
      ∧ s.rpt.quietSince.isSome = quiet s

/-- R71: at most twelve coins stand in the escrow, the one in entry transit counted with them. -/
def EscrowFits (s : State) : Prop :=
  s.coin.escrow.length + s.coin.transit.toList.length ≤ 12
    ∧ s.store.areas.coin.All (fun a => a.escrow.length ≤ 12)

/-- R138, R142, R144, R146: one entry a kind, in kind order, with 1..999 occurrences of which no more than all are
reported; none is both inactive and fully reported, and none of a momentary kind is active. -/
def MapWf (m : List Incident) : Prop :=
  m.Pairwise (fun a b => a.kind.number < b.kind.number)
    ∧ ∀ e ∈ m, 1 ≤ e.count ∧ e.count ≤ 999 ∧ e.reported ≤ e.count
        ∧ (e.active = false → e.reported < e.count) ∧ (momentary e.kind = true → e.active = false)

/-- The incident map, and each sound copy of it. -/
def MapKept (s : State) : Prop := MapWf s.incd.map ∧ s.store.areas.incd.All MapWf

/-- The tables of fixed size: thirteen keys (R24), sixteen crossings, 32 classes in a bank (R113), eight denominations
(R63), in the state and in each sound copy. -/
def TablesKept (s : State) : Prop :=
  s.keys.cells.length = 13 ∧ s.samplers.keys.length = 13 ∧ 13 ≤ s.pins.crossings.length
    ∧ s.bank.a.contents.classes.length = 32 ∧ s.bank.b.contents.classes.length = 32
    ∧ s.config.denomValue.length = 8 ∧ s.config.denomEnabled.length = 8 ∧ s.vault.counters.denoms.length = 8
    ∧ s.store.areas.bankA.All (fun b => b.contents.classes.length = 32)
    ∧ s.store.areas.bankB.All (fun b => b.contents.classes.length = 32)
    ∧ s.store.areas.config.All (fun c => c.denomValue.length = 8 ∧ c.denomEnabled.length = 8)
    ∧ s.store.areas.vault.All (fun a => a.counters.denoms.length = 8)

/-! ### Coins and their records (R19) -/

/-- The value of the coins a record counts as accepted, by their denominations' values. -/
def acceptedValue (values : List Nat) (r : CallRecord) : Nat := (List.zipWith (· * ·) r.accepted values).sum

/-- R19: what a record took over and accepted is what became of it, and `held`, which is still in hand. A record whose
escrow was lost says so (R84, R85). -/
def CoinBalanced (values : List Nat) (held : Nat) (r : CallRecord) : Prop :=
  r.flags.escrowUnknown = true
    ∨ r.takenOver.value + acceptedValue values r
        = r.collected + r.refunded.value + r.jammed.value + r.stranded.value + r.passedOn.value + held

/-- Where coins may stand, and whose they are: how the call state, the slots, the account and the coin path go together
between steps (R7, R16 to R18, R71, R77, R84 to R88, R91). -/
structure CoinsOwned (s : State) : Prop where
  denominations : s.config.denomValue.length = 8
  nothingToReport : s.coin.report = false
  noneComplete : ∀ sl ∈ s.call.closingSlot.toList ++ s.call.atStart, sl.complete = false
  openComplete : ∀ sl, s.call.openSlot = some sl → sl.complete = true →
    s.call.state = .clearing ∧ s.call.refundAsked = true ∧ s.coin.run = .purge ∧ s.call.atStart ≠ []
  noSlotBeforeHook : s.store.start.hookRead = false → s.call.openSlot = none
  openExactlyInACall : s.call.openSlot.isSome = callExists s.call.state
  openCounts : ∀ sl, s.call.openSlot = some sl →
    sl.record.accepted.length = 8 ∧ sl.record.passedOn.value = 0
      ∧ (s.call.state ≠ .clearing ∨ s.rate.phase ≠ .inactive → sl.record.collected = 0)
  unowned : s.call.openSlot = none → callE s = 0
  transit : ∀ x, s.coin.transit = some x →
    1 ≤ x.denom ∧ x.denom ≤ 8 ∧ s.config.denomValue.getD (x.denom - 1) 0 = x.value ∧ s.call.openSlot.isSome = true
      ∧ escrowElsewhere s = false ∧ s.coin.run = .none
  account : s.rate.phase ≠ .inactive → s.rate.phase ≠ .ended ∧ (s.call.state = .connected ∨ s.call.state = .clearing)
      ∧ (s.rate.closing = true ↔ s.call.state = .clearing)
  unopened : s.rate.phase = .inactive → s.rate.acct.collected = 0
  collecting : s.coin.mover = .collecting → s.coin.blind = false →
    escrowElsewhere s = false ∧ s.rate.phase ≠ .inactive
      ∧ (s.rate.closing = true ∨ s.rate.acct.unused < s.rate.acct.due)
  closing : s.call.closingSlot.isSome = true → s.coin.run = .callEnd
  callEndRun : s.coin.run = .callEnd → s.call.atStart = []
      ∧ (s.call.closingSlot = none → s.call.state = .clearing ∧ s.rate.phase = .inactive)
  startRun : s.call.atStart ≠ [] → s.coin.run = .startUp ∨ s.coin.run = .purge
  purge : s.coin.run = .purge → s.coin.escrow = []
  counted : (∃ e ∈ s.coin.escrow, e.counted = true) → s.coin.run = .startUp

/-- R19 between steps: each record in a slot is balanced with the coins it owns: those in the escrow that it has still to
count, and those that its open account has collected. -/
def CoinsKept (s : State) : Prop :=
  let values := s.config.denomValue
  let escrow := (uncountedSum s.coin.escrow).value
  CoinsOwned s
    ∧ (∀ sl, s.call.closingSlot = some sl → CoinBalanced values escrow sl.record)
    ∧ (∀ sl rest, s.call.atStart = sl :: rest →
        CoinBalanced values escrow sl.record ∧ ∀ x ∈ rest, CoinBalanced values 0 x.record)
    ∧ ∀ sl, s.call.openSlot = some sl →
        CoinBalanced values (callE s + if s.rate.phase = .inactive then 0 else s.rate.acct.collected) sl.record

/-! ### Tariffs -/

/-- What a loading command answers and changes (R112): the bank's name, its state LOADING, the item's own tests, and
the new contents. -/
def Loads (kind bank : Byte) (item : BankContents → Except Result BankContents) (s t : State) : Prop :=
  Posted [] s t ∧
    match bankOf? bank with
    | none => Answered (kind + 0x80) [3] s t ∧ t.body = s.body
    | some n =>
      if (s.bank.get n).state = .loading then
        match item (s.bank.get n).contents with
        | .error r => Answered (kind + 0x80) (le1 r.code) s t ∧ t.body = s.body
        | .ok c =>
          Answered (kind + 0x80) [0] s t
            ∧ t.body = { s with bank := s.bank.set n { s.bank.get n with contents := c } }.body
      else Answered (kind + 0x80) [2] s t ∧ t.body = s.body

/-- R119: what the activation instant of bank `n` makes of the banks: the other bank displaced if ACTIVE, bank `n` ACTIVE
with the next serial number and no pending activation; nothing else of them changes. -/
def Activated (n : BankName) (s t : State) : Prop :=
  t.bank.get n = { s.bank.get n with
      state := .active, serial := max s.bank.a.serial s.bank.b.serial + 1, due := none }
    ∧ t.bank.get (otherBank n) = { s.bank.get (otherBank n) with
        state := if (s.bank.get (otherBank n)).state = .active then
            (if s.bank.inUse (otherBank n) then .retiring else .ready)
          else (s.bank.get (otherBank n)).state }
    ∧ t.bank.inUseA = s.bank.inUseA ∧ t.bank.inUseB = s.bank.inUseB

/-- R119 step 4: the BANK notices of an activation, the displaced bank's first. -/
def activationNotices (n : BankName) (s : State) : List Notice :=
  let o := s.bank.get (otherBank n)
  (if o.state = .active then
    [⟨.bank, bankNotice (otherBank n) .active (if s.bank.inUse (otherBank n) then .retiring else .ready) o.contents.label
      .displaced o.due⟩]
   else [])
    ++ [⟨.bank, bankNotice n .pending .active (s.bank.get n).contents.label .activated none⟩]

/-! ### Calls -/

/-- A call whose end nothing holds back: no account, no coin in the path, no earlier record, room in the log. A purge, whose
list is empty too, holds it back no more than a stroke without an entry does (R77). -/
abbrev BareCall (s : State) (sl : Slot) : Prop :=
  s.call.openSlot = some sl ∧ s.call.closingSlot = none ∧ s.call.atStart = [] ∧ s.rate = RateBlock.inactive
    ∧ s.coin.transit = none ∧ s.coin.escrow = [] ∧ (s.coin.run = .none ∨ s.coin.run = .purge)
    ∧ s.coin.report = false ∧ s.store.log.records.length < 64

/-- The record a call ends with: its end time and elapsed time to the end instant, its digits, its cause and the
sequence number the log gives it (R16 step 1, R17, R172). -/
def endedRecord (c : EndCause) (at_ : Nat) (s : State) (sl : Slot) : CallRecord :=
  { sl.record with
    seq := s.store.log.nextSeq
    cause := some c
    endTime := clockAt s at_
    elapsed := tenths sl.offAt at_
    connected := sl.answerElapsed.map (fun a => tenths sl.offAt at_ - a)
    digits := s.keys.buffer
    mode := s.config.ratingMode
    flags := { sl.record.flags with clockUnset := sl.record.flags.clockUnset || (clockAt s at_).isNone } }

/-- R16 to R18: from `u` (the state at the event), the call has ended with cause `c` at the instant `at_`: its record
stands last in the log, its slot is empty, and CALL is in IDLE with the handset on-hook and in ABANDONED with it
off-hook. Only CALL, KEYS' collection, LINE's seizure, COIN's run, RPT and the log may have changed. -/
def CallEnded (c : EndCause) (at_ : Nat) (u t : State) (sl : Slot) : Prop :=
  t.store.log =
      { u.store.log with
        records := u.store.log.records ++ [endedRecord c at_ u sl], nextSeq := nextSeq u.store.log.nextSeq
        handed := some sl.offAt }
    ∧ t.call.openSlot = none
    ∧ t.call.state = (if u.keys.hook = .onHook then .idle else .abandoned)
    ∧ t.call.level = none
    ∧ t.keys = { u.keys with collection := .done, firstDigitTimer := none, interDigitTimer := none }
    ∧ t.line = (if u.line.owner = .call then (release u).line else u.line)
    ∧ t.coin = { u.coin with tally := {} }
    ∧ OnlyChanges [.call, .keys, .line, .coin, .log] u t ∧ LinkKept u t

/-- The account after a step of amount `v` that U covers at once (R90, R91 test 1). -/
def Account.stepped (a : Account) (v : Nat) : Account :=
  { a with charged := a.charged + v, unused := a.unused - v, due := 0 }

/-- The phase the warning test gives (R93). -/
def warnPhase (s : State) : Phase := if s.rate.acct.unused + callE s < s.rate.step then .warning else .running

/-- RATE rates the call and has nothing due, no absence of loop current is timed, and no FOLLOW-ON press is held. -/
abbrev Rated (s : State) : Prop :=
  rating s = true ∧ s.rate.acct.due = 0 ∧ s.line.absentSince = none ∧ s.call.heldFollowOn = false

/-! ### Strokes -/

/-- R73, R74: the coin path with the COLLECT stroke of the head begun, under the next stroke number. -/
def collectBegun (e : EscrowEntry) (rest : List EscrowEntry) (s : State) : CoinBlock :=
  let n := if 255 ≤ s.coin.strokeNo then 1 else s.coin.strokeNo + 1
  { s.coin with
    escrow := { e with moving := some (.collect, n) } :: rest, strokeNo := n
    mover := .collecting, exitTimer := some (s.now + 800), blind := false }

/-- R73: the coin path with the REFUND stroke of the head begun. -/
def refundBegun (e : EscrowEntry) (rest : List EscrowEntry) (s : State) : CoinBlock :=
  { s.coin with
    escrow := { e with moving := some (.refund, s.coin.strokeNo) } :: rest
    mover := .refunding, exitTimer := some (s.now + 800), blind := false }

/-- R74 step 2, R125: the vault's counters with a coin of a denomination more. -/
def countedIn (e : EscrowEntry) (c : Counters) : Counters :=
  { c with denoms := bumpNth (e.denom - 1) c.denoms, total := c.total + 1, value := c.value + e.value }

/-- What the record that owns a coin counts of it when it leaves the escrow: the coin, unless it is one of those that a start
has found counted already (the model's mark, notes/assumptions 97). -/
def stillCounts (e : EscrowEntry) : CoinSum := if e.counted then ⟨0, 0⟩ else ⟨1, e.value⟩

/-- R78: the coin path after its whole list has been stranded. -/
def allStranded (c : CoinBlock) : CoinBlock :=
  let sum := escrowSum c.escrow
  if c.escrow = [] then c
  else { c with
    escrow := [], gone := c.gone + c.escrow.length
    strandedTally :=
      ⟨min 255 (c.strandedTally.coins + sum.coins), min 65535 (c.strandedTally.value + sum.value)⟩
    tally := { c.tally with
      stranded := ⟨c.tally.stranded.coins + sum.coins, c.tally.stranded.value + sum.value⟩ } }

/-! ### Records in the log -/

/-- Records numbered in order from a sequence number on (R174). -/
def numbered : Nat → List CallRecord → List CallRecord
  | _, [] => []
  | n, r :: rest => { r with seq := n } :: numbered (nextSeq n) rest

/-- The sequence number that follows `k` more records (R174). -/
def seqAfter : Nat → Nat → Nat
  | 0, n => n
  | k + 1, n => seqAfter k (nextSeq n)

/-- R174, R17: the log `g` has taken these calls' records, in this order (`handed` is the model's own mark,
notes/assumptions 45). -/
def LogTook (l : List Slot) (g : LogArea) (t : State) : Prop :=
  t.store.log =
    { g with
      records := g.records ++ numbered g.nextSeq (l.map Slot.record)
      nextSeq := seqAfter l.length g.nextSeq
      handed := match l.getLast? with
        | some sl => some sl.offAt
        | none => g.handed }

/-! ### The end of a rated call -/

/-- R105 step 4: the account as it closes with so much more due: U covers due, or due stays unsettled. -/
def Account.closedWith (a : Account) (more : Nat) : Account :=
  let due := a.due + more
  if due ≤ a.unused then { a with charged := a.charged + due, unused := a.unused - due, due := 0, unsettled := 0 }
  else { a with due := due, unsettled := due }

/-- What RATE holds of a call, as its retained area keeps it (R86). -/
def keptAccount (q : RateBlock) : SavedAccount where
  acct := q.acct
  cls := q.cls
  bank := q.bank
  initial := q.initial
  fixedMode := q.fixedMode
  fallbackUsed := q.fallbackUsed
  band := q.band
  rate := q.rate
  period := q.period
  periods := q.periods
  pulses := q.pulses
  flags := q.flags

/-- R16 step 3, R19, R105: the record with what the account gives it, closed with the held steps `l`. -/
def ratedRecord (l : List HeldStep) (q : SavedAccount) (r : CallRecord) : CallRecord :=
  let a := q.acct.closedWith (l.map HeldStep.amount).sum
  { r with
    collected := a.collected
    charged := a.charged
    unsettled := a.unsettled
    initial := q.initial
    periods := q.periods + (l.filter HeldStep.period).length
    pulses := q.pulses
    mode := q.fixedMode
    fallbackUsed := q.fallbackUsed
    flags := { r.flags with
      clockUnset := r.flags.clockUnset || q.flags.clockUnset
      periodClamped := r.flags.periodClamped || q.flags.periodClamped
      bandChanged := r.flags.bandChanged || q.flags.bandChanged
      pulseFallback := r.flags.pulseFallback || q.flags.pulseFallback
      longPulse := r.flags.longPulse || q.flags.longPulse } }

/-- R96, R105 step 1: the held steps that count at an end instant. -/
def heldUpTo (at_ : Nat) (s : State) : List HeldStep := s.rate.held.filter (fun h => decide (h.time ≤ at_))

/-- R105 step 5, R120: the banks when an account has ended: its bank is in use no more, and a RETIRING one is READY. -/
def banksReleased (s : State) : BankBlock :=
  let rest (b : Bank) : Bank := { b with state := if b.state = .retiring then .ready else b.state }
  match s.rate.bank with
  | some .a => { s.bank with inUseA := false, a := rest s.bank.a }
  | some .b => { s.bank with inUseB := false, b := rest s.bank.b }
  | none => s.bank

/-- A call that RATE rates, with no earlier record, no coin in entry transit, no stroke under way, and room in the log. -/
abbrev RatedCall (s : State) (sl : Slot) : Prop :=
  s.call.openSlot = some sl ∧ sl.complete = false ∧ s.call.closingSlot = none ∧ s.call.atStart = [] ∧ rating s = true
    ∧ s.coin.transit = none ∧ s.coin.run = .none ∧ s.coin.mover = .idle ∧ s.coin.report = false
    ∧ s.store.log.records.length < 64

/-- The record of a rated call at its end (R16 steps 1 and 3). -/
def ratedEndRecord (c : EndCause) (at_ : Nat) (u : State) (sl : Slot) : CallRecord :=
  ratedRecord (heldUpTo at_ u) (keptAccount u.rate) (endedRecord c at_ u sl)

/-- What the end of a rated call makes of every block but COIN and the log (R16 to R18, R105, R106). -/
def RatedEndCommon (u t : State) : Prop :=
  t.rate = RateBlock.inactive ∧ t.bank = banksReleased u
    ∧ t.line = (if u.line.owner = .call then (release u).line else u.line) ∧ LinkKept u t

/-- R16 to R18, R105: from `u` (the state at the event) a rated call has ended with cause `c` at the instant `at_`, and its
record, with the closed account's values, stands last in the log: the escrow was empty, or OUT_OF_ORDER, and then what it
held is stranded (R78). -/
def RatedCallEnded (c : EndCause) (at_ : Nat) (u t : State) (sl : Slot) : Prop :=
  LogTook [{ sl with record := { ratedEndRecord c at_ u sl with
      stranded := sl.record.stranded.add (uncountedSum u.coin.escrow) } }] u.store.log t
    ∧ t.call.openSlot = none ∧ t.call.state = (if u.keys.hook = .onHook then .idle else .abandoned)
    ∧ t.call.level = none
    ∧ t.keys = { u.keys with collection := .done, firstDigitTimer := none, interDigitTimer := none }
    ∧ t.coin = allStranded { u.coin with tally := {} } ∧ t.vault.counters = u.vault.counters
    ∧ (u.coin.escrow = [] → t.vault = u.vault ∧ t.incd = u.incd)
    ∧ OnlyChanges [.call, .keys, .line, .coin, .log, .rate, .bank, .vault, .incd] u t ∧ RatedEndCommon u t

/-- R16, R77, R105: as `RatedCallEnded`, with the coins `e :: rest` in the escrow IN_ORDER: the call is in CLEARING, its
record, with the closed account's values, waits in the open slot, and the refund of the first coin has begun. -/
def RatedCallClears (c : EndCause) (at_ : Nat) (u t : State) (sl : Slot) (e : EscrowEntry) (rest : List EscrowEntry) :
    Prop :=
  t.call.openSlot = some { sl with
      ended := true, record := { ratedEndRecord c at_ u sl with seq := sl.record.seq } }
    ∧ t.call.state = .clearing ∧ t.call.refundAsked = true ∧ t.call.replaced = decide (u.keys.hook = .onHook)
    ∧ t.keys = { u.keys with collection := .done, firstDigitTimer := none, interDigitTimer := none }
    ∧ t.coin = refundBegun e rest { u with coin := { u.coin with run := .callEnd, tally := {} } }
    ∧ OnlyChanges [.call, .keys, .line, .coin, .rate, .bank] u t ∧ RatedEndCommon u t

/-- R21, R22, R106: from `u`, with due 0, the call has ended with cause FOLLOW_ON and the next one has begun: the ended
record, with the unused amount carried out and the escrow passed on, stands last in the log, and the new record follows
it with that amount carried in and that escrow taken over. -/
def FollowOnEnded (u t : State) (sl : Slot) : Prop :=
  LogTook [{ sl with record := { ratedRecord [] (keptAccount u.rate) (endedRecord .followOn u.now u sl) with
      carriedOut := u.rate.acct.unused, passedOn := escrowSum u.coin.escrow } }] u.store.log t
    ∧ t.call.openSlot = some
        { record := { follows := some u.store.log.nextSeq, offHook := u.store.clock, carriedIn := u.rate.acct.unused,
                      takenOver := escrowSum u.coin.escrow, mode := u.config.ratingMode,
                      flags := { clockUnset := u.store.clock.isNone } },
          offAt := u.now, base := u.coin.gone }
    ∧ t.call.state = .followOnClearing ∧ t.call.heldFollowOn = false ∧ t.call.earpiece = .silent
    ∧ t.keys = { u.keys with
        collection := .inactive, buffer := [], best := none, firstDigitTimer := none, interDigitTimer := none }
    ∧ OnlyChanges [.call, .keys, .line, .log, .rate, .bank] u t ∧ RatedEndCommon u t

/-! ### Settlement and number completion -/

/-- R88, R6, R21: CALL's block after it has been told, at the instant `at_`, the change of phase from `p` to `q`: WARNING and
GRACE sound the warning and set its 5 s, GRACE clears a held FOLLOW-ON press, and the other phases stop the 5 s. A phase left
as it is, is not told. -/
def phaseTold (p q : Phase) (at_ : Nat) (c : CallBlock) : CallBlock :=
  if p = q then c
  else match q with
    | .warning => { c with lastWarning := some at_, warningTimer := some (at_ + 5000) }
    | .grace => { c with lastWarning := some at_, warningTimer := some (at_ + 5000), heldFollowOn := false }
    | .inactive | .settling | .running | .ended => { c with warningTimer := none }

/-- R91 tests 2 to 6, R94, R95: from `u`, in which a step is due that U does not cover: what settlement waits for, or how
it ends the call. Of CALL's block a waiting settlement changes what the change of phase does (`phaseTold`), and no more. -/
def SettlementWaits (u t : State) : Prop :=
  let waits := t.rate = { u.rate with phase := .settling }
    ∧ t.call = phaseTold u.rate.phase .settling u.now u.call
    ∧ OnlyChanges [.rate, .call, .coin] u t ∧ LinkKept u t
  (u.coin.mover = .collecting → u.coin.blind = false → waits ∧ t.coin = u.coin)
    ∧ (∀ e rest, u.coin.mover = .idle → u.coin.escrow = e :: rest → u.coin.order = .inOrder →
        escrowElsewhere u = false → waits ∧ t.coin = collectBegun e rest u)
    ∧ ((u.coin.mover = .idle ∧ (u.coin.escrow = [] ∨ u.coin.order = .outOfOrder ∨ escrowElsewhere u = true))
          ∨ u.coin.mover = .refunding ∨ (u.coin.mover = .collecting ∧ u.coin.blind = true) →
        (u.coin.transit.isSome = true → waits ∧ t.coin = u.coin)
        ∧ (∀ sl, u.coin.order = .outOfOrder → RatedCall u sl → RatedCallEnded .escrowFault u.now u t sl)
        ∧ (u.coin.transit = none → u.coin.order = .inOrder →
          (u.rate.graceExpired = false →
            t.rate = { u.rate with phase := .grace, graceTimer := some (u.rate.graceTimer.getD (u.now + 10000)) }
            ∧ t.call = phaseTold u.rate.phase .grace u.now u.call
            ∧ OnlyChanges [.rate, .call] u t ∧ LinkKept u t)
          ∧ (∀ sl, u.rate.graceExpired = true → RatedCall u sl → RatedCallEnded .creditOut u.now u t sl)))

/-- R11: from `u`, CALL has requested the line for the number in the dial buffer: seized when FREE, waited for in GUARD, and
taken from a report attempt, which is aborted. -/
def LineRequested (u t : State) : Prop :=
  (u.line.state = .free → u.line.owner = .none → u.store.start.voltageRead = true →
      t.call.state = .seizing ∧ t.line.state = .seizedWaitTone ∧ t.line.owner = .call
      ∧ t.line.digits = u.keys.buffer.map Symbol.dtmf
      ∧ t.line.dialToneTimer = some (u.now + u.config.dialToneWait * 1000) ∧ OnlyChanges [.call, .keys, .line] u t)
    ∧ (u.line.state = .guard → u.line.owner = .none → t.call.state = .waitLine ∧ OnlyChanges [.call, .keys] u t)
    ∧ (u.line.owner = .rpt → attempting u.rpt.state = true →
      t.call.state = .waitLine ∧ t.line = (release u).line ∧ attempting t.rpt.state = false ∧ t.rpt.blocks = none
      ∧ t.rpt.failures = u.rpt.failures ∧ t.rpt.backoffTimer = u.rpt.backoffTimer
      ∧ OnlyChanges [.call, .keys, .line, .rpt] u t)

/-- R5, R9 to R11, R37: from `u`, with the whole number in the buffer: what the call in COLLECTING makes of the completed
number of kind `k` and class `cls`. -/
def NumberDone (k : NumberKind) (cls : Option Nat) (u t : State) (sl : Slot) : Prop :=
  let sl1 := sl.modify (fun r => { r with kind := k, cls := cls })
  let level := serviceLevel u
  let barred := (u.config.sendingMethod = .loopPulse ∧ Symbol.star ∈ u.keys.buffer) ∨ k = .barred
  let honoured := k = .emergency ∨ (k = .free ∧ level ≠ .emergencyOnly) ∨ (k = .charged ∧ level = .full)
  let price := (activeBank u).bind (fun n => cls.bind (fun c => priceIn u n c))
  let deposit := (price.map Price.initial).getD 0 + u.config.chargeStep
  let covered := k ≠ .charged ∨ deposit ≤ sl.record.carriedIn + callE u
  (barred → BareCall u sl → CallEnded .barred u.now u t sl1)
    ∧ (¬ barred → ¬ honoured → BareCall u sl → CallEnded .refused u.now u t sl1)
    ∧ (¬ barred → honoured →
      t.call.openSlot = some sl1 ∧ t.call.level = some level ∧ LinkKept u t
      ∧ t.keys = { u.keys with collection := .done, firstDigitTimer := none, interDigitTimer := none }
      ∧ (¬ covered →
          t.call.state = .awaitDeposit ∧ t.call.deposit = deposit ∧ t.call.earpiece = .deposit
          ∧ t.call.depositTimer = some (u.now + u.config.depositWait * 1000) ∧ OnlyChanges [.call, .keys] u t)
      ∧ (covered → LineRequested u t))

/-- The key of a symbol that digit collection stores (R24, R30). -/
def symbolKey : Symbol → Key
  | .digit d => .digit d
  | .star => .star

/-! ### Urgent occurrences -/

/-- R166, R168: RPT after an urgent occurrence at the instant `i`: no failed attempt since it, and a remaining wait longer than
2 min set to 2 min, which is written; a shorter one is kept, and the failure count with it. -/
def rptUrged (i : Nat) (r : RptBlock) : RptBlock :=
  if r.state = .wait ∧ i + 120000 < r.backoffTimer.getD 0 then
    { r with urgentFailures := 0, backoffTimer := some (i + 120000), savedWait := 1200 }
  else { r with urgentFailures := 0 }

/-! ### The tone detector -/

/-- R47 to R51: what one 5 ms interval recognises, each event at its instant and at no other: dial tone when a run reaches
300 ms; busy when the silence of the third cycle reaches 400 ms; a long pulse when a burst passes 500 ms, and a valid one when
a burst of its minimum up to 500 ms ends; BYE when a run reaches 1000 ms, and another cadence when the silence of its second
repetition in a row reaches 160 ms, neither of them while 400 ms of silence are awaited (R52). `m` is the
presence in the meter band. -/
def ToneRecognised (m : Bool) (s t : State) : Prop :=
  let g := s.line.progress
  let b := s.line.meter
  let r := s.line.centre
  (Instr.dialToneRecognised ∈ t.raised ↔ Instr.dialToneRecognised ∈ s.raised
      ∨ (g.active = true ∧ g.dialTiming = true ∧ g.run = ⟨true, 295⟩))
    ∧ (Instr.busyRecognised ∈ t.raised ↔ Instr.busyRecognised ∈ s.raised
      ∨ (g.active = true ∧ g.busyWatch = true ∧ g.cycles = 2 ∧ g.runOk = true ∧ g.run = ⟨false, 395⟩))
    ∧ (b.broken = false →
      (Instr.meterPulse true ∈ t.raised ↔ Instr.meterPulse true ∈ s.raised
        ∨ (b.active = true ∧ ∃ x, b.burst = some x ∧ x.judged = false ∧ 500 < x.ms + 5))
      ∧ (Instr.meterPulse false ∈ t.raised ↔ Instr.meterPulse false ∈ s.raised
        ∨ (b.active = true ∧ (m && currentPresent s.line) = false
          ∧ ∃ x, b.burst = some x ∧ x.judged = false ∧ x.minimum ≤ x.ms + 5 ∧ x.ms + 5 ≤ 500)))
    ∧ ∀ k, Instr.cadenceRecognised k ∈ t.raised ↔ Instr.cadenceRecognised k ∈ s.raised
      ∨ (r.active = true ∧ r.hold = false
        ∧ ((r.run = ⟨true, 995⟩ ∧ k = .bye)
          ∨ (r.run = ⟨false, 155⟩ ∧ r.candidate = some k ∧ r.latest = some k ∧ r.count = 1)))

/-- The run in progress after an interval at whose end the presence is `p`. -/
def runAfter (p : Bool) (r : Run) : Run := if r.tone = p then ⟨p, r.ms + 5⟩ else ⟨p, 0⟩

/-- R48: the count of busy cycles after an interval of the call-progress channel. -/
def BusyCounted (p : Bool) (g h : ProgressChannel) : Prop :=
  let n := g.run.ms + 5
  h.run = runAfter p g.run
    ∧ (600 < n → h.cycles = 0)
    ∧ (n ≤ 600 → g.run.tone = true →
      (p = true → h.cycles = g.cycles)
      ∧ (p = false → n < 400 → h.cycles = 0)
      ∧ (p = false → 400 ≤ n → h.cycles = g.cycles ∧ h.runOk = true))
    ∧ (n ≤ 600 → g.run.tone = false →
      h.cycles = (if n = 400 ∧ g.runOk = true then g.cycles + 1 else g.cycles) ∧ (p = true → h.runOk = false))

/-- R49: the burst and the silence after an interval of the meter channel, with presence `p` and the configured minimum. -/
def BurstTimed (p : Bool) (minimum : Nat) (b d : MeterChannel) : Prop :=
  (∀ x, b.burst = some x →
      (p = true → d.burst = some ⟨x.ms + 5, x.minimum, x.judged || decide (500 < x.ms + 5)⟩)
      ∧ (p = false → d.burst = none ∧ d.gap = some 0))
    ∧ (b.burst = none → b.ignoring = false →
      (p = false → d.burst = none ∧ d.gap = b.gap.map (· + 5))
      ∧ (p = true → b.gap = none → d.burst = some ⟨0, minimum, false⟩)
      ∧ (∀ g, p = true → b.gap = some g → 100 ≤ g + 5 → d.burst = some ⟨0, minimum, false⟩)
      ∧ (∀ g, p = true → b.gap = some g → g + 5 < 100 → d.burst = none ∧ d.ignoring = true))
    ∧ (b.burst = none → b.ignoring = true →
      d.burst = none ∧ (p = true → d.ignoring = true) ∧ (p = false → d.ignoring = false ∧ d.gap = some 0))

/-- R51's windows. -/
def windowOf (n : Nat) : Option Cadence :=
  if 560 ≤ n ∧ n ≤ 640 then some .ready
  else if 360 ≤ n ∧ n ≤ 440 then some .again
  else if 160 ≤ n ∧ n ≤ 240 then some .ack
  else none

/-- R51, R52: the repetitions after an interval of the centre channel. That the silence under way at a delivery counts toward
the 400 ms is the model's choice (notes/assumptions 59). -/
def RepetitionsCounted (c : Bool) (r q : CentreChannel) : Prop :=
  let n := r.run.ms + 5
  q.run = runAfter c r.run
    ∧ (r.hold = true → q.hold = !(!r.run.tone && decide (400 ≤ n)) ∧ (q.hold = false → q.count = 0))
    ∧ (r.hold = false →
      q.hold = false
      ∧ (r.run.tone = true → 640 < n → q.count = 0)
      ∧ (r.run.tone = true → c = false → q.candidate = windowOf n ∧ (windowOf n = none → q.count = 0))
      ∧ (r.run.tone = false → 240 < n → q.count = 0)
      ∧ ∀ k, r.run = ⟨false, 155⟩ → r.candidate = some k →
        q.latest = some k ∧ q.count = if r.latest = some k then r.count + 1 else 1)

/-! ### Steps of the account -/

/-- R91 to R95, R21: from `u`, with the whole due in its account: U covers due and the settlement is complete, or it waits. Of
CALL's block it changes what the change of phase does, and no more; but a FOLLOW-ON press that was held ends the call as
soon as the settlement is complete. -/
def SettlementRuns (u t : State) : Prop :=
  (u.rate.acct.due ≤ u.rate.acct.unused → u.call.heldFollowOn = false →
      t.rate = { u.rate with
        acct := u.rate.acct.stepped u.rate.acct.due, phase := warnPhase t, graceTimer := none, graceExpired := false }
      ∧ t.call = phaseTold u.rate.phase (warnPhase t) u.now u.call
      ∧ OnlyChanges [.rate, .call] u t ∧ LinkKept u t)
    ∧ (∀ sl, u.rate.acct.due ≤ u.rate.acct.unused → u.call.heldFollowOn = true → u.call.state = .connected →
      u.call.openSlot = some sl → u.call.closingSlot = none → u.call.atStart = [] → u.coin.run = .none →
      u.store.log.records.length < 64 →
      let v := { u with rate := { u.rate with
        acct := u.rate.acct.stepped u.rate.acct.due, graceTimer := none, graceExpired := false } }
      FollowOnEnded { v with
        rate := { v.rate with phase := warnPhase v }
        call := phaseTold u.rate.phase (warnPhase v) u.now u.call } t sl)
    ∧ (u.rate.acct.unused < u.rate.acct.due → SettlementWaits u t)

/-- R97 to R99: the duration, the new remainder and whether the period is clamped, of a period that carries `r` in. -/
def periodFor (u : State) (n : BankName) (rate carried : Nat) : Nat × Nat × Bool :=
  if rate = 0 then zeroPeriod (u.bank.get n).contents u.store.clock else periodOf u.rate.step rate carried

/-- R96 to R99: from `u`, a period has started at the instant `i` after the period `prev`, if any: in the band and at the rate
found then. Its step is taken, and the period counted, at once, and settlement run if anything is due; or, while an absence
of loop current is being timed, the step is held with its instant, and no settlement runs. -/
def PeriodStarted (prev : Option Period) (i : Nat) (n : BankName) (cls : Nat) (u t : State) : Prop :=
  let b := (resolveBand u n).1
  let r := rateIn u n cls b
  let carried := match prev with
    | some p => if p.band = b then p.remainder else 0
    | none => 0
  let d := periodFor u n r carried
  let amount := if r = 0 then 0 else u.rate.step
  let rate : RateBlock := { u.rate with
    band := some b, rate := r, period := some ⟨b, r, d.2.1, i, i + d.1 * 100⟩
    flags := { u.rate.flags with
      clockUnset := u.rate.flags.clockUnset || u.store.clock.isNone
      bandChanged := u.rate.flags.bandChanged || prev.any (fun (p : Period) => decide (p.band ≠ b))
      periodClamped := u.rate.flags.periodClamped || d.2.2 } }
  let after : RateBlock :=
    if u.line.absentSince.isSome then { rate with held := rate.held ++ [⟨i, amount, true⟩] }
    else { rate with periods := rate.periods + 1, acct := { rate.acct with due := rate.acct.due + amount } }
  (u.line.absentSince.isSome = true ∨ after.acct.due = 0 → t.rate = after ∧ OnlyChanges [.rate] u t ∧ LinkKept u t)
    ∧ (u.line.absentSince = none → 0 < after.acct.due → SettlementRuns { u with rate := after } t)

/-! ### Answer -/

/-- R89: the account at the instant of answer, before its settlement. `pulse` is the long mark of the meter pulse that
answered the call, if one did. In an absence of loop current the initial charge and the first period's step are held (R90,
R96; notes/assumptions 62). -/
def answerRate (n : BankName) (cls : Nat) (p : Price) (carriedIn : Nat) (pulse : Option Bool) (u : State) : RateBlock :=
  let mode := if pulse.isSome then .meter else u.config.ratingMode
  let step := u.config.chargeStep
  let b := (resolveBand u n).1
  let r := rateIn u n cls b
  let opened : RateBlock := { RateBlock.inactive with
    phase := .settling, cls := some cls, bank := some n, initial := p.initial, rates := p.rates, step := step
    fixedMode := mode, answerAt := u.now, band := some b, rate := r
    acct := { carried := carriedIn, unused := carriedIn } }
  let absent := u.line.absentSince.isSome
  let initialDue := if absent then 0 else p.initial
  let initialHeld : List HeldStep := if absent then [⟨u.now, p.initial, false⟩] else []
  let first := if r = 0 then 0 else step
  match mode with
  | .localTiming =>
    let d := if r = 0 then zeroPeriod (u.bank.get n).contents u.store.clock else periodOf step r 0
    { opened with
      mode := some .localTiming, periods := if absent then 0 else 1
      period := some ⟨b, r, d.2.1, u.now, u.now + d.1 * 100⟩
      held := if absent then initialHeld ++ [⟨u.now, first, true⟩] else []
      acct := { opened.acct with due := initialDue + if absent then 0 else first }
      flags := { clockUnset := u.store.clock.isNone, periodClamped := d.2.2 } }
  | .meter =>
    let limit := if r = 0 then 0 else 2 * min 36000 (max 5 (600 * step / r)) + 50
    { opened with
      mode := some .meter, limit := limit, superTimer := if r = 0 then none else some (u.now + limit * 100)
      pulses := if pulse.isSome then 1 else 0
      held := initialHeld
      acct := { opened.acct with due := initialDue + if pulse.isSome then step else 0 }
      flags := { clockUnset := u.store.clock.isNone, longPulse := pulse.getD false } }

/-- R13: CALL's block at an answer that leaves the call in CONNECTED, with `sl` the open record. -/
def connectedCall (sl : Slot) (u : State) : CallBlock :=
  { u.call with
    state := .connected, earpiece := .line, toneSince := u.now, answerTimer := none, openSlot := some sl }

/-- R120: the banks with the in-use mark of one set. -/
def bankTaken (n : BankName) (b : BankBlock) : BankBlock :=
  match n with
  | .a => { b with inUseA := true }
  | .b => { b with inUseB := true }

/-- R13, R89: from `u`, in which LINE has marked the answer, what CALL in RINGING makes of it: a call that is not CHARGED is
CONNECTED; a CHARGED one whose class the ACTIVE bank lacks, or with no bank ACTIVE, is REFUSED; and otherwise it is CONNECTED,
with its bank in use and named in the record, and its account opened and settled. -/
def AnswerTaken (pulse : Option Bool) (u t : State) (sl : Slot) : Prop :=
  let answered := { sl with
    answerElapsed := some ((u.now - sl.offAt) / 100)
    record := { sl.record with
      answer := u.store.clock
      flags := { sl.record.flags with clockUnset := sl.record.flags.clockUnset || u.store.clock.isNone } } }
  (sl.record.kind ≠ .charged →
      t.call = connectedCall answered u ∧ OnlyChanges [.call] u t ∧ LinkKept u t)
    ∧ (sl.record.kind = .charged → BareCall u sl →
      (activeBank u = none ∨ sl.record.cls = none
        ∨ ∃ n cls, activeBank u = some n ∧ sl.record.cls = some cls ∧ priceIn u n cls = none) →
      CallEnded .refused u.now u t answered)
    ∧ (∀ n cls p, sl.record.kind = .charged → activeBank u = some n → sl.record.cls = some cls →
      priceIn u n cls = some p →
      let priced := { answered with record := { answered.record with bank := some (n, (u.bank.get n).contents.label) } }
      let v := { u with
        call := connectedCall priced u, bank := bankTaken n u.bank, rate := answerRate n cls p sl.record.carriedIn pulse u }
      SettlementRuns v t
        ∧ (v.rate.acct.due ≤ v.rate.acct.unused → u.call.heldFollowOn = false →
          t.call.state = .connected ∧ t.call.answerTimer = none ∧ t.call.openSlot = some priced ∧ t.bank = v.bank)
        ∧ (v.rate.acct.unused < v.rate.acct.due → u.coin.order = .inOrder ∨ u.coin.transit.isSome = true →
          t.call.state = .connected ∧ t.call.answerTimer = none ∧ t.call.openSlot = some priced ∧ t.bank = v.bank))

/-! ### A start -/

/-- R180: the kind of start that the marker gives. -/
def kindFor : Marker → StartKind
  | .running | .unreadable => .power
  | .restarting => .restart
  | .clearing => .factory

/-! ### Waiting records -/

/-- R18: CALL has left CLEARING: for IDLE with the handset on-hook; off-hook for ABANDONED, or, when it had been replaced
since the end instant, for a new call, which R8 begins. -/
def ClearingLeft (replaced : Bool) (u t : State) : Prop :=
  match u.keys.hook, replaced with
  | .onHook, _ =>
    t.call.state = .idle ∧ t.call.level = none ∧ t.call.openSlot = none ∧ t.call.abandonedTimer = none ∧ t.keys = u.keys
  | .offHook, false =>
    t.call.state = .abandoned ∧ t.call.level = none ∧ t.call.openSlot = none
      ∧ t.call.abandonedTimer = some (t.now + 600000) ∧ t.keys = u.keys
  | .offHook, true =>
    t.call.state = .collecting ∧ t.call.level = some (serviceLevel t)
      ∧ t.call.openSlot = some
          { record := { offHook := u.store.clock, mode := u.config.ratingMode,
                        flags := { clockUnset := u.store.clock.isNone } },
            offAt := t.now, base := t.coin.gone + t.coin.escrow.length }
      ∧ t.keys = { u.keys with
          collection := .awaitFirst, buffer := [], best := none, firstDigitTimer := some (t.now + 20000),
          interDigitTimer := none }

/-- A call in CLEARING whose escrow a refund run returns, with no earlier record, and room in the log. -/
abbrev CallClearing (s : State) (sl : Slot) : Prop :=
  s.call.openSlot = some sl ∧ sl.complete = false ∧ s.call.state = .clearing ∧ s.call.closingSlot = none
    ∧ s.call.atStart = [] ∧ s.rate = RateBlock.inactive ∧ s.call.refundAsked = true ∧ s.coin.transit = none
    ∧ s.coin.run = .callEnd ∧ s.coin.blind = false ∧ s.coin.report = false ∧ s.store.log.records.length < 64

/-! ### A start's records and escrow -/

/-- R84: the head found MOVING at a start, with its stroke. -/
def headMoving (l : List EscrowEntry) : Option (EscrowEntry × Stroke × Nat) :=
  match l with
  | e :: _ => e.moving.map (fun m => (e, m.1, m.2))
  | [] => none

/-- The coins of the retained list, those marked that the record of `sl` has still not to count: by the model's numbers, coins
that CALL's area has counted as gone, or that entered the escrow before the record's own (notes/assumptions 97). -/
def listFound (a : CallArea) (sl : Slot) (c : CoinArea) : List EscrowEntry :=
  (c.escrow.zipIdx (c.gone + 1)).map (fun x =>
    { x.1 with entryAt := none, counted := x.1.counted || decide (x.2 ≤ max a.gone sl.base) })

/-- R83, R67: the last coin a record counts as accepted counts no more when by the model's numbers it neither stands in COIN's
retained list nor has left it: it was still in transit (notes/assumptions 97). -/
def lastJudged (a : CallArea) (c : CoinArea) (sl : Slot) (r : CallRecord) : CallRecord :=
  match sl.lastCoin with
  | some (no, d) =>
    if c.gone + c.escrow.length < no ∧ a.gone < no then { r with accepted := dropNth (d - 1) r.accepted } else r
  | none => r

/-- R107: a retained account with the coin of an interrupted COLLECT stroke credited, unless its stroke number was
already, or by the model's marks its record has counted it (notes/assumptions 97). -/
def SavedAccount.withCoin (a : SavedAccount) (moved : Option (EscrowEntry × Stroke × Nat)) (credited : Option Nat) :
    SavedAccount :=
  match moved with
  | some (e, .collect, n) =>
    if credited = some n ∨ e.counted = true then a
    else { a with acct := { a.acct with
      collected := a.acct.collected + e.value, unused := a.acct.unused + e.value, last := some e.value } }
  | _ => a

/-- R181 steps 1 and 2, R107: the record of the call found open at a start of kind `k`: its cause, its end at the restart
or at the last-alive mark (or, of a call already in CLEARING, as it was), and its retained account, closed. -/
def foundOpen (k : StartKind) (a : CallArea) (moved : Option (EscrowEntry × Stroke × Nat)) (sl : Slot) : CallRecord :=
  let atEnd := match k, a.restartEnd with
    | .restart, some (i, c) => ((i - sl.offAt) / 100, c)
    | _, _ => (sl.lastAlive, sl.record.offHook.map (fun t => t + sl.lastAlive / 10))
  let r := if sl.ended = true then sl.record else
    { sl.record with
      endTime := atEnd.2, elapsed := atEnd.1, connected := sl.answerElapsed.map (fun x => atEnd.1 - x)
      flags := { sl.record.flags with clockUnset := sl.record.flags.clockUnset || atEnd.2.isNone } }
  let r1 := { r with cause := some (if k = .restart then .restart else .power) }
  match a.account with
  | some q => ratedRecord [] (q.withCoin moved a.lastCredited) r1
  | none => r1

/-- R84: what the interrupted stroke leaves in the record of the call, POWER_MOVE if the coin is `owned` by it. -/
def movedInto (moved : Option (EscrowEntry × Stroke × Nat)) (owned : Bool) (r : CallRecord) : CallRecord :=
  match moved with
  | some (e, .refund, _) =>
    { r with
      refunded := ⟨r.refunded.coins + (stillCounts e).coins, r.refunded.value + (stillCounts e).value⟩
      flags := { r.flags with powerMove := r.flags.powerMove || owned } }
  | some (_, .collect, _) => { r with flags := { r.flags with powerMove := r.flags.powerMove || owned } }
  | none => r

/-- R84, R78, R181, R107, with CALL's, COIN's, VAULT's and LOG's areas valid and one open record: the coin of an
interrupted stroke is taken as having reached its exit, and counted by VAULT if its stroke number was not; the coins left
are refunded from the head on, or stranded when the escrow is OUT_OF_ORDER; and when none is left the record is stored. A
record the log already has is not stored again (R174; the mark is the model's, notes/assumptions 45). What the record had
counted before the loss of power it does not count again (the model's marks, notes/assumptions 97). -/
def StartTreats (k : StartKind) (a : CallArea) (c : CoinArea) (v : VaultArea) (g : LogArea) (t : State) : Prop :=
  (t.vault.counters = (match headMoving c.escrow with
      | some (e, .collect, n) => if v.lastStroke = some n then v.counters else countedIn e v.counters
      | _ => v.counters))
    ∧ (∀ sl, a.openSlot = some sl → a.closingSlot = none → a.atStart = [] → (∀ i, g.handed = some i → i < sl.offAt) →
      g.records.length < 64 →
      (let list := listFound a sl c
       let moved := headMoving list
       let left := if moved.isSome then list.tail else list
       let sum := escrowSum left
       let owned := decide (sl.base ≤ max c.gone (a.gone - c.escrow.length))
       let r := movedInto moved owned (lastJudged a c sl (foundOpen k a moved sl))
       (left = [] →
          LogTook [{ sl with record := r }] g t ∧ t.call.atStart = [] ∧ t.coin.escrow = [] ∧ t.coin.run = .none
          ∧ t.coin.mover = .idle ∧ t.coin.strandedTally = c.strandedTally)
       ∧ (left ≠ [] → c.order = .outOfOrder →
          LogTook [{ sl with record := { r with stranded := r.stranded.add (uncountedSum left) } }] g t ∧ t.call.atStart = []
          ∧ t.coin.escrow = [] ∧ t.coin.run = .none ∧ t.coin.mover = .idle
          ∧ t.coin.strandedTally =
              ⟨min 255 (c.strandedTally.coins + sum.coins), min 65535 (c.strandedTally.value + sum.value)⟩)
       ∧ (∀ x rest, left = x :: rest → c.order = .inOrder →
          t.store.log = g ∧ t.call.atStart.map Slot.record = [r] ∧ t.coin.run = .startUp ∧ t.coin.mover = .refunding
          ∧ t.coin.blind = false ∧ t.coin.exitTimer = some (t.now + 800)
          ∧ t.coin.escrow = { x with moving := some (.refund, c.strokeNo) } :: rest)))
    ∧ (∀ first sl, a.openSlot = some sl → a.closingSlot = some first → a.atStart = [] → c.escrow = [] →
      (∀ i, g.handed = some i → i < first.offAt ∧ i < sl.offAt) → g.records.length < 63 →
      LogTook [{ first with record := lastJudged a c first first.record },
        { sl with record := lastJudged a c sl (foundOpen k a none sl) }] g t ∧ t.call.atStart = [])
    ∧ (∀ sl i, a.openSlot = some sl → a.closingSlot = none → a.atStart = [] → g.handed = some i → sl.offAt ≤ i →
      t.call.atStart = [] ∧ t.store.log = g)

/-- R85: the purge runs, its first blind REFUND stroke under way, and no entry stands in the list. -/
def PurgeBegun (t : State) : Prop :=
  t.coin.run = .purge ∧ t.coin.mover = .refunding ∧ t.coin.blind = true ∧ t.coin.exitTimer = some (t.now + 800)
    ∧ t.coin.purgeStrokes = 1 ∧ t.coin.purgeCount = some 0 ∧ t.coin.escrow = []

/-- R179 to R181, R83 to R85, R107, R124: the start of kind `k` that finds the areas `ar` has been taken. -/
def StartTaken (ar : Areas) (k : StartKind) (t : State) : Prop :=
  t.power = .starting ∧ t.store.start.kind = k
    ∧ t.line.state = .guard ∧ t.line.owner = .none ∧ t.line.guardTimer = some (t.now + 1500)
    ∧ (∀ j, (cellOf j t.keys).state = .released) ∧ t.keys.collection = .inactive
    ∧ t.rate = RateBlock.inactive ∧ t.coin.transit = none ∧ t.call.openSlot = none ∧ t.call.closingSlot = none
    ∧ t.link.outstanding = none ∧ t.link.assembler = .hunt ∧ t.link.input = [] ∧ t.link.ended = []
    ∧ t.incd.cordOpen = none ∧ t.incd.window = []
    ∧ (k = .factory → t.config = ConfigItems.default ∧ t.store.start.invalid = [] ∧ t.store.log = {} ∧ t.incd.map = []
        ∧ PurgeBegun t)
    ∧ (k ≠ .factory →
        (∀ c, ar.config.newest = some c → t.config = c.contents ∧ .config ∉ t.store.start.invalid)
        ∧ (ar.config.newest = none → .config ∈ t.store.start.invalid
            ∧ ConfigItems.default.vaultCapacity ≤ t.config.vaultCapacity
            ∧ t.config = { ConfigItems.default with vaultCapacity := t.config.vaultCapacity })
        ∧ (∀ a c v g, ar.call.newest = some a → ar.coin.newest = some c → ar.vault.newest = some v →
            ar.log.newest = some g → StartTreats k a.contents c.contents v.contents g.contents t)
        ∧ (ar.coin.newest = none → PurgeBegun t
            ∧ ∀ x rest, t.call.atStart = x :: rest → x.record.flags.escrowUnknown = true)
        ∧ (∀ c, ar.call.newest = none → ar.coin.newest = some c →
            t.call.atStart = [] ∧ t.coin.escrow = []
            ∧ (c.contents.order = .inOrder → PurgeBegun t ∧ t.coin.strandedTally = c.contents.strandedTally)
            ∧ (c.contents.order = .outOfOrder → t.coin.run = .none ∧ t.coin.mover = .idle
                ∧ t.coin.order = .outOfOrder))
        ∧ ∀ n b, (match n with
              | .a => ar.bankA.newest
              | .b => ar.bankB.newest) = some b → (t.bank.get n).contents = b.contents.contents)
    ∧ OneActive t ∧ t.bank.a.state ≠ .retiring ∧ t.bank.b.state ≠ .retiring ∧ t.bank.inUseA = false
    ∧ t.bank.inUseB = false

/-- Nothing that an ended call or a refund run waits for: what a coin's outcome lets go on is nothing. -/
abbrev Undisturbed (s : State) : Prop :=
  s.coin.run = .none ∧ s.coin.report = false ∧ s.call.atStart = [] ∧ s.call.closingSlot = none
    ∧ s.call.state ≠ .clearing ∧ s.rate.closing = false ∧ s.rate.phase ≠ .ended

end Sys2Proof.Machine
end

