-- ==== Sys2Proof/WellFormed.lean ====
section
/-! DEFINITION. Which commands and events can reach the part: a payload fits a frame (R186), an ACTUATE row carries its
own action byte (R135; every other ACTUATE argument stands with REFUND_ONE), an unknown KIND is none of the 28 of R190,
and a set given as a list names nothing twice. -/

namespace Sys2Proof

/-- R186: the payload of a frame is 0..119 bytes. -/
def payloadFits (p : List Byte) : Bool := decide (p.length ≤ 119)

/-- The three ACTUATE arguments with a row of their own (R135, R198: positions 1, 2 and 3). -/
def otherAction (p : List Byte) : Bool := decide (p = [1]) || decide (p = [2]) || decide (p = [3])

/-- R190: hex 01..1C name commands. -/
def namesCommand (kind : Byte) : Bool := decide (1 ≤ kind.toNat) && decide (kind.toNat ≤ 0x1C)

/-- A well-formed command. -/
def Instr.wf : Instr → Bool
  | .powerUp _ _ lost => decide lost.Nodup
  | .powerFail torn => decide torn.Nodup
  | .keyReadingEnd closed => decide closed.Nodup
  | .status p | .configSet p | .configGet p | .clockSet p | .clockGet p | .bankOpen p | .bankPutClass p
  | .bankPutPrefix p | .bankDropPrefix p | .bankPutSchedule p | .bankPutHoliday p | .bankClose p | .bankActivate p
  | .bankCancel p | .bankInfo p | .snapshot p | .logRead p | .logRelease p | .incidentList p | .incidentClear p
  | .vaultRead p | .collectionRead p | .terminalBlock p | .terminalUnblock p | .reportNow p | .restart p
  | .factoryClear p => payloadFits p
  | .refundOne p => payloadFits p && !otherAction p
  | .collectTestOne p => decide (p = [1])
  | .restoreInlet p => decide (p = [2])
  | .restoreEscrow p => decide (p = [3])
  | .unknownCommand kind p => payloadFits p && !namesCommand kind
  | .startComplete | .hookReadingEnd _ | .switchReadingEnd _ _ _ | .cordReadingEnd _ | .voltageReadingEnd _
  | .byteReceived _ | .frameTimeout | .frameFault _ | .transmitDone | .keyPress _ | .keyRelease _
  | .stuckTimerExpiry _ | .firstDigitTimeout | .interDigitTimeout | .hookOff | .hookOn | .depositTimeout
  | .answerTimeout | .abandonedTimeout | .rejectToneEnd | .warningRepeat | .lastAliveWrite | .guardEnd
  | .dialToneTimeout | .dialToneRecognised | .busyRecognised | .sendingComplete | .sendComplete
  | .loopCurrentPresent | .loopCurrentAbsent | .loopCurrentLost | .meterPulse _ | .reversalAccepted
  | .returnAccepted | .cadenceRecognised _ | .voltageAbsent | .voltagePresent | .validatorStrobe _ _ | .strobeFall
  | .entrySensor | .confirmationWindowEnd | .jamLineAsserted | .jamLineReleased | .jamLineTimeout | .vaultSensor
  | .returnSensor | .exitTimerExpiry | .reversalPulse | .lockoutExpiry | .periodEnd | .supervisionTimeout
  | .graceTimerExpiry | .activationInstant | .clockTick | .keyOn | .keyOff | .vaultDoorOpened | .vaultDoorClosed
  | .housingDoorOpened | .housingDoorClosed | .graceExpired | .cordLoopOpen | .cordLoopClosed | .shockPulse
  | .attemptStart | .readyTimeout | .ackTimeout | .closeTimeout | .backoffExpiry | .waitMinuteWrite
  | .toneDetectorInterval _ _ _ => true

end Sys2Proof
end

