-- ==== Sys2Proof/Certificates/Slice0/Obligations.lean ====
section
/-! DEFINITION. The statements for the provers: what the rules of spec/ say each command does, with its frame, and the
invariants every step keeps. The terms are those of `Sys2Proof/Safety.lean`. -/

open Sys2Proof Sys2Proof.Machine

/-! ### The machine -/

/-- A step runs the command at the front of the queue on the rest of the queue. -/
def Obligations.StepRunsFrontCommand : Prop :=
  ∀ (c : Instr) (rest : List Instr) (s : State), s.pending = c :: rest → step s = exec c { s with pending := rest }

/-- With no command waiting (the model's own convention, notes/assumptions 2 and 3): the part's time advances one
millisecond when nothing falls due, and otherwise exactly one due thing becomes the waiting command, at the same
instant: an event that the detectors have raised, an expiry or another thing due now, or the command of the frame that
LINK is ready to take. That one leaves the place it was taken from, and nothing else is taken. -/
def Obligations.IdlePartAdvancesOrTakesOneEvent : Prop :=
  ∀ s : State, s.pending = [] →
    ∃ t, step s = .next t ∧
      (dueCount s = 0 → t.now = s.now + 1 ∧ t.pending = []
        ∧ OnlyChanges [.now, .raised, .samplers, .line, .start] s t ∧ t.link = s.link)
      ∧ (dueCount s ≠ 0 → t.now = s.now ∧ OnlyChanges [.pending, .ties, .raised, .input] s t
        ∧ ∃ c, t.pending = [c] ∧
          ((∃ i, s.raised[i]? = some c ∧ t.raised = s.raised.eraseIdx i ∧ t.link = s.link)
            ∨ (c ∈ dueTimers s ∧ t.raised = s.raised ∧ t.link = s.link)
            ∨ (∃ e, readyFrame s = some e ∧ c = frameCommand e ∧ t.raised = s.raised ∧ t.link = (popFrame s).link)))

/-- No command puts a command into the queue or takes one from it. -/
def Obligations.CommandsLeaveTheQueue : Prop :=
  ∀ (c : Instr) (s t : State), exec c s = .next t → t.pending = s.pending

/-- The state after reset: the first instant of a FACTORY_CLEAR start (a choice of the model, notes/assumptions 4), at
which the areas hold their factory values, the line is in GUARD for 1.5 s, every key is RELEASED (the model's choice
until the keys are read, notes/assumptions 79), digit collection is INACTIVE, no account and no tariff is held, and
the purge's first stroke runs; and every invariant below holds there, in the model's terms for coins and records (17,
18). -/
def Obligations.ResetTakesFactoryValues : Prop :=
  State.reset.pending = [] ∧ State.reset.power = .starting
    ∧ State.reset.config = ConfigItems.default ∧ State.reset.store.log = {} ∧ State.reset.store.log.nextSeq = 1
    ∧ State.reset.bank.a = Bank.factory ∧ State.reset.bank.b = Bank.factory ∧ State.reset.incd.map = []
    ∧ State.reset.vault.counters = {} ∧ State.reset.vault.number = 0 ∧ State.reset.rate = RateBlock.inactive
    ∧ State.reset.line.state = .guard ∧ State.reset.line.owner = .none
    ∧ State.reset.line.guardTimer = some (State.reset.now + 1500)
    ∧ (∀ k : Key, (cellOf k State.reset.keys).state = .released) ∧ State.reset.keys.collection = .inactive
    ∧ State.reset.coin.escrow = [] ∧ State.reset.coin.order = .inOrder ∧ State.reset.coin.inletFault = false
    ∧ State.reset.coin.mover = .refunding ∧ State.reset.coin.blind = true ∧ State.reset.coin.run = .purge
    ∧ State.reset.link = LinkBlock.fresh
    ∧ CopiesCurrent State.reset ∧ SenderBusy State.reset ∧ AccountBalanced State.reset ∧ OneActive State.reset
    ∧ LogKept State.reset ∧ NoticesKept State.reset ∧ OneAtATime State.reset ∧ FrameInTurn State.reset
    ∧ ReportFollows State.reset
    ∧ EscrowFits State.reset ∧ MapKept State.reset ∧ TablesKept State.reset ∧ CoinsKept State.reset

/-- Every step leaves the newest copy of each retained area equal to the retained state as it stands, and both copies of
the marker word equal to the marker. -/
def Obligations.EveryStepKeepsCopiesCurrent : Prop :=
  ∀ s t : State, CopiesCurrent s → step s = .next t → CopiesCurrent t

/-- Every step leaves the transmitter busy while a reply or a notice waits, the notice queue within 32 notices with at
most one of each coalescible kind, and no command outstanding while a reply waits in the slot. And the frame whose turn it
is, by the model's mark (notes/assumptions 95), is always the one waiting command, and LINK takes it. -/
def Obligations.EveryStepKeepsTheLinkInOrder : Prop :=
  ∀ s t : State, SenderBusy s → NoticesKept s → OneAtATime s → step s = .next t →
    SenderBusy t ∧ NoticesKept t ∧ OneAtATime t ∧ (FrameInTurn s → FrameInTurn t)

/-- U + H = K + C after every step that began with it, and no step makes both banks ACTIVE. And coins are conserved: while
the denominations keep their values, every step of the running part leaves each record in a slot balanced with the coins it
owns (taken over and accepted = collected, refunded, jammed, stranded and passed on, with what the escrow and the open
account hold), and a record that reaches the log is balanced with nothing in hand. That this holds between the steps of a
refund run rests on two conventions of the model: each coin is counted into its record at its own outcome, where R16 and R77
copy the values when the escrow is empty (notes/assumptions 18), and the records of a start wait in a list (17). At a start
the record owns of the escrow only what it has still to count, by the model's marks (97). -/
def Obligations.EveryStepKeepsBalanceAndOneActiveBank : Prop :=
  (∀ s t : State, step s = .next t → (AccountBalanced s → AccountBalanced t) ∧ (OneActive s → OneActive t))
  ∧ ∀ s t : State, alive s = true → CoinsKept s → step s = .next t → t.config.denomValue = s.config.denomValue →
    CoinsKept t ∧ ∀ r ∈ t.store.log.records, r ∈ s.store.log.records ∨ CoinBalanced s.config.denomValue 0 r

/-- The log, and each sound copy of it, holds at most 64 records numbered in unbroken order, after every step. -/
def Obligations.EveryStepKeepsLogConsecutive : Prop :=
  ∀ s t : State, LogKept s → step s = .next t → LogKept t

/-- RPT follows the wanted test, and its idle guard the quiet, after every step. -/
def Obligations.EveryStepKeepsReportFollowing : Prop :=
  ∀ s t : State, ReportFollows s → step s = .next t → ReportFollows t

/-- The incident map keeps one entry a kind, in kind order, with sound counts, none of them both inactive and fully
reported, after every step. -/
def Obligations.EveryStepKeepsIncidentMap : Prop :=
  ∀ s t : State, MapKept s → step s = .next t → MapKept t

/-- Every step keeps the escrow, with the coin in entry transit, within twelve coins, and the tables of fixed size at
their size. -/
def Obligations.EveryStepKeepsEscrowRoomAndTableSizes : Prop :=
  ∀ s t : State, EscrowFits s → TablesKept s → step s = .next t → EscrowFits t ∧ TablesKept t

/-- Without power, and from the instant a RESTART or FACTORY_CLEAR is taken until its reply has been sent, no block
takes an event: only the clock, the end of a frame, the supply itself and the level of the jam line still act. -/
def Obligations.NothingActsWithoutPowerOrBeforeARestart : Prop :=
  ∀ (c : Instr) (s : State), c ≠ .clockTick → c ≠ .transmitDone → c ≠ .jamLineAsserted → c ≠ .jamLineReleased →
    (∀ l, c ≠ .powerFail l) → (∀ b m l, c ≠ .powerUp b m l) → s.power = .off ∨ s.power = .halted →
    exec c s = .next s

/-! ### Encodings of the link -/

/-- Every well-formed host command comes back whole from its frame: the bytes of its frame, arriving within 50 ms of one
another at an assembler in HUNT, end as one sound frame, and that frame is the command. -/
def Obligations.HostCommandsSurviveTheirFrames : Prop :=
  ∀ (c : Instr) (k : Byte) (p : List Byte) (l : LinkBlock) (arrival : Nat → Nat), c.wf = true →
    hostFrame c = some (k, p) → l.assembler = .hunt → l.lost = false → l.ended = [] →
    (∀ i, arrival (i + 1) ≤ arrival i + 50) →
    (drainItems ((frameBytes k p).zipIdx.map (fun bi => .byte bi.1 (arrival bi.2))) l).ended = [.sound k p]
      ∧ (drainItems ((frameBytes k p).zipIdx.map (fun bi => .byte bi.1 (arrival bi.2))) l).assembler = .hunt
      ∧ frameCommand (.sound k p) = c

/-- The forms of numbers and digit strings read back: numbers of one to four bytes within their width, and digit strings of up to 24
symbols followed by anything. -/
def Obligations.NumbersAndDigitStringsReadBack : Prop :=
  (∀ n < 256, ofLe (le1 n) = n) ∧ (∀ n < 65536, ofLe (le2 n) = n) ∧ (∀ n < 16777216, ofLe (le3 n) = n)
    ∧ (∀ n < 4294967296, ofLe (le4 n) = n)
    ∧ ∀ (ds : List Symbol) (rest : List Byte), ds.length ≤ 24 →
        splitDigits? (digitString ds ++ rest) = some (ds.length, packSymbols ds, rest)
          ∧ symbolsIn? false 0 24 ds.length (packSymbols ds) = some ds

/-! ### The link -/

/-- The frame assembler, for a byte that waits behind nothing and is not late: what it does in each state. 50 ms after
the last byte of a frame in hand, with nothing in the buffer, the frame is a fault TIMEOUT, or OVERRUN when it is
marked so. Nothing outside LINK changes. Three clauses are the model's choice (notes/assumptions 14): a byte that
comes while a frame has ended and is not yet taken waits unassembled in the buffer of 128 bytes, or leaves its loss
mark there; and a faulted frame counts 2 bytes (LENGTH), len + 3 (CHECK, OVERRUN) or 0 (the timeout) of it. That the
last byte, from which the 50 ms run, is the last one that was buffered is the model's reading (82). -/
def Obligations.AssemblerTakesReceivedByte : Prop :=
  (∀ (b : Byte) (s : State), alive s = true →
    ∃ t, exec (.byteReceived b) s = .next t ∧ LinkKept s t ∧ Posted [] s t ∧ OnlyChanges [.input] s t ∧
      (s.link.ended ≠ [] →
        t.link.input = s.link.input ++ [if inputLoad s.link < 128 then .byte b s.now else .loss]
          ∧ t.link.ended = s.link.ended ∧ t.link.assembler = s.link.assembler)
      ∧ (s.link.ended = [] → s.link.input = [] → s.now ≤ s.link.lastByteAt + 50 →
        t.link.input = []
        ∧ (s.link.assembler = .hunt →
            t.link.ended = [] ∧ t.link.assembler = (if b = 0xA5 then .length else .hunt) ∧ t.link.lost = s.link.lost)
        ∧ (s.link.assembler = .length → 1 ≤ b.toNat → b.toNat ≤ 120 →
            t.link.ended = [] ∧ t.link.assembler = .body b.toNat [])
        ∧ (s.link.assembler = .length → (b.toNat = 0 ∨ 120 < b.toNat) →
            t.link.ended = [.fault .lengthRange 2] ∧ t.link.assembler = .hunt ∧ t.link.lost = false)
        ∧ (∀ len bs, s.link.assembler = .body len bs → bs.length ≠ len →
            t.link.ended = [] ∧ t.link.assembler = .body len (bs ++ [b]))
        ∧ (∀ len k bs, s.link.assembler = .body len (k :: bs) → bs.length + 1 = len →
            t.link.assembler = .hunt ∧ t.link.lost = false
            ∧ t.link.ended =
              (if s.link.lost = true then [.fault .overrun (len + 3)]
               else if byteOf len + sumBytes (k :: bs ++ [b]) = 0 then [.sound k bs]
               else [.fault .check (len + 3)]))))
  ∧ ∀ s : State, alive s = true → s.link.assembler ≠ .hunt → s.link.input = [] →
    ∃ t, exec .frameTimeout s = .next t ∧ LinkKept s t ∧ Posted [] s t ∧ OnlyChanges [.now, .input] s t
      ∧ t.now = max s.now (s.link.lastByteAt + 50) ∧ t.link.assembler = .hunt ∧ t.link.lost = false ∧ t.link.input = []
      ∧ t.link.ended = s.link.ended ++ [.fault (if s.link.lost = true then .overrun else .timeout) 0]

/-- R188: a frame fault taken by a ready LINK is answered once, KIND hex FF, with FRAME and its reason; a frame whose
KIND names no command is answered UNKNOWN, with KIND hex FF when no reply KIND can be formed; neither changes anything
else. That UNKNOWN and FRAME are answered so during a start too, in which R199 answers every other command BUSY, is
the model's reading (notes/assumptions 15). -/
def Obligations.FaultsAndUnknownKindsAreAnswered : Prop :=
  ∀ s : State, alive s = true → Takes s →
    (∀ r : FrameReason, ∃ t, exec (.frameFault r) s = .next t
      ∧ Answered 0xFF [10, match r with | .timeout => 0 | .lengthRange => 1 | .check => 2 | .overrun => 3] s t
      ∧ Posted [] s t ∧ t.body = s.body)
    ∧ (∀ (k : Byte) (p : List Byte), (Instr.unknownCommand k p).wf = true →
      ∃ t, exec (.unknownCommand k p) s = .next t
        ∧ Answered (if k = 0 ∨ 0x40 ≤ k.toNat then 0xFF else k + 0x80) [4] s t ∧ Posted [] s t ∧ t.body = s.body)

/-- R196, R184: when a frame has been sent, a waiting reply is sent next, else the head of the notice queue, else the
transmitter is IDLE; while a restart is awaited only the reply is sent, and after it the start begins, of the kind
that the marker gives (R180), from the areas as they stand: the configuration, the records, the escrow, the banks and
the starting values are those of StartTaken, which PowerUpTakesStartingState describes. In it the records left wait in
a list of the start (notes/assumptions 17), a record that the log has taken is known by the model's mark (45), the
connected duration is rounded as 51 says and is 0 where the end lies before the answer (70), a restart that finds no
restart instant takes the last-alive mark (77), every key is RELEASED until its reading has ended (79), and a record
that RATE never opened keeps the rating mode it began with (96). -/
def Obligations.TransmitDoneChoosesTheNextFrame : Prop :=
  ∀ (s : State) (x : Sending), s.link.tx = some x →
    (alive s = true → ∃ t, exec .transmitDone s = .next t ∧ OnlyChanges [.now] s t ∧ t.now = max s.now x.endsAt
      ∧ t.link.outstanding = s.link.outstanding ∧ t.link.reply = none ∧ t.link.noticeLost = s.link.noticeLost
      ∧ (∀ r, s.link.reply = some r → t.link.notices = s.link.notices
          ∧ ∃ e, t.link.tx = some ⟨frameBytes r.kind r.payload, e, true⟩)
      ∧ (s.link.reply = none → ∀ n rest, s.link.notices = n :: rest → t.link.notices = rest
          ∧ ∃ e, t.link.tx = some ⟨frameBytes (byteOf n.kind.kind) n.payload, e, false⟩)
      ∧ (s.link.reply = none → s.link.notices = [] → t.link.notices = [] ∧ t.link.tx = none))
    ∧ (s.power = .halted → x.isReply = false → ∀ r, s.link.reply = some r → ∃ t, exec .transmitDone s = .next t
      ∧ t.power = .halted ∧ ∃ e, t.link.tx = some ⟨frameBytes r.kind r.payload, e, true⟩)
    ∧ (s.power = .halted → x.isReply = true → s.link.reply = none → ∃ t, exec .transmitDone s = .next t
      ∧ t.now = max s.now x.endsAt ∧ t.store.marker = s.store.marker ∧ t.store.clock = s.store.clock
      ∧ StartTaken s.store.areas (kindFor s.store.marker) t)

/-! ### The host's commands -/

/-- R199: until STARTED has been posted every host command but STATUS is answered BUSY, and changes nothing. That BUSY
comes before the LENGTH test of R190, for payloads of every length, is the model's reading (notes/assumptions 15). -/
def Obligations.CommandsAreBusyDuringAStart : Prop :=
  ∀ (c : Instr) (k : Byte) (p : List Byte) (s : State), c.wf = true → hostFrame c = some (k, p) → namesCommand k = true →
    k ≠ 1 → s.power = .starting → Takes s →
    ∃ t, exec c s = .next t ∧ Answered (k + 0x80) [1] s t ∧ Posted [] s t ∧ t.body = s.body

/-- R189, R190: every command the running part takes gets exactly one reply, of its KIND plus hex 80, at the instant it
is taken, but for a blind stroke, whose command stays outstanding while its stroke runs; and a command that is not
answered OK changes nothing and posts nothing. A command or a fault that ends while a command is outstanding, a reply waits
or an earlier frame waits is not taken: it waits behind those that ended before it, also when it is given as its row
(the model's reading, notes/assumptions 14). Which frame's turn it is, is a mark of the model (95). -/
def Obligations.EveryCommandGetsOneReply : Prop :=
  (∀ (c : Instr) (k : Byte) (p : List Byte) (s : State), c.wf = true → hostFrame c = some (k, p) →
    namesCommand k = true → Ready s →
    ∃ t, exec c s = .next t ∧ t.link.turn = false ∧ t.link.ended = s.link.ended ∧
      ((∃ r b, Answered (k + 0x80) (r :: b) s t ∧ (r ≠ 0 → Posted [] s t ∧ t.body = s.body))
        ∨ (k = 0x1A ∧ t.link.outstanding = some 0x1A ∧ t.link.reply = none ∧ t.coin.blind = true
            ∧ t.coin.mover ≠ .idle)))
  ∧ ∀ s : State, alive s = true → linkReady s.link = false ∨ (s.link.turn = false ∧ s.link.ended ≠ []) →
    (∀ (c : Instr) (k : Byte) (p : List Byte), hostFrame c = some (k, p) →
      exec c s = .next { s with link := { s.link with ended := s.link.ended ++ [.sound k p] } })
    ∧ ∀ r : FrameReason, ∃ t, exec (.frameFault r) s = .next t ∧ LinkKept s t ∧ Posted [] s t ∧ OnlyChanges [.input] s t
        ∧ t.link.ended = s.link.ended ++ [.fault r 0] ∧ t.link.input = s.link.input

/-- STATUS without arguments is answered OK in every state, during a start too, with the values the manual lists for
it, and clears the notice-lost flag; with arguments it is answered LENGTH, and that this is so during a start too is
the model's reading (notes/assumptions 15). The layout of the values' bytes is the model's choice where the manual
gives none (notes/assumptions 11); the line owner NONE is sent as 0 (90). -/
def Obligations.StatusReportsAndClearsLoss : Prop :=
  ∀ (p : List Byte) (s : State), alive s = true → Takes s →
    ∃ t, exec (.status p) s = .next t ∧ t.body = s.body ∧ t.link.notices = s.link.notices
      ∧ (p = [] → Answered 0x81 (0 :: statusBytes s) s t ∧ t.link.noticeLost = false)
      ∧ (p ≠ [] → Answered 0x81 [5] s t ∧ t.link.noticeLost = s.link.noticeLost)

/-- CONFIG_SET: with every test passed, every item named takes its new value and nothing else changes but the vault's
two derived states (with their incident and VAULT notice) when the capacity or the mark is named; otherwise RANGE. The
charge step (item 17) and the notice mask (item 36, the model's layout, notes/assumptions/9) as instances. That an
item named with its present value counts as named is the model's reading (notes/assumptions 65). -/
def Obligations.ConfigSetTakesAllItemsOrNone : Prop :=
  ∀ (p : List Byte) (items : List (Nat × List Byte)) (s : State), configSetArgs? p = some items → Ready s →
    ∃ t, exec (.configSet p) s = .next t
      ∧ (configAfter s items = none → Answered 0x82 [3] s t ∧ Posted [] s t ∧ t.body = s.body)
      ∧ (∀ c, configAfter s items = some c → namesVault items = false →
          Answered 0x82 [0] s t ∧ Posted [] s t ∧ t.body = { s with config := c }.body)
      ∧ (∀ c, configAfter s items = some c → namesVault items = true →
          Answered 0x82 [0] s t ∧ vaultLoad s ≤ c.vaultCapacity
          ∧ t.body = { s with
              config := c
              vault := { s.vault with
                full := decide (c.vaultCapacity ≤ vaultLoad s)
                nearFull := decide (c.nearFullMark ≤ s.vault.counters.total) }
              incd := t.incd }.body)
      ∧ (∀ n, items = [(17, le3 n)] → 1 ≤ n → n ≤ 1000 → configJoint s.config = true →
          t.config = { s.config with chargeStep := n })
      ∧ (∀ n, items = [(36, le2 n)] → n < 16384 → configJoint s.config = true →
          ∀ k, t.config.masked.contains k = n.testBit (k.kind - 0x40))

/-- R195: a notice of a masked kind is not posted, STARTED is posted whatever its mark; a CONFIG_SET that changes the
mask leaves the notices already pending in the queue and acts on those posted after it; and a pending notice is sent,
whatever the mask. R194, the five rows of the queue: a coalescible notice replaces the pending one of its kind in
place; any other is appended below 32; at 32 a coalescible one is dropped, another takes the tail when the oldest
pending coalescible notice is removed, or is dropped when there is none, and each of these three sets the notice-lost
flag. -/
def Obligations.NoticeMaskSilencesKinds : Prop :=
  (∀ (k : NoticeKind) (p : List Byte) (s : State),
    (s.config.masked.contains k = true → k ≠ .started → post k p s = s)
    ∧ ((s.config.masked.contains k = false ∨ k = .started) →
        (post k p s).link.notices = (enqueueNotice ⟨k, p⟩ s.link.notices).1
        ∧ (post k p s).link.noticeLost = (s.link.noticeLost || (enqueueNotice ⟨k, p⟩ s.link.notices).2)))
  ∧ (∀ (p : List Byte) (items : List (Nat × List Byte)) (c : ConfigItems) (s : State), configSetArgs? p = some items →
      Ready s → configAfter s items = some c → namesVault items = false →
      ∃ t, exec (.configSet p) s = .next t ∧ t.link.notices = s.link.notices ∧ t.link.noticeLost = s.link.noticeLost
        ∧ (∀ k q, c.masked.contains k = true → k ≠ .started → post k q t = t)
        ∧ ∀ k q, c.masked.contains k = false → (post k q t).link.notices = (enqueueNotice ⟨k, q⟩ t.link.notices).1)
  ∧ (∀ (s : State) (x : Sending) (n : Notice) (rest : List Notice), alive s = true → s.link.tx = some x →
      s.link.reply = none → s.link.notices = n :: rest →
      ∃ t e, exec .transmitDone s = .next t
        ∧ t.link.tx = some ⟨frameBytes (byteOf n.kind.kind) n.payload, e, false⟩ ∧ t.link.notices = rest)
  ∧ ∀ (k : NoticeKind) (p : List Byte) (s : State), s.config.masked.contains k = false ∨ k = .started →
    (k.coalescible = true ↔
        k = .dialled ∨ k = .credit ∨ k = .vault ∨ k = .line)
    ∧ (post k p s).link.tx = s.link.tx
    ∧ (∀ before old after, s.link.notices = before ++ old :: after → k.coalescible = true → old.kind = k →
        (∀ m ∈ before, m.kind ≠ k) →
        (post k p s).link.notices = before ++ ⟨k, p⟩ :: after ∧ (post k p s).link.noticeLost = s.link.noticeLost)
    ∧ (k.coalescible = false ∨ (∀ m ∈ s.link.notices, m.kind ≠ k) →
        (s.link.notices.length < 32 →
          (post k p s).link.notices = s.link.notices ++ [⟨k, p⟩] ∧ (post k p s).link.noticeLost = s.link.noticeLost)
        ∧ (32 ≤ s.link.notices.length → (post k p s).link.noticeLost = true
          ∧ (k.coalescible = true → (post k p s).link.notices = s.link.notices)
          ∧ (k.coalescible = false →
            ((∀ m ∈ s.link.notices, m.kind.coalescible = false) → (post k p s).link.notices = s.link.notices)
            ∧ ∀ before old after, s.link.notices = before ++ old :: after → old.kind.coalescible = true →
                (∀ m ∈ before, m.kind.coalescible = false) →
                (post k p s).link.notices = before ++ after ++ [⟨k, p⟩])))

/-- The reading commands answer with what they name as it stands, and change nothing. The bytes of CLOCK_GET's answer
(state 0 with the time when SET; state 1 with hex FFFFFFFF when UNSET) are the model's choice of layout
(notes/assumptions 11): R183 gives the state, and the time only when SET. The bytes of the arguments and of the other
replies follow notes/assumptions 10, 11 and 90 where the manual gives no layout. -/
def Obligations.ReadingCommandsChangeNothing : Prop :=
  ∀ s : State, Ready s →
    (∀ p items, configGetArgs? p = some items → items.all (fun i => decide (1 ≤ i) && decide (i ≤ 37)) = true →
      (configGetBytes s.config items).length ≤ 118 → ∃ t, exec (.configGet p) s = .next t
        ∧ Answered 0x83 (0 :: items.flatMap (fun i => le1 i ++ itemValue s.config i)) s t ∧ Posted [] s t
        ∧ t.body = s.body)
    ∧ (∃ t, exec (.clockGet []) s = .next t
        ∧ Answered 0x85 (0 :: (match s.store.clock with
            | some c => 0 :: le4 c
            | none => [1, 0xFF, 0xFF, 0xFF, 0xFF])) s t
        ∧ Posted [] s t ∧ t.body = s.body)
    ∧ (∀ b n, bankOf? b = some n → ∃ t, exec (.bankInfo [b]) s = .next t
        ∧ Answered 0x8F (0 :: bankInfoBytes n s) s t ∧ Posted [] s t ∧ t.body = s.body)
    ∧ (∀ b : Byte, b.toNat < 16 → ∃ t, exec (.snapshot [b]) s = .next t
        ∧ Answered 0x90 (0 :: snapshotBytes b.toNat s) s t ∧ Posted [] s t ∧ t.body = s.body)
    ∧ (∀ p n c, logReadArgs? p = some (n, c) → 1 ≤ c → c ≤ 4 → readFrom n s.store.log ≠ [] →
        ∃ t, exec (.logRead p) s = .next t
          ∧ Answered 0x91 (0 :: logReadBytes c (readFrom n s.store.log)) s t ∧ Posted [] s t ∧ t.body = s.body)
    ∧ (∃ t, exec (.vaultRead []) s = .next t ∧ Answered 0x95 (0 :: vaultReadBytes s) s t ∧ Posted [] s t
        ∧ t.body = s.body)
    ∧ (∃ t, exec (.collectionRead []) s = .next t
        ∧ Answered 0x96 (match s.vault.last with | some r => 0 :: collectionBytes r | none => [9]) s t
        ∧ Posted [] s t ∧ t.body = s.body)

/-- CLOCK_SET: a time of the years 2000..2099 becomes the clock, and the pending activation is judged against it; any
other value is refused with RANGE. Nothing already stamped or timed changes. CLOCK_GET is answered OK with the clock
state and, when SET, the time, and changes nothing. That a second of the clock starts anew at CLOCK_SET, so that the
next tick follows 1 s later, is the model's choice (notes/assumptions 41). -/
def Obligations.ClockSetSetsTheClock : Prop :=
  (∀ (p : List Byte) (s : State), p.length = 4 → Ready s →
    ∃ t, exec (.clockSet p) s = .next t
      ∧ (3155760000 ≤ ofLe p → Answered 0x84 [3] s t ∧ Posted [] s t ∧ t.body = s.body)
      ∧ (ofLe p < 3155760000 → Answered 0x84 [0] s t ∧ t.store.clock = some (ofLe p)
        ∧ t.store.nextTick = s.now + 1000 ∧ OnlyChanges [.clock, .bank] s t
        ∧ (∀ n w, pendingBank s = some n → (s.bank.get n).due = some w →
            (t.bank.get n).state = (match w with
              | .now => .active
              | .time u => if u ≤ ofLe p then .active else .pending))
        ∧ (pendingBank s = none → t.bank = s.bank)))
  ∧ ∃ isSet isUnset : Byte, isSet ≠ isUnset ∧ ∀ s : State, Ready s →
      ∃ t, exec (.clockGet []) s = .next t ∧ Posted [] s t ∧ t.body = s.body
        ∧ (∀ c, s.store.clock = some c → Answered 0x85 ([0, isSet] ++ le4 c) s t)
        ∧ (s.store.clock = none → ∃ b, Answered 0x85 ([0, isUnset] ++ b) s t)

/-- INCIDENT_LIST: the number of entries, the position, and at most eight entries from it in the reporting order, each
with its fields; a position of 12 or more is refused with RANGE; nothing changes. -/
def Obligations.IncidentListReportsTheMap : Prop :=
  ∀ (b : Byte) (s : State), Ready s →
    ∃ t, exec (.incidentList [b]) s = .next t ∧ Posted [] s t ∧ t.body = s.body
      ∧ (12 ≤ b.toNat → Answered 0x93 [3] s t)
      ∧ (b.toNat < 12 → Answered 0x93 ([0] ++ le1 s.incd.map.length ++ [b]
          ++ (((reportingOrder s.incd.map).drop b.toNat).take 8).flatMap (fun e =>
              le1 e.kind.number ++ le1 ((severityOf e.kind).digit + if e.active then 128 else 0) ++ le2 e.count
                ++ le2 e.reported ++ timeBytes e.first ++ timeBytes e.last)) s t)

/-- BANK_OPEN: RANGE for a bank that is neither A nor B or a label that is too long or not printable; STATE for an
ACTIVE bank and BUSY for a RETIRING one; otherwise the contents are emptied, the label set, any pending activation
cleared and the state LOADING, with the serial number kept, and a BANK notice unless the bank was in LOADING already.
That a printable character is hex 20 to 7E is the model's choice (notes/assumptions 10). -/
def Obligations.BankOpenEmptiesForLoading : Prop :=
  ∀ (b : Byte) (label : List Byte) (s : State), label.length ≤ 117 → Ready s →
    ∃ t, exec (.bankOpen (b :: byteOf label.length :: label)) s = .next t
      ∧ (bankOf? b = none ∨ 16 < label.length ∨ (∃ c ∈ label, c.toNat < 0x20 ∨ 0x7E < c.toNat) →
          Answered 0x86 [3] s t ∧ Posted [] s t ∧ t.body = s.body)
      ∧ ∀ n, bankOf? b = some n → label.length ≤ 16 → (∀ c ∈ label, 0x20 ≤ c.toNat ∧ c.toNat ≤ 0x7E) →
        ((s.bank.get n).state = .active → Answered 0x86 [2] s t ∧ Posted [] s t ∧ t.body = s.body)
        ∧ ((s.bank.get n).state = .retiring → Answered 0x86 [1] s t ∧ Posted [] s t ∧ t.body = s.body)
        ∧ ((s.bank.get n).state ≠ .active → (s.bank.get n).state ≠ .retiring →
          Answered 0x86 [0] s t
          ∧ t.body = (setBank n ⟨.loading, { BankContents.emptied with label := label }, (s.bank.get n).serial, none⟩
              s).body
          ∧ ((s.bank.get n).state = .loading → Posted [] s t)
          ∧ ((s.bank.get n).state ≠ .loading → ∃ payload, Posted [⟨.bank, payload⟩] s t))

/-- R112: the five loading commands test the bank's name, its state and then their own item, and change nothing but
the contents of the named bank. The bytes of their arguments follow notes/assumptions 10 where the manual gives no
layout. -/
def Obligations.LoadingCommandsChangeOnlyTheirBank : Prop :=
  ∀ (p : List Byte) (s : State), Ready s →
    (∀ a, putClassArgs? p = some a → ∃ t, exec (.bankPutClass p) s = .next t
      ∧ Loads 0x07 a.1 (putClass a.2.1 a.2.2.1 a.2.2.2) s t)
    ∧ (∀ a, putEntryArgs? p = some a → ∃ t, exec (.bankPutPrefix p) s = .next t
      ∧ Loads 0x08 a.1 (putTableEntry
          (entryOf? a.2.1 a.2.2.1 a.2.2.2.1 a.2.2.2.2.1 a.2.2.2.2.2.1 a.2.2.2.2.2.2)) s t)
    ∧ (∀ a, dropEntryArgs? p = some a → ∃ t, exec (.bankDropPrefix p) s = .next t
      ∧ Loads 0x09 a.1 (dropTableEntry (symbolsIn? false 1 12 a.2.1 a.2.2)) s t)
    ∧ (∀ a, scheduleArgs? p = some a → ∃ t, exec (.bankPutSchedule p) s = .next t
      ∧ Loads 0x0A a.1 (putSchedule a.2.1 a.2.2.1 a.2.2.2) s t)
    ∧ (∀ a, holidayArgs? p = some a → ∃ t, exec (.bankPutHoliday p) s = .next t
      ∧ Loads 0x0B a.1 (putHolidayEntry a.2.1 a.2.2.1 a.2.2.2.1 a.2.2.2.2) s t)

/-- R113 to R116: an accepted item takes its place: a class its price, a prefix its place in table order (at most 128,
no digit string twice), a switch point its place by minute (at most 6 a day type), a holiday its place by date (at
most 16, none twice); DEFAULT takes a band at minute 0, and drop unsets it, for which any minute of day may be carried
(the model's reading, notes/assumptions 54). The bytes of a price follow notes/assumptions 10. -/
def Obligations.LoadedTablesKeepOrderAndRoom : Prop :=
  (∀ (c c' : BankContents) (cls : Nat) (b : List Byte), c.classes.length = 32 → putClass cls 1 b c = .ok c' →
    cls ≤ 31 ∧ c' = { c with classes := c.classes.set cls (some (priceOf b)) } ∧ c'.classes[cls]? = some (some (priceOf b))
      ∧ (priceOf b).initial ≤ 65535 ∧ ∀ r ∈ (priceOf b).rates, r ≤ 60000)
  ∧ (∀ (c c' : BankContents) (e : TableEntry), c.table.Pairwise (fun x y => stringBefore x.digits y.digits = true) →
    c.table.length ≤ 128 → putTableEntry (some e) c = .ok c' →
      c'.table.Pairwise (fun x y => stringBefore x.digits y.digits = true) ∧ c'.table.length ≤ 128 ∧ e ∈ c'.table
        ∧ ∀ x ∈ c.table, x.digits ≠ e.digits → x ∈ c'.table)
  ∧ (∀ (c c' : BankContents) (d : DayType) (m band : Nat), (c.points d).Pairwise (fun x y => x.minute < y.minute) →
    (c.points d).length ≤ 6 → band ≤ 3 → putDayPoint d m band c = .ok c' →
      (c'.points d).Pairwise (fun x y => x.minute < y.minute) ∧ (c'.points d).length ≤ 6 ∧ m ≤ 1439
        ∧ ⟨m, band⟩ ∈ c'.points d ∧ ∀ x ∈ c.points d, x.minute ≠ m → x ∈ c'.points d)
  ∧ (∀ (c c' : BankContents) (m band : Nat), putSchedule 3 m band c = .ok c' →
    (band = 255 → m ≤ 1439 ∧ c' = { c with defaultBand := none })
      ∧ (band ≠ 255 → m = 0 ∧ band ≤ 3 ∧ c' = { c with defaultBand := some band }))
  ∧ (∀ (c c' : BankContents) (month day : Nat) (mk : Byte) (y : Option Nat),
    c.holidays.Pairwise (fun x y => holidayRank x ≤ holidayRank y) → c.holidays.length ≤ 16 →
    putHolidayEntry month day mk y c = .ok c' →
      c'.holidays.Pairwise (fun x y => holidayRank x ≤ holidayRank y) ∧ c'.holidays.length = c.holidays.length + 1
        ∧ c'.holidays.length ≤ 16 ∧ ⟨month, day, y⟩ ∈ c'.holidays ∧ ⟨month, day, y⟩ ∉ c.holidays
        ∧ ∀ x ∈ c.holidays, x ∈ c'.holidays)

/-- BANK_CLOSE: RANGE, STATE, or the closing check in its order: the first failure is answered CHECK with its kind and
index and the bank stays as it was; otherwise the bank becomes READY with a BANK notice. That a CHECK reply of kind 1
carries the class of the entry as a third byte is the model's choice of layout (notes/assumptions 11): R190 names the
fault kind and the index; the bytes of the BANK notice follow notes/assumptions 12. -/
def Obligations.BankCloseMakesTheClosingCheck : Prop :=
  (∀ (b : Byte) (s : State), Ready s → ∃ t, exec (.bankClose [b]) s = .next t
    ∧ (bankOf? b = none → Answered 0x8C [3] s t ∧ Posted [] s t ∧ t.body = s.body)
    ∧ ∀ n, bankOf? b = some n →
      ((s.bank.get n).state ≠ .loading → Answered 0x8C [2] s t ∧ Posted [] s t ∧ t.body = s.body)
      ∧ ((s.bank.get n).state = .loading →
        (∀ f, closingFault (s.bank.get n).contents = some f →
          Answered 0x8C ([8] ++ le1 f.kind ++ le1 f.index ++ (match f.cls with | some c => le1 c | none => [])) s t
            ∧ Posted [] s t ∧ t.body = s.body)
        ∧ (closingFault (s.bank.get n).contents = none →
          Answered 0x8C [0] s t
            ∧ Posted [⟨.bank, bankNotice n .loading .ready (s.bank.get n).contents.label .closed none⟩] s t
            ∧ t.body = (setBank n { s.bank.get n with state := .ready } s).body)))
  ∧ ∀ c : BankContents,
    (closingFault c = none ↔ (∀ d : DayType, ∃ p ∈ c.points d, p.minute = 0)
      ∧ (∀ e ∈ c.table, (c.classes.getD e.cls none).isSome = true) ∧ c.defaultBand.isSome = true ∧ c.table ≠ [])
    ∧ ((∀ p ∈ c.workday, p.minute ≠ 0) → closingFault c = some ⟨0, 0, none⟩)
    ∧ (∀ f, closingFault c = some f → f.kind = 1 → ∃ e, c.table[f.index]? = some e ∧ f.cls = some e.cls
        ∧ (c.classes.getD e.cls none).isNone = true
        ∧ ∀ j < f.index, ∀ x, c.table[j]? = some x → (c.classes.getD x.cls none).isSome = true)

/-- BANK_ACTIVATE of a READY bank while the other is not PENDING: the bank becomes PENDING, and an activation whose
instant has been reached is made at the command itself; in other states BUSY or STATE. At the activation instant the
other bank is displaced if ACTIVE, the pending bank becomes ACTIVE with the next serial number, and the notices are
posted, the displaced bank's first; before that instant nothing happens. R124: the change to PENDING is written to the
bank's area before the activation at the command itself, so that a loss of power in the write of the activation leaves
the bank PENDING (in what order the two writes fall within the command is the model's reading, notes/assumptions 69).
The bytes of the notices follow notes/assumptions 12. -/
def Obligations.BankActivateSchedulesOrActivates : Prop :=
  (∀ (b : Byte) (p : List Byte) (n : BankName) (w : When) (s : State), p.length = 4 → bankOf? b = some n →
    whenOf? (ofLe p) = some w → Ready s →
    ∃ t, exec (.bankActivate (b :: p)) s = .next t
      ∧ ((s.bank.get n).state ≠ .ready → Answered 0x8D [2] s t ∧ Posted [] s t ∧ t.body = s.body)
      ∧ ((s.bank.get n).state = .ready → (s.bank.get (otherBank n)).state = .pending →
          Answered 0x8D [1] s t ∧ Posted [] s t ∧ t.body = s.body)
      ∧ ((s.bank.get n).state = .ready → (s.bank.get (otherBank n)).state ≠ .pending →
          Answered 0x8D [0] s t ∧ OnlyChanges [.bank] s t
          ∧ (activationReached s w = false →
              t.bank = s.bank.set n { s.bank.get n with state := .pending, due := some w }
              ∧ Posted [⟨.bank, bankNotice n .ready .pending (s.bank.get n).contents.label .scheduled (some w)⟩] s t)
          ∧ (activationReached s w = true → Activated n s t
              ∧ (n = .a → AreaName.bankA ∈ t.store.areas.written
                  ∧ (tearArea t.store.areas .bankA).bankA.newest.map Copy.contents
                      = some { s.bank.a with state := .pending, due := some w })
              ∧ (n = .b → AreaName.bankB ∈ t.store.areas.written
                  ∧ (tearArea t.store.areas .bankB).bankB.newest.map Copy.contents
                      = some { s.bank.b with state := .pending, due := some w })
              ∧ Posted (⟨.bank, bankNotice n .ready .pending (s.bank.get n).contents.label .scheduled (some w)⟩
                  :: activationNotices n s) s t)))
  ∧ ∀ (n : BankName) (w : When) (s : State), alive s = true → pendingBank s = some n → (s.bank.get n).due = some w →
    ∃ t, exec .activationInstant s = .next t ∧ LinkKept s t ∧ OnlyChanges [.bank] s t
      ∧ (activationReached s w = true → Activated n s t ∧ Posted (activationNotices n s) s t)
      ∧ (activationReached s w = false → t.body = s.body ∧ Posted [] s t)

/-- BANK_CANCEL: PENDING becomes READY with its contents and no pending activation; LOADING becomes EMPTY with its
contents emptied; in any other state STATE; RANGE for a bank that is neither. -/
def Obligations.BankCancelWithdraws : Prop :=
  ∀ (b : Byte) (s : State), Ready s → ∃ t, exec (.bankCancel [b]) s = .next t
    ∧ (bankOf? b = none → Answered 0x8E [3] s t ∧ Posted [] s t ∧ t.body = s.body)
    ∧ ∀ n, bankOf? b = some n →
      ((s.bank.get n).state = .pending → Answered 0x8E [0] s t
        ∧ t.body = (setBank n { s.bank.get n with state := .ready, due := none } s).body)
      ∧ ((s.bank.get n).state = .loading → Answered 0x8E [0] s t
        ∧ t.body = (setBank n
            { s.bank.get n with state := .empty, contents := BankContents.emptied } s).body)
      ∧ ((s.bank.get n).state ≠ .pending → (s.bank.get n).state ≠ .loading →
          Answered 0x8E [2] s t ∧ Posted [] s t ∧ t.body = s.body)

/-- R174, R17: a record handed to the log takes the next sequence number and the last place, or, with 64 records held,
raises the unlogged count and is delivered whole with a LOG notice. LOG_RELEASE of a number that is not held is
answered NONE; otherwise the records up to it leave the log, the unlogged count is reported and set to 0, and a change
of level posts LOG. That LOG is posted before CALL_END at an unlogged delivery is the model's choice, which no rule
orders (notes/assumptions 47); the bytes of the reply and the notices follow notes/assumptions 11 and 12 where the
manual gives no layout. -/
def Obligations.LogStoresDeliversAndReleases : Prop :=
  (∀ (r : CallRecord) (s : State),
    (s.store.log.records.length < 64 →
      (storeRecord r s).2 = some s.store.log.nextSeq
      ∧ (storeRecord r s).1.body = { s with store := { s.store with log := { s.store.log with
          records := s.store.log.records ++ [{ r with seq := s.store.log.nextSeq }]
          nextSeq := nextSeq s.store.log.nextSeq } } }.body)
    ∧ (64 ≤ s.store.log.records.length →
      (storeRecord r s).2 = none
      ∧ (storeRecord r s).1.body = { s with store := { s.store with log := { s.store.log with
          unlogged := min 255 (s.store.log.unlogged + 1) } } }.body
      ∧ (storeRecord r s).1.link.notices =
          (post .callEnd ([0, 0, 0, 0] ++ le1 (linkForm { r with seq := 0 }).length ++ linkForm { r with seq := 0 })
            (post .log (logNotice { s.store.log with unlogged := min 255 (s.store.log.unlogged + 1) }) s)).link.notices))
  ∧ ∀ (p : List Byte) (s : State), p.length = 4 → Ready s → ∃ t, exec (.logRelease p) s = .next t
    ∧ ((∀ r ∈ s.store.log.records, r.seq ≠ ofLe p) → Answered 0x92 [9] s t ∧ Posted [] s t ∧ t.body = s.body)
    ∧ ∀ before r rest, s.store.log.records = before ++ r :: rest → r.seq = ofLe p → (∀ q ∈ before, q.seq ≠ ofLe p) →
      Answered 0x92 ([0] ++ le1 (before.length + 1) ++ le1 rest.length ++ le1 s.store.log.unlogged) s t
      ∧ t.body = { s with store := { s.store with log := { s.store.log with records := rest, unlogged := 0 } } }.body
      ∧ Posted (if logLevel rest.length = logLevel s.store.log.records.length then []
          else [⟨.log, logNotice { s.store.log with records := rest, unlogged := 0 }⟩]) s t

/-- INCIDENT_CLEAR: RANGE, SERVICE, NONE and STATE in this order; an inactive entry is removed whatever its reported
count, with its CLEARED notice; ALL removes every inactive entry in the reporting order and reports the numbers
removed and left. The byte that names ALL is a free value (notes/assumptions 6). The bytes of the reply and the
notices follow notes/assumptions 11 and 12. -/
def Obligations.IncidentClearRemovesInactiveEntries : Prop :=
  ∀ (b : Byte) (s : State), MapWf s.incd.map → Ready s → ∃ t, exec (.incidentClear [b]) s = .next t
    ∧ (incidentScope? b = none → Answered 0x94 [3] s t ∧ Posted [] s t ∧ t.body = s.body)
    ∧ (incidentScope? b ≠ none → s.vault.service ≠ .service → Answered 0x94 [6] s t ∧ Posted [] s t ∧ t.body = s.body)
    ∧ (∀ k, incidentScope? b = some (some k) → s.vault.service = .service →
        ((∀ e ∈ s.incd.map, e.kind ≠ k) → Answered 0x94 [9] s t ∧ Posted [] s t ∧ t.body = s.body)
        ∧ ∀ e ∈ s.incd.map, e.kind = k →
          (e.active = true → Answered 0x94 [2] s t ∧ Posted [] s t ∧ t.body = s.body)
          ∧ (e.active = false → Answered 0x94 [0] s t ∧ Posted [⟨.incident, incidentNotice e .cleared⟩] s t
              ∧ t.body = { s with incd := { s.incd with map := s.incd.map.filter (fun x => decide (x.kind ≠ k)) } }.body))
    ∧ (b = incidentAllByte → s.vault.service = .service →
        Answered 0x94 ([0] ++ le1 (s.incd.map.filter (fun e => !e.active)).length
          ++ le1 (s.incd.map.filter Incident.active).length) s t
        ∧ t.body = { s with incd := { s.incd with map := s.incd.map.filter Incident.active } }.body
        ∧ Posted (((reportingOrder s.incd.map).filter (fun e => !e.active)).map
            (fun e => ⟨.incident, incidentNotice e .cleared⟩)) s t)

/-- TERMINAL_BLOCK sets the terminal-blocked flag and TERMINAL_UNBLOCK clears it, whatever it was; nothing else changes,
and a level computed while it is set is EMERGENCY_ONLY. -/
def Obligations.TerminalBlockSetsTheFlag : Prop :=
  (∀ s : State, Ready s →
    (∃ t, exec (.terminalBlock []) s = .next t ∧ Answered 0x97 [0] s t ∧ Posted [] s t
      ∧ t.body = { s with config := { s.config with terminalBlocked := true } }.body)
    ∧ (∃ t, exec (.terminalUnblock []) s = .next t ∧ Answered 0x98 [0] s t ∧ Posted [] s t
      ∧ t.body = { s with config := { s.config with terminalBlocked := false } }.body))
  ∧ ∀ s : State, s.config.terminalBlocked = true → serviceLevel s = .emergencyOnly

/-- REPORT_NOW: the five rows of its table in their order. -/
def Obligations.ReportNowEndsAWait : Prop :=
  ∀ s : State, Ready s → ∃ t, exec (.reportNow []) s = .next t ∧ Posted [] s t
    ∧ (s.config.terminalId = [] ∨ s.config.centreNumber = [] → Answered 0x99 [2] s t ∧ t.body = s.body)
    ∧ (s.config.terminalId ≠ [] → s.config.centreNumber ≠ [] →
        (s.incd.map.any Incident.unreported = false → Answered 0x99 [9] s t ∧ t.body = s.body)
        ∧ (s.incd.map.any Incident.unreported = true →
          (attempting s.rpt.state = true → Answered 0x99 [1] s t ∧ t.body = s.body)
          ∧ (s.rpt.state = .readyToStart → Answered 0x99 [0] s t ∧ t.body = s.body)
          ∧ (s.rpt.state = .wait → s.config.terminalId.length = 8 → Answered 0x99 [0] s t
              ∧ t.rpt.state = .readyToStart
              ∧ t.body = { s with rpt := { s.rpt with
                  state := .readyToStart, backoffTimer := none, minuteTimer := none, savedWait := 0 } }.body)))

/-- ACTUATE's tests and the blind strokes: with no call, an IDLE mover and the escrow IN_ORDER (and room in the vault
for a COLLECT), the mover is driven for 800 ms and the command stays outstanding. RESTORE_INLET and RESTORE_ESCROW
clear their faults and end their conditions. The bytes of the arguments and replies follow notes/assumptions 10 and 11
where the manual gives no layout. -/
def Obligations.ServiceActionsActInService : Prop :=
  (∀ s : State, Ready s →
    (∀ b : Byte, 4 ≤ b.toNat → ∃ t, exec (.refundOne [b]) s = .next t ∧ Answered 0x9A [3] s t ∧ Posted [] s t
        ∧ t.body = s.body)
    ∧ ∀ k : Stroke, ∃ t,
      exec (match k with | .refund => .refundOne [0] | .collect => .collectTestOne [1]) s = .next t ∧ Posted [] s t
      ∧ (s.vault.service ≠ .service → Answered 0x9A [6] s t ∧ t.body = s.body)
      ∧ (s.vault.service = .service →
        (callExists s.call.state = true → Answered 0x9A [1] s t ∧ t.body = s.body)
        ∧ (callExists s.call.state = false →
          (s.coin.mover ≠ .idle → Answered 0x9A [1] s t ∧ t.body = s.body)
          ∧ (s.coin.mover = .idle → s.coin.order = .outOfOrder → Answered 0x9A [2] s t ∧ t.body = s.body)
          ∧ (s.coin.mover = .idle → s.coin.order = .inOrder → k = .collect →
              s.config.vaultCapacity ≤ s.vault.counters.total + s.coin.escrow.length →
              Answered 0x9A [7] s t ∧ t.body = s.body)
          ∧ (s.coin.mover = .idle → s.coin.order = .inOrder →
              (k = .collect → s.vault.counters.total + s.coin.escrow.length < s.config.vaultCapacity) →
              t.link.outstanding = some 0x1A ∧ t.link.reply = none
              ∧ t.body = { s with coin := { s.coin with
                  mover := (match k with | .refund => .refunding | .collect => .collecting)
                  exitTimer := some (s.now + 800), blind := true } }.body))))
  ∧ ∀ s : State, Ready s →
    (∃ t, exec (.restoreInlet [2]) s = .next t
      ∧ (s.vault.service ≠ .service → Answered 0x9A [6] s t ∧ Posted [] s t ∧ t.body = s.body)
      ∧ (s.vault.service = .service → s.coin.inletFault = false →
          Answered 0x9A [2] s t ∧ Posted [] s t ∧ t.body = s.body)
      ∧ (s.vault.service = .service → s.coin.inletFault = true → Answered 0x9A [0] s t
          ∧ t.body = { s with
              coin := { s.coin with inletFault := false, unconfirmed := 0,
                                    jamTimer := if s.pins.jam = true then some (s.now + 1000) else s.coin.jamTimer }
              incd := (endCondition .inletJam s).incd }.body))
    ∧ (∃ t, exec (.restoreEscrow [3]) s = .next t
      ∧ (s.vault.service ≠ .service → Answered 0x9A [6] s t ∧ Posted [] s t ∧ t.body = s.body)
      ∧ (s.vault.service = .service →
          Answered 0x9A ([0] ++ le1 s.coin.strandedTally.coins ++ le3 s.coin.strandedTally.value) s t
          ∧ t.body = { s with
              coin := { s.coin with order := .inOrder, strandedTally := {} }
              incd := (endCondition .escrowJam s).incd }.body))

/-- RESTART and, in SERVICE, FACTORY_CLEAR: answered OK; the marker is written, the loop opens and the mover stops,
the escrow keeps its MOVING head, and the start waits for the reply to be sent. That the loop opens and the mover
stops at the instant a FACTORY_CLEAR is taken, as R40 and R76 say of a RESTART, is the model's inference
(notes/assumptions 16). -/
def Obligations.RestartAnswersThenWaits : Prop :=
  ∀ s : State, Ready s →
    (∃ t, exec (.restart []) s = .next t ∧ Answered 0x9B [0] s t ∧ t.power = .halted ∧ t.store.marker = .restarting
      ∧ t.call.restartEnd = some (s.now, s.store.clock) ∧ lineDrive t = .open ∧ t.coin.mover = .idle
      ∧ t.coin.escrow = s.coin.escrow ∧ t.call.openSlot = s.call.openSlot
      ∧ OnlyChanges [.power, .marker, .call, .line, .coin, .raised] s t)
    ∧ (∃ t, exec (.factoryClear []) s = .next t
      ∧ (s.vault.service ≠ .service → Answered 0x9C [6] s t ∧ Posted [] s t ∧ t.body = s.body)
      ∧ (s.vault.service = .service → Answered 0x9C [0] s t ∧ t.power = .halted ∧ t.store.marker = .clearing
          ∧ lineDrive t = .open ∧ t.coin.mover = .idle ∧ t.coin.escrow = s.coin.escrow
          ∧ OnlyChanges [.power, .marker, .call, .line, .coin, .raised] s t))

/-! ### Starts -/

/-- POWER_FAIL: the loop opens and the mover stops where it stands; nothing retained changes but the copies whose
write was torn, and LINK's state, which is not retained, is gone. Only the areas that the latest writing step has
written can be torn (the operand is the model's, notes/assumptions 13). R74: a confirmed coin is written to VAULT's
area, then CALL's, then COIN's, so that a write torn in one of them leaves those after it unwritten too (that CALL's
area goes before COIN's in every other step too, and where the other areas stand in the order, is the model's,
notes/assumptions 57). -/
def Obligations.PowerFailKeepsRetainedState : Prop :=
  ∀ (torn : List AreaName) (s : State), s.power ≠ .off →
    ∃ t, exec (.powerFail torn) s = .next t ∧ t.power = .off ∧ lineDrive t = .open ∧ t.coin.mover = .idle
      ∧ callArea t = callArea s ∧ coinArea t = coinArea s ∧ vaultArea t = vaultArea s ∧ rptArea t = rptArea s
      ∧ t.store.areas = (cutWrites torn s).foldl tearArea s.store.areas ∧ t.link = LinkBlock.fresh
      ∧ (∀ a, a ∈ cutWrites torn s → a ∈ s.store.areas.written)
      ∧ (∀ a ∈ s.store.areas.written, a ∈ torn → a ∈ cutWrites torn s)
      ∧ (.vault ∈ s.store.areas.written → .vault ∈ torn → ∀ a ∈ s.store.areas.written, a = .call ∨ a = .coin →
          a ∈ cutWrites torn s)
      ∧ (.call ∈ s.store.areas.written → .call ∈ torn → .coin ∈ s.store.areas.written → .coin ∈ cutWrites torn s)
      ∧ OnlyChanges [.power, .raised, .line, .coin, .call, .input] s t

/-- POWER_UP: the marker, read from its two copies, gives the kind of start; the clock goes on only if the backup held
it; the blocks that are not retained take their starting values; the configuration is that of the newest sound copy,
or the factory values when neither copy is sound or the start is a FACTORY one. A record found open is closed with
POWER or RESTART at its last-alive mark or the restart, with its retained account closed; the coin of an interrupted
stroke is taken as at its exit, and counted and credited only if its stroke number was not; the coins left are
refunded in a START_UP run, or stranded when OUT_OF_ORDER; a record with no coin left is stored, the closing slot's
before the open one's. With COIN's area lost the purge begins, and the open record says its escrow is unknown; with
CALL's lost, the purge begins unless the escrow is OUT_OF_ORDER. A bank keeps its contents; none is RETIRING or in
use. All this is the predicate StartTaken. The model's choices in this: what the outage has done to the copies is an
operand (notes/assumptions 13), and so is which copy of the marker can be read, by which the kind is judged (56); the
records left wait in a list of the start and leave both slots empty (17); a record that the log took before the power
failed is known by the mark of the model and is not stored again (45); the connected duration is rounded as 51 says
and is 0 where the end lies before the answer (70); a record found after RESTARTING with no restart instant ends at
its last-alive mark (77); a record that RATE never opened keeps the rating mode it began with (96); a coin that the record
had counted before the loss of power, known by the model's numbers, is not counted again, and one that never reached
the retained escrow no longer counts as accepted (97); every key is RELEASED from the start's first instant until its
reading has ended (79), where R39 gives the key states only from the 30 ms reading. -/
def Obligations.PowerUpTakesStartingState : Prop :=
  ∀ (held : Bool) (copies : MarkerRead) (lost : List AreaName) (s : State), s.power = .off →
    ∃ t, exec (.powerUp held copies lost) s = .next t ∧ t.now = s.now
      ∧ t.store.marker = (match copies with
          | .both | .first => s.store.marker | .second => s.store.areas.marker | .neither => .unreadable)
      ∧ t.store.clock = (if held = true then s.store.clock else none)
      ∧ StartTaken (lost.foldl loseArea s.store.areas) (kindFor t.store.marker) t

/-- The five first readings of a start; and, when every one has been given and COIN's start-up treatment has ended,
the marker is written RUNNING and STARTED is posted, and not before. What a contact or a loop that changes during its
reading is found to be is an operand here, and the model's choice in the idle part (notes/assumptions 48, 66); with it
the cord input keeps its level (66). That the stuck timers of the keys found closed run their 20 s from the end of the
30 ms reading is the model's choice (79). Of a switch reading that finds a door open with the key OFF, the fields of
the vault alone are stated. The bytes of STARTED follow notes/assumptions 12 and 91. -/
def Obligations.FirstReadingsCompleteTheStart : Prop :=
  (∀ s : State, s.power = .starting →
    (∀ closed : List Key, s.store.start.keysRead = false → ∃ t, exec (.keyReadingEnd closed) s = .next t ∧ LinkKept s t
      ∧ t.now = max s.now (s.store.start.beganAt + 30)
      ∧ t.keys = { s.keys with cells := allKeys.map (fun k =>
          if closed.contains k = true then ⟨.blocked, some (t.now + 20000), true⟩ else ⟨.released, none, false⟩) }
      ∧ t.store.start = { s.store.start with keysRead := true }
      ∧ t.incd = (reading (!closed.isEmpty) .keyStuck s).incd
      ∧ OnlyChanges [.now, .keys, .pins, .samplers, .start, .incd] s t)
    ∧ (∀ off : Bool, s.store.start.hookRead = false → ∃ t, exec (.hookReadingEnd off) s = .next t ∧ LinkKept s t
      ∧ t.now = max s.now (s.store.start.beganAt + 100)
      ∧ t.keys = { s.keys with hook := if off = true then .offHook else .onHook }
      ∧ t.call.state = (if off = true then .abandoned else .idle) ∧ t.call.level = none
      ∧ t.call.abandonedTimer = (if off = true then some (t.now + 600000) else none)
      ∧ t.call.openSlot = s.call.openSlot ∧ t.store.start = { s.store.start with hookRead := true }
      ∧ OnlyChanges [.now, .keys, .call, .pins, .samplers, .start] s t)
    ∧ (∀ key vault housing : Bool, s.store.start.switchesRead = false →
      ∃ t, exec (.switchReadingEnd key vault housing) s = .next t ∧ LinkKept s t
      ∧ t.now = max s.now (s.store.start.beganAt + 200) ∧ t.vault.keyOn = key ∧ t.vault.vaultOpen = vault
      ∧ t.vault.housingOpen = housing ∧ t.vault.service = (if key = true then .service else .normal)
      ∧ t.vault.graceTimer = none ∧ t.vault.vaultGrace = false ∧ t.vault.housingGrace = false
      ∧ t.store.start.switchesRead = true
      ∧ t.vault.full = decide (t.config.vaultCapacity ≤ t.vault.counters.total + t.coin.escrow.length)
      ∧ t.vault.nearFull = decide (t.config.nearFullMark ≤ t.vault.counters.total)
      ∧ (key = true ∨ (vault = false ∧ housing = false) →
          OnlyChanges [.now, .vault, .pins, .samplers, .start, .incd] s t))
    ∧ (∀ isOpen : Bool, s.store.start.cordRead = false → ∃ t, exec (.cordReadingEnd isOpen) s = .next t ∧ LinkKept s t
      ∧ t.now = max s.now (s.store.start.beganAt + 500)
      ∧ t.incd = { (reading isOpen .cordCut s).incd with cordOpen := some isOpen }
      ∧ t.pins = { s.pins with cordOpen := s.pins.cordOpen || isOpen }
      ∧ t.store.start = { s.store.start with cordRead := true }
      ∧ OnlyChanges [.now, .pins, .samplers, .start, .incd] s t)
    ∧ (∀ absent : Bool, s.store.start.voltageRead = false → ∃ t, exec (.voltageReadingEnd absent) s = .next t
      ∧ LinkKept s t ∧ t.now = max s.now (s.store.start.beganAt + 2000)
      ∧ t.line.watch = (if absent = true then .cut else s.line.watch)
      ∧ t.incd = (reading absent .lineCut s).incd ∧ t.store.start = { s.store.start with voltageRead := true }
      ∧ OnlyChanges [.now, .pins, .line, .start, .incd] s t))
  ∧ ∀ s : State, s.power = .starting →
    ((readingsGiven s.store.start = true ∧ s.coin.run ≠ .startUp ∧ s.coin.run ≠ .purge) →
      ∃ t, exec .startComplete s = .next t ∧ LinkKept s t ∧ Posted [⟨.started, startedNotice s⟩] s t
        ∧ t.body = { s with power := .running, store := { s.store with marker := .running } }.body)
    ∧ (readingsGiven s.store.start = false ∨ s.coin.run = .startUp ∨ s.coin.run = .purge →
      exec .startComplete s = .next s)

/-! ### Keys -/

/-- R25, R26: a key found closed is PRESSED, or BLOCKED while another key is PRESSED, with its stuck timer at 20 s;
found open, it is RELEASED, and the KEY_STUCK condition ends with the last key that holds it; at the timer's expiry it
is STUCK, with an occurrence of KEY_STUCK. A press of FOLLOW-ON (R21, R22) acts only on a rated CHARGED call in
CONNECTED and outside GRACE: with due above 0 it is held; with due 0 the call ends with FOLLOW_ON, its record in the
log with U carried out and the escrow passed on, and the next record follows it with that amount carried in and that
escrow taken over. In a record that reaches the log, the rounding of the connected duration (notes/assumptions 51),
its 0 where the end lies before the answer (70) and the log's mark of the record handed to it (45) are the model's. -/
def Obligations.KeysPressBlockStickAndRelease : Prop :=
  ∀ (k : Key) (s : State), alive s = true → s.store.start.keysRead = true → s.keys.cells.length = 13 →
    (∃ t, exec (.keyPress k) s = .next t ∧ LinkKept s t
      ∧ ((cellOf k s.keys).state = .released → otherPressed k s.keys = true →
          cellOf k t.keys = ⟨.blocked, some (s.now + 20000), false⟩ ∧ (∀ j, j ≠ k → cellOf j t.keys = cellOf j s.keys)
          ∧ OnlyChanges [.keys, .pins, .samplers] s t ∧ Posted [] s t)
      ∧ ((cellOf k s.keys).state = .released → otherPressed k s.keys = false →
          cellOf k t.keys = ⟨.pressed, some (s.now + 20000), false⟩ ∧ (∀ j, j ≠ k → cellOf j t.keys = cellOf j s.keys)
          ∧ (k ≠ .followOn → collecting s.keys.collection = false →
              OnlyChanges [.keys, .pins, .samplers] s t ∧ Posted [] s t
              ∧ t.keys.buffer = s.keys.buffer ∧ t.keys.collection = s.keys.collection)
          ∧ (k = .followOn → s.call.state ≠ .connected ∨ openKind s ≠ .charged ∨ s.rate.phase = .grace →
              OnlyChanges [.keys, .pins, .samplers] s t ∧ Posted [] s t)
          ∧ (k = .followOn → s.call.state = .connected → openKind s = .charged → s.rate.phase ≠ .grace →
              (0 < s.rate.acct.due → t.call = { s.call with heldFollowOn := true }
                ∧ OnlyChanges [.keys, .call, .pins, .samplers] s t ∧ Posted [] s t)
              ∧ ∀ sl, s.rate.acct.due = 0 → rating s = true → s.call.openSlot = some sl → s.call.closingSlot = none →
                s.call.atStart = [] → s.coin.run = .none → s.store.log.records.length < 64 →
                ∃ u, OnlyChanges [.keys, .pins, .samplers] s u ∧ LinkKept s u
                  ∧ u.keys = { s.keys with cells := t.keys.cells } ∧ FollowOnEnded u t sl))
      ∧ ((cellOf k s.keys).state ≠ .released → t.keys = s.keys ∧ OnlyChanges [.pins, .samplers] s t ∧ Posted [] s t))
    ∧ (∃ t, exec (.keyRelease k) s = .next t ∧ LinkKept s t
      ∧ ((cellOf k s.keys).state ≠ .released →
          t.keys = { s.keys with cells := s.keys.cells.set (keyIndex k) ⟨.released, none, false⟩ }
          ∧ t.incd = (if keyStuckHeld s.keys = true ∧ keyStuckHeld t.keys = false then (endCondition .keyStuck s).incd
              else s.incd)
          ∧ OnlyChanges [.keys, .pins, .samplers, .incd] s t)
      ∧ ((cellOf k s.keys).state = .released → t.keys = s.keys ∧ OnlyChanges [.pins, .samplers] s t))
    ∧ (∀ d, (cellOf k s.keys).stuckTimer = some d →
        (cellOf k s.keys).state = .pressed ∨ (cellOf k s.keys).state = .blocked →
        ∃ t, exec (.stuckTimerExpiry k) s = .next t ∧ LinkKept s t ∧ t.now = max s.now d
          ∧ cellOf k t.keys = { cellOf k s.keys with state := .stuck, stuckTimer := none }
          ∧ (∀ j, j ≠ k → cellOf j t.keys = cellOf j s.keys) ∧ t.incd = (countOccurrence .keyStuck s).incd
          ∧ OnlyChanges [.now, .keys, .incd] s t)

/-- R30, R34: a digit or * pressed in AWAIT_FIRST or COLLECTING_DIGITS that completes no number joins the buffer,
stops the first-digit timer, starts the inter-digit timer and posts DIALLED; at a full buffer it is discarded. The
best match is the entry with the longest digit string that leads the buffer. The number is complete (R33, R35 to R37)
at an emergency number, at the best match's greatest length unless it bars, at # with its least length reached, and at
the inter-digit timeout with its least length reached; # is otherwise ignored, also when the analysis made anew at #
gives no complete number (the model's reading, notes/assumptions 20). A completed number (R5, R9 to R11) is BARRED
when it bars or cannot be sent as loop pulses, REFUSED when the service level, computed anew, does not honour its
kind; awaits a deposit when the initial charge and one step are not covered by the amount carried in and the escrow;
and otherwise requests the line: seized when FREE, waited for in GUARD, and taken from a report attempt, which is
aborted. That the deposit is fixed at the completion and an absent class or bank counts 0 in it is the model's reading
(notes/assumptions 21); the log's mark of the record handed to it is the model's own (45); the bytes of DIALLED follow
12. -/
def Obligations.DialledSymbolsAreStoredAndMatched : Prop :=
  (∀ (x : Symbol) (s : State), alive s = true → s.store.start.keysRead = true → s.keys.cells.length = 13 →
    (cellOf (symbolKey x) s.keys).state = .released → otherPressed (symbolKey x) s.keys = false →
    collecting s.keys.collection = true → s.call.state = .collecting →
    ∃ t, exec (.keyPress (symbolKey x)) s = .next t ∧ LinkKept s t
      ∧ (24 ≤ s.keys.buffer.length → OnlyChanges [.keys, .pins, .samplers] s t ∧ t.keys.buffer = s.keys.buffer
          ∧ t.keys.interDigitTimer = s.keys.interDigitTimer ∧ Posted [] s t)
      ∧ (s.keys.buffer.length < 24 → s.config.emergency.all (fun e => decide (e ≠ s.keys.buffer ++ [x])) = true →
          (∀ m, bestMatch (s.keys.buffer ++ [x]) (activeTable s) = some m →
            m.kind = .barred ∨ s.keys.buffer.length + 1 < m.maxLen) →
          t.keys = { s.keys with
              cells := t.keys.cells
              buffer := s.keys.buffer ++ [x]
              collection := .collectingDigits
              firstDigitTimer := none
              interDigitTimer := some (s.now + s.config.interDigit * 1000)
              best := bestMatch (s.keys.buffer ++ [x]) (activeTable s) }
          ∧ t.call = { s.call with earpiece := .silent } ∧ OnlyChanges [.keys, .call, .pins, .samplers] s t
          ∧ Posted [⟨.dialled, digitString t.keys.buffer ++ optByte (t.keys.best.map (fun m => m.kind.code)) ++ [0]⟩]
              s t)
      ∧ (∀ sl, s.keys.buffer.length < 24 → s.call.openSlot = some sl →
          ∃ u, OnlyChanges [.keys, .call, .pins, .samplers] s u ∧ LinkKept s u
            ∧ u.keys = { s.keys with
                cells := u.keys.cells
                buffer := s.keys.buffer ++ [x]
                collection := .collectingDigits
                firstDigitTimer := none
                interDigitTimer := some (s.now + s.config.interDigit * 1000)
                best := u.keys.best }
            ∧ u.call = { s.call with earpiece := .silent }
            ∧ (s.keys.buffer ++ [x] ∈ s.config.emergency → NumberDone .emergency none u t sl)
            ∧ (∀ m, s.keys.buffer ++ [x] ∉ s.config.emergency →
                bestMatch (s.keys.buffer ++ [x]) (activeTable s) = some m → m.kind ≠ .barred →
                m.maxLen ≤ s.keys.buffer.length + 1 → NumberDone m.kind.number (some m.cls) u t sl)))
  ∧ (∀ s : State, alive s = true → s.store.start.keysRead = true → (cellOf .hash s.keys).state = .released →
    otherPressed .hash s.keys = false →
    ∃ t, exec (.keyPress .hash) s = .next t
      ∧ (s.keys.collection ≠ .collectingDigits ∨ (∀ m, s.keys.best = some m → s.keys.buffer.length < m.minLen) →
          OnlyChanges [.keys, .pins, .samplers] s t ∧ t.keys = { s.keys with cells := t.keys.cells } ∧ Posted [] s t)
      ∧ (∀ m0, s.keys.collection = .collectingDigits → s.keys.best = some m0 → m0.minLen ≤ s.keys.buffer.length →
          ((∀ m, bestMatch s.keys.buffer (activeTable s) = some m → s.keys.buffer.length < m.minLen) →
            OnlyChanges [.keys, .pins, .samplers] s t ∧ t.keys = { s.keys with cells := t.keys.cells } ∧ Posted [] s t)
          ∧ ∀ m sl, bestMatch s.keys.buffer (activeTable s) = some m → m.minLen ≤ s.keys.buffer.length →
            s.call.state = .collecting → s.call.openSlot = some sl →
            ∃ u, OnlyChanges [.keys, .pins, .samplers] s u ∧ LinkKept s u
              ∧ u.keys = { s.keys with cells := u.keys.cells, best := some m }
              ∧ NumberDone m.kind.number (some m.cls) u t sl))
  ∧ (∀ (d : Nat) (m : TableEntry) (sl : Slot) (s : State), alive s = true → s.keys.interDigitTimer = some d →
    s.keys.collection = .collectingDigits → s.call.state = .collecting → s.call.openSlot = some sl →
    bestMatch s.keys.buffer (activeTable s) = some m → m.minLen ≤ s.keys.buffer.length →
    ∃ t, exec .interDigitTimeout s = .next t
      ∧ NumberDone m.kind.number (some m.cls)
          { s with now := max s.now d, keys := { s.keys with best := some m } } t sl)
  ∧ ∀ (buffer : List Symbol) (table : List TableEntry),
    (bestMatch buffer table = none ↔ ∀ e ∈ table, leads e.digits buffer = false)
    ∧ ∀ m, bestMatch buffer table = some m → m ∈ table ∧ m.digits <+: buffer
        ∧ ∀ e ∈ table, e.digits <+: buffer → e.digits.length ≤ m.digits.length

/-! ### Calls -/

/-- R8: in IDLE the handset lifted begins a call: the level is computed, a new record is opened, collection starts
with an empty buffer and 20 s for the first digit, READY is selected, and HOOK and CALL_STATE are posted; an attempt
of RPT is aborted first. R18: in CLEARING, when the handset had been replaced since the end and only the refund run is
left (no account, no coin in transit, no record in the closing slot), lifting it moves the record to the closing slot
and begins a call in the same way; otherwise it only selects REJECT (R6). Replaced in CLEARING, the earpiece is SILENT
and the replacement is remembered. That the attempt is aborted before the call begins is the model's inference
(notes/assumptions 36), and that the lifting in CLEARING begins the call with all the steps of R8 too (19); that K
without an account is the carried-in amount of the open record, for what CREDIT follows, is its choice (72); the coin
number that the new slot keeps is its mark (97); the bytes of the notices follow notes/assumptions 12 and 90. -/
def Obligations.HookOffBeginsACall : Prop :=
  (∀ s : State, alive s = true → s.store.start.hookRead = true → s.keys.hook = .onHook → s.call.state = .idle →
    ∃ t, exec .hookOff s = .next t ∧ LinkKept s t
      ∧ t.call.state = .collecting ∧ t.call.level = some (serviceLevel s) ∧ t.call.earpiece = .ready
      ∧ t.call.openSlot = some
          { record := { offHook := s.store.clock, mode := s.config.ratingMode,
                        flags := { clockUnset := s.store.clock.isNone } },
            offAt := s.now, base := s.coin.gone + s.coin.escrow.length }
      ∧ t.keys = { s.keys with hook := .offHook, collection := .awaitFirst, buffer := [], best := none,
                               firstDigitTimer := some (s.now + 20000), interDigitTimer := none }
      ∧ (attempting s.rpt.state = false → OnlyChanges [.call, .keys, .pins, .samplers] s t
          ∧ (creditKey s = creditKey t → Posted [⟨.hook, [1]⟩, ⟨.callState, [1] ++ le1 (serviceLevel s).code ++ [0]⟩] s t))
      ∧ (attempting s.rpt.state = true → OnlyChanges [.call, .keys, .pins, .samplers, .line, .rpt] s t
          ∧ t.line = (release s).line ∧ attempting t.rpt.state = false ∧ t.rpt.blocks = none
          ∧ t.rpt.failures = s.rpt.failures ∧ t.rpt.backoffTimer = s.rpt.backoffTimer))
  ∧ (∀ s : State, alive s = true → s.store.start.hookRead = true → s.keys.hook = .onHook → s.call.state = .clearing →
    attempting s.rpt.state = false →
    ∃ t, exec .hookOff s = .next t ∧ LinkKept s t
      ∧ (let follows := s.call.replaced = true ∧ s.rate.phase = .inactive ∧ s.coin.transit = none
           ∧ s.call.refundAsked = true ∧ s.coin.run = .callEnd ∧ s.call.closingSlot = none
         (follows →
            t.call.closingSlot = s.call.openSlot ∧ t.call.state = .collecting ∧ t.call.level = some (serviceLevel s)
            ∧ t.call.earpiece = .ready
            ∧ t.call.openSlot = some
                { record := { offHook := s.store.clock, mode := s.config.ratingMode,
                              flags := { clockUnset := s.store.clock.isNone } },
                  offAt := s.now, base := s.coin.gone + s.coin.escrow.length }
            ∧ t.keys = { s.keys with hook := .offHook, collection := .awaitFirst, buffer := [], best := none,
                                     firstDigitTimer := some (s.now + 20000), interDigitTimer := none }
            ∧ OnlyChanges [.call, .keys, .pins, .samplers] s t)
         ∧ (¬ follows →
            t.call = { s.call with earpiece := .reject, toneSince := s.now }
            ∧ t.keys = { s.keys with hook := .offHook } ∧ OnlyChanges [.call, .keys, .pins, .samplers] s t
            ∧ Posted [⟨.hook, [1]⟩] s t)))
  ∧ ∀ s : State, alive s = true → s.store.start.hookRead = true → s.keys.hook = .offHook → s.call.state = .clearing →
    ∃ t, exec .hookOn s = .next t ∧ LinkKept s t
      ∧ t.call = { s.call with replaced := true, earpiece := .silent, toneSince := s.now }
      ∧ t.keys = { s.keys with hook := .onHook } ∧ OnlyChanges [.call, .keys, .pins, .samplers] s t
      ∧ Posted [⟨.hook, [0]⟩] s t

/-- R9, R10, R13, R16 to R18, R31: the events of the handset and of the timers that end a call which nothing holds
back, each with its cause; a timeout with a match too short ends it with INCOMPLETE. And the handset replaced ends a
rated call with USER_CLEAR (R16, R105): of the steps held during an absence of current those up to the end instant
count, the account is closed into the record (R19) with what stays unsettled, the line released and the bank let go.
With the escrow empty, or OUT_OF_ORDER and then stranded, the record is stored at once; else the call is in CLEARING
and the refund of the first coin has begun. In a record that reaches the log, the rounding of the connected duration
(notes/assumptions 51), its 0 where the end lies before the answer (70) and the log's mark of the record handed to it
(45) are the model's. That the hook-on that ended the call counts as the handset replaced in CLEARING is the model's
reading (notes/assumptions 19). -/
def Obligations.UserAndTimersEndBareCalls : Prop :=
  (∀ (s : State) (sl : Slot), alive s = true → BareCall s sl →
    (endable s.call.state = true → s.store.start.hookRead = true → s.keys.hook = .offHook →
      ∃ t, exec .hookOn s = .next t ∧ CallEnded .userClear s.now (setHook .onHook s) t sl)
    ∧ (∀ d, s.keys.firstDigitTimer = some d → s.keys.collection = .awaitFirst → s.call.state = .collecting →
      ∃ t, exec .firstDigitTimeout s = .next t
        ∧ CallEnded .incomplete (max s.now d) { s with now := max s.now d } t (sl.modify (fun r => { r with kind := .none })))
    ∧ (∀ d, s.keys.interDigitTimer = some d → s.keys.collection = .collectingDigits → s.call.state = .collecting →
      analyse s = none →
      ∃ t, exec .interDigitTimeout s = .next t
        ∧ CallEnded .barred (max s.now d) { s with now := max s.now d, keys := { s.keys with best := none } } t
            (sl.modify (fun r => { r with kind := .barred })))
    ∧ (∀ d m, s.keys.interDigitTimer = some d → s.keys.collection = .collectingDigits → s.call.state = .collecting →
      bestMatch s.keys.buffer (activeTable s) = some m → s.keys.buffer.length < m.minLen →
      ∃ t, exec .interDigitTimeout s = .next t
        ∧ CallEnded .incomplete (max s.now d) { s with now := max s.now d, keys := { s.keys with best := some m } } t
            (sl.modify (fun r => { r with kind := m.kind.number })))
    ∧ (∀ d, s.call.depositTimer = some d → s.call.state = .awaitDeposit →
      ∃ t, exec .depositTimeout s = .next t ∧ CallEnded .noDeposit (max s.now d) { s with now := max s.now d } t sl)
    ∧ (∀ d, s.call.answerTimer = some d → s.call.state = .ringing →
      ∃ t, exec .answerTimeout s = .next t ∧ CallEnded .noAnswer (max s.now d) { s with now := max s.now d } t sl))
  ∧ ∀ (s : State) (sl : Slot), alive s = true → RatedCall s sl → endable s.call.state = true →
    s.store.start.hookRead = true → s.keys.hook = .offHook →
    ∃ t, exec .hookOn s = .next t
      ∧ (s.coin.escrow = [] ∨ s.coin.order = .outOfOrder → RatedCallEnded .userClear s.now (setHook .onHook s) t sl)
      ∧ ∀ e rest, s.coin.escrow = e :: rest → s.coin.order = .inOrder →
          RatedCallClears .userClear s.now (setHook .onHook s) t sl e rest

/-- R45 to R48, R59 with R12 to R14 and R16: LINE's reports that end a seizure end a call which nothing holds back,
each with its cause; loss of loop current ends it at the instant the absence began. And loss of current (LINE_LOST)
and an accepted return (FAR_END) end a rated call: the account closed into the record (R105), the record stored, or
the refund of its coins begun. The model's choices in this: the loss is recognised at since + 401 ms
(notes/assumptions 25); the clock at the end of a LINE_LOST call is counted back from the clock at the report (35). In
a record that reaches the log, the rounding of the connected duration (notes/assumptions 51), its 0 where the end lies
before the answer (70) and the log's mark of the record handed to it (45) are the model's. That a handset on-hook at
the end instant counts as replaced in CLEARING is the model's reading (notes/assumptions 19). -/
def Obligations.LineReportsEndBareCalls : Prop :=
  (∀ (s : State) (sl : Slot), alive s = true → BareCall s sl → s.line.owner = .call → s.line.reported = false →
    (∀ d, s.line.dialToneTimer = some d → s.line.state = .seizedWaitTone → s.call.state = .seizing →
      ∃ t, exec .dialToneTimeout s = .next t
        ∧ CallEnded .noDialTone (max s.now d) (endingReport { s with now := max s.now d }) t sl)
    ∧ (loopClosed s.line.state = true → s.line.progress.busyWatch = true → takesBusy s.call.state = true →
      ∃ t, exec .busyRecognised s = .next t ∧ CallEnded .busy s.now (endingReport s) t sl)
    ∧ (∀ since, s.line.absentSince = some since → watchRuns s.line = true → takesLoss s.call.state = true →
      ∃ t, exec .loopCurrentLost s = .next t
        ∧ CallEnded .lineLost since
            (endingReport (setCurrent false { s with now := max s.now (since + 401) })) t sl)
    ∧ (s.line.state = .seized → s.line.reversed = true → s.line.answered = true → s.call.state = .connected →
      ∃ t, exec .returnAccepted s = .next t
        ∧ CallEnded .farEnd s.now (endingReport { s with
            pins := { s.pins with polarity := s.line.reference }
            line := { s.line with reversed := false, holdSince := none, polaritySeen := s.line.reference } }) t sl))
  ∧ ∀ (s : State) (sl : Slot), alive s = true → RatedCall s sl → s.line.owner = .call → s.line.reported = false →
    (∀ since, s.line.absentSince = some since → watchRuns s.line = true → takesLoss s.call.state = true →
      ∃ t u, exec .loopCurrentLost s = .next t
        ∧ u = endingReport (setCurrent false { s with now := max s.now (since + 401) })
        ∧ (s.coin.escrow = [] ∨ s.coin.order = .outOfOrder → RatedCallEnded .lineLost since u t sl)
        ∧ ∀ e rest, s.coin.escrow = e :: rest → s.coin.order = .inOrder → RatedCallClears .lineLost since u t sl e rest)
    ∧ (s.line.state = .seized → s.line.reversed = true → s.line.answered = true → s.call.state = .connected →
      ∃ t u, exec .returnAccepted s = .next t
        ∧ u = endingReport { s with
            pins := { s.pins with polarity := s.line.reference }
            line := { s.line with reversed := false, holdSince := none, polaritySeen := s.line.reference } }
        ∧ (s.coin.escrow = [] ∨ s.coin.order = .outOfOrder → RatedCallEnded .farEnd s.now u t sl)
        ∧ ∀ e rest, s.coin.escrow = e :: rest → s.coin.order = .inOrder → RatedCallClears .farEnd s.now u t sl e rest)

/-- R20, R6, R181: CALL's other timers, and the handset replaced in ABANDONED; and what the earpiece sounds: nothing,
425 Hz steady (READY), 400 ms on and off (DEPOSIT), 200 ms on and off (REJECT), the line, and the two 150 ms bursts of
a warning over it, 150 ms apart (that a pattern begins with its sounding part at the tone's selection is the model's
choice, notes/assumptions 46). -/
def Obligations.CallTimersActInTheirStates : Prop :=
  (∀ s : State, alive s = true →
    (∀ d, s.call.abandonedTimer = some d → s.call.state = .abandoned →
      ∃ t, exec .abandonedTimeout s = .next t ∧ LinkKept s t ∧ t.now = max s.now d
        ∧ t.call = { s.call with abandonedTimer := none } ∧ t.incd = (countOccurrence .hookStuck s).incd
        ∧ OnlyChanges [.now, .call, .incd] s t)
    ∧ (∀ d, s.call.rejectTimer = some d → s.call.state = .abandoned →
      ∃ t, exec .rejectToneEnd s = .next t ∧ LinkKept s t ∧ Posted [] s t
        ∧ t.body = { s with now := max s.now d, call := { s.call with rejectTimer := none, earpiece := .silent } }.body)
    ∧ (∀ d, s.call.warningTimer = some d → s.call.state = .connected →
      s.rate.phase = .warning ∨ s.rate.phase = .grace →
      ∃ t, exec .warningRepeat s = .next t ∧ LinkKept s t ∧ Posted [] s t
        ∧ t.body = { s with now := max s.now d, call := { s.call with
            lastWarning := some (max s.now d), warningTimer := some (max s.now d + 5000) } }.body)
    ∧ (∀ d sl, s.call.aliveTimer = some d → callExists s.call.state = true → s.call.openSlot = some sl →
      ∃ t, exec .lastAliveWrite s = .next t ∧ LinkKept s t ∧ Posted [] s t
        ∧ t.body = { s with now := max s.now d, call := { s.call with
            openSlot := some { sl with lastAlive := (max s.now d - sl.offAt) / 100 }, aliveTimer := some (d + 1000) } }.body)
    ∧ (s.call.state = .abandoned → s.store.start.hookRead = true → s.keys.hook = .offHook →
      ∃ t, exec .hookOn s = .next t ∧ LinkKept s t ∧ t.call.state = .idle ∧ t.call.abandonedTimer = none
        ∧ t.call.openSlot = s.call.openSlot ∧ t.keys = { s.keys with hook := .onHook }
        ∧ t.incd = (endCondition .hookStuck s).incd ∧ OnlyChanges [.call, .keys, .incd, .pins, .samplers] s t))
  ∧ ∀ s : State,
    (s.call.earpiece = .silent → earpieceDrive s = .muted)
    ∧ (s.call.earpiece = .ready → earpieceDrive s = .tone 425)
    ∧ (s.call.earpiece = .deposit →
        earpieceDrive s = if (s.now - s.call.toneSince) % 800 < 400 then .tone 425 else .muted)
    ∧ (s.call.earpiece = .reject →
        earpieceDrive s = if (s.now - s.call.toneSince) % 400 < 200 then .tone 425 else .muted)
    ∧ (s.call.earpiece = .line → s.call.state ≠ .connected ∨ s.call.lastWarning = none → earpieceDrive s = .line)
    ∧ ∀ w, s.call.earpiece = .line → s.call.state = .connected → s.call.lastWarning = some w →
        earpieceDrive s = if s.now - w < 150 ∨ (300 ≤ s.now - w ∧ s.now - w < 450) then .lineWith 425 else .line

/-! ### The line -/

/-- R44, R47, R53, R56 with R11, R12, R159, R163 and R164: the line comes free, is seized for the waiting call, sends
when dial tone is recognised, and enters SEIZED when the digits have been sent. R57: the reference polarity is the one
judged at that instant: the input with loop current present, and in an absence the polarity last judged (in a seizure
that has seen no current yet, one of an earlier seizure: the model's choice, notes/assumptions 67). -/
def Obligations.LineSeizesSendsAndReports : Prop :=
  ∀ s : State, alive s = true →
    (∀ d, s.line.guardTimer = some d → s.line.state = .guard → ∃ t, exec .guardEnd s = .next t ∧ LinkKept s t
      ∧ t.now = max s.now d
      ∧ (s.call.state ≠ .waitLine → s.call.state ≠ .followOnClearing → Posted [] s t
          ∧ t.body = { s with now := max s.now d, line := { s.line with state := .free, guardTimer := none } }.body)
      ∧ (s.call.state = .waitLine → s.line.owner = .none →
          unsendable s.config.sendingMethod (s.keys.buffer.map Symbol.dtmf) = false →
          t.line.state = .seizedWaitTone ∧ t.line.owner = .call ∧ t.line.digits = s.keys.buffer.map Symbol.dtmf
          ∧ t.line.dialToneTimer = some (max s.now d + s.config.dialToneWait * 1000) ∧ t.call.state = .seizing
          ∧ OnlyChanges [.now, .line, .call, .start, .incd] s t)
      ∧ (s.call.state = .followOnClearing → t.line = { s.line with state := .free, guardTimer := none }
          ∧ t.call.state = .collecting ∧ t.call.level = some (serviceLevel s)
          ∧ t.keys = { s.keys with collection := .awaitFirst, firstDigitTimer := some (max s.now d + 20000) }
          ∧ OnlyChanges [.now, .line, .call, .keys] s t))
    ∧ (s.line.state = .seizedWaitTone → s.line.reported = false → s.line.progress.dialTiming = true →
      ∃ t, exec .dialToneRecognised s = .next t ∧ LinkKept s t ∧ t.line.state = .sending ∧ t.line.dialToneTimer = none
        ∧ t.line.sendTimer = some (s.now + sendMs s.line.method s.line.digits)
        ∧ t.line.progress = { s.line.progress with dialTiming := false }
        ∧ (s.line.owner = .call → s.call.state = .seizing →
            t.call.state = .sending ∧ OnlyChanges [.line, .call] s t)
        ∧ (s.line.owner = .rpt → t.rpt.state = .dial ∧ OnlyChanges [.line, .rpt] s t))
    ∧ (∀ d, s.line.sendTimer = some d → s.line.state = .sending → s.line.reported = false →
      ∃ t, exec .sendingComplete s = .next t ∧ LinkKept s t ∧ t.now = max s.now d ∧ t.line.state = .seized
        ∧ t.line.reference = (if s.pins.loopCurrent = true then s.pins.polarity else s.line.polaritySeen) ∧ t.line.sendTimer = none
        ∧ (s.line.owner = .call → s.call.state = .sending → t.line.meter.active = true ∧ t.line.centre.active = false
            ∧ speechPath t.line = true ∧ t.call.state = .ringing
            ∧ t.call.answerTimer = some (t.now + s.config.answerWait * 1000) ∧ OnlyChanges [.now, .line, .call] s t)
        ∧ (s.line.owner = .rpt → t.line.centre.active = true ∧ t.line.meter.active = false
            ∧ t.rpt.state = .awaitReady ∧ t.rpt.readyTimer = some (t.now + 30000) ∧ OnlyChanges [.now, .line, .rpt] s t))
    ∧ (∀ l d, s.line.sender = some (l, d) → listening s.line = true → s.rpt.state = .send →
      ∃ t, exec .sendComplete s = .next t ∧ LinkKept s t ∧ Posted [] s t ∧ t.now = max s.now d
        ∧ t.line = { s.line with sender := none, centre := { active := true } }
        ∧ ((blockInHand s.rpt).isSome = true →
            t.rpt = { s.rpt with state := .awaitAck, ackTimer := some (t.now + 4000), quietSince := t.rpt.quietSince })
        ∧ ((blockInHand s.rpt).isNone = true →
            t.rpt = { s.rpt with state := .close, closeTimer := some (t.now + 3000), quietSince := t.rpt.quietSince })
        ∧ OnlyChanges [.now, .line, .rpt] s t)

/-- R45, R47 to R52, R60: the loop-current watch arms and times an absence, the line-voltage watch changes state with
its incident, and each 5 ms interval advances the three channels. What an interval recognises is ToneRecognised: dial
tone at 300 ms of a run; busy at 400 ms of the silence of the third cycle; a valid pulse at the end of a burst of its
minimum up to 500 ms, and a long one when it passes 500 ms; a cadence at 160 ms of the silence of its second
repetition in a row, and BYE at 1000 ms. What it makes of the runs, cycles, bursts and repetitions is BusyCounted,
BurstTimed and RepetitionsCounted. That a watch changes at since + 2001 ms, the first millisecond past 2 s, is the
model's choice (notes/assumptions 25). That the presence judged at the end of an interval ends or begins runs is the
model's reading (notes/assumptions 33), and so is what it makes of a tone that outlasts an absence (80) and of a short
silence between tone runs (83, 87); that the silence under way at a delivery counts toward the 400 ms is its choice
(59). -/
def Obligations.LineInputsAreWatched : Prop :=
  (∀ s : State, alive s = true →
    (watchRuns s.line = true → s.line.absentSince = none ∨ s.rate.held = [] →
      ∃ t, exec .loopCurrentPresent s = .next t ∧ LinkKept s t ∧ Posted [] s t
        ∧ t.body = { s with pins := { s.pins with loopCurrent := true },
                            line := { s.line with armed := true, absentSince := none } }.body)
    ∧ (watchRuns s.line = true → s.line.armed = true → s.line.absentSince = none →
      ∃ t, exec .loopCurrentAbsent s = .next t ∧ LinkKept s t ∧ Posted [] s t
        ∧ t.body = { s with pins := { s.pins with loopCurrent := false },
                            line := { s.line with absentSince := some s.now, meter := t.line.meter } }.body
        ∧ t.line.meter.burst = none)
    ∧ (loopClosed s.line.state = false → s.store.start.voltageRead = true →
      (∀ since, s.line.voltSince = some since → s.line.watch = .present →
        ∃ t, exec .voltageAbsent s = .next t ∧ LinkKept s t ∧ t.now = max s.now (since + 2001)
          ∧ t.line = { s.line with watch := .cut, voltSince := none } ∧ t.incd = (countOccurrence .lineCut s).incd
          ∧ OnlyChanges [.now, .pins, .line, .incd] s t)
      ∧ (∀ since, s.line.voltSince = some since → s.line.watch = .cut →
        ∃ t, exec .voltagePresent s = .next t ∧ LinkKept s t ∧ t.now = max s.now (since + 2001)
          ∧ t.line = { s.line with watch := .present, voltSince := none } ∧ t.incd = (endCondition .lineCut s).incd
          ∧ OnlyChanges [.now, .pins, .line, .incd] s t))
    ∧ (∀ d (p m c : Bool), s.line.detectorTimer = some d → listening s.line = true →
      ∃ t, exec (.toneDetectorInterval p m c) s = .next t ∧ LinkKept s t ∧ Posted [] s t ∧ t.now = max s.now d
        ∧ t.line = { s.line with
            detectorTimer := some (t.now + 5)
            progress := (progressInterval p s.line.progress).1
            meter := (meterInterval (m && currentPresent s.line) s.config.meterMinBurst s.line.meter).1
            centre := (centreInterval c s.line.centre).1 }
        ∧ OnlyChanges [.now, .line, .raised] s t
        ∧ (s.line.progress.active = true → s.line.progress.dialTiming = true → s.line.progress.busyWatch = true →
            s.line.progress.run = ⟨true, 295⟩ → p = true → Instr.dialToneRecognised ∈ t.raised)
        ∧ ToneRecognised m s t
        ∧ (s.line.progress.active = true → s.line.progress.busyWatch = true →
            BusyCounted p s.line.progress t.line.progress)
        ∧ (s.line.meter.active = true → s.line.meter.broken = false →
            BurstTimed (m && currentPresent s.line) s.config.meterMinBurst s.line.meter t.line.meter)
        ∧ (s.line.centre.active = true → RepetitionsCounted c s.line.centre t.line.centre)))

/-- R58, R13, R89: an accepted reversal sets the reversed mark; when the reversal answer is disabled, or the call is
answered already, or is not in RINGING, nothing follows but LINE's marks. Otherwise it answers the ringing call
(AnswerTaken): a call that is not CHARGED is CONNECTED and not rated; a CHARGED call with no ACTIVE bank, or with its
class absent from it, ends REFUSED (the model's reading, notes/assumptions 22). Any other CHARGED call is CONNECTED,
with the answer in its record, its bank named there and in use, and its account opens with the carried-in amount: in
LOCAL mode with its first period, at rate 0 too, in METER with the supervision limit. The initial charge and the first
step are settled at once; in an absence of loop current both are held (R90, R96), and what the phase is meanwhile is the
model's choice (62). When U covers what is due the phase is that of the warning test, and CALL's block changes by what the
change of phase tells it, and no more; a held FOLLOW-ON press then takes effect (R21). When not, settlement waits
(R91, R92, R94, R95): for the COLLECT stroke under way, for one of the escrow's first coin, for a coin in transit, or
in GRACE of 10 s; or the call ends, with ESCROW_FAULT when the escrow is OUT_OF_ORDER, with CREDIT_OUT when the grace
has expired. In a record that reaches the log, the rounding of the connected duration (notes/assumptions 51), its 0
where the end lies before the answer (70) and the log's mark of the record handed to it (45) are the model's. -/
def Obligations.ReversalAnswersTheCall : Prop :=
  ∀ s : State, alive s = true → callSeized s.line = true → s.line.reversed = false →
    ∃ t, exec .reversalAccepted s = .next t ∧ LinkKept s t
      ∧ (let u := { s with
            pins := { s.pins with polarity := !s.line.reference }
            line := { s.line with reversed := true, holdSince := none, polaritySeen := !s.line.reference } }
         let v := { u with line := { u.line with
            answered := true, progress := { s.line.progress with busyWatch := false } } }
         (s.line.answered = true ∨ s.config.reversalAnswer = false → Posted [] s t ∧ t.body = u.body)
         ∧ (s.line.answered = false → s.config.reversalAnswer = true →
            (s.call.state ≠ .ringing → Posted [] s t ∧ t.body = v.body)
            ∧ ∀ sl, s.call.state = .ringing → s.call.openSlot = some sl → AnswerTaken none v t sl))

/-- R49, R50, R101, R103: no pulse arises after an absence of loop current has begun. A meter pulse of an answered call adds a step in METER, which settlement takes at once when U
covers what is due, and waits for as R91 tests 2 to 6 say when it does not; in METER_FALLBACK it is absorbed and the
local period cancelled; in LOCAL it is counted and adds no step; of a call that RATE does not rate it is disregarded.
A pulse before answer is disregarded with the configured mode LOCAL; with METER it is the answer (R58): of a call in
RINGING as ReversalAnswersTheCall says (AnswerTaken), in METER mode, with the first step charged by this pulse; of one
in no such state only LINE's mark is set. That a pulse whose instant is that at which an absence began is taken, and
charged at once, is the model's reading (62). In a record that reaches the log, the rounding of the connected duration
(notes/assumptions 51), its 0 where the end lies before the answer (70) and the log's mark of the record handed to it
(45) are the model's, and that a call without a price ends REFUSED (22) is its reading. -/
def Obligations.MeterPulsesAreCharged : Prop :=
  ∀ (long : Bool) (s : State), alive s = true → callSeized s.line = true → s.line.meter.active = true →
    ∃ t, exec (.meterPulse long) s = .next t ∧ LinkKept s t
      ∧ (∀ since, s.line.absentSince = some since → since < s.now → Posted [] s t ∧ t.body = s.body)
      ∧ ((∀ since, s.line.absentSince = some since → s.now ≤ since) → s.line.answered = true →
        (rating s = false → Posted [] s t ∧ t.body = s.body)
        ∧ (let counted : RateBlock := { s.rate with
              pulses := s.rate.pulses + 1
              flags := { s.rate.flags with longPulse := s.rate.flags.longPulse || long } }
           let armed := if s.rate.limit = 0 then none else some (s.now + s.rate.limit * 100)
           let due := s.rate.acct.due + s.rate.step
           let charged : RateBlock := { counted with superTimer := armed, acct := { s.rate.acct with due := due } }
           (rating s = true → s.rate.mode = some .meter →
              (due = 0 → t.rate = charged ∧ OnlyChanges [.rate] s t)
              ∧ (0 < due → SettlementRuns { s with rate := charged } t))
           ∧ (rating s = true → s.rate.mode = some .meterFallback →
              t.rate = { counted with mode := some .meter, period := none, superTimer := armed }
              ∧ OnlyChanges [.rate] s t)
           ∧ (rating s = true → s.rate.mode = some .localTiming →
              Posted [] s t ∧ t.body = { s with rate := counted }.body)))
      ∧ ((∀ since, s.line.absentSince = some since → s.now ≤ since) → s.line.answered = false →
        (s.config.ratingMode = .localTiming → Posted [] s t ∧ t.body = s.body)
        ∧ (s.config.ratingMode = .meter →
          (let u := { s with line := { s.line with
              answered := true, progress := { s.line.progress with busyWatch := false } } }
           (s.call.state ≠ .ringing → Posted [] s t ∧ t.body = u.body)
           ∧ ∀ sl, s.call.state = .ringing → s.call.openSlot = some sl → AnswerTaken (some long) u t sl)))

/-! ### Report calls -/

/-- R158, R160, R161, R163, R164: an attempt seizes the line with the centre number when its four conditions hold (in
a start too, where it abandons the voltage reading, R61: the model's reading, notes/assumptions 32); READY fixes the block list and sends the first block, or D
when there is none; ACK acknowledges the block in hand, and the next block is sent, once, or D after the last; REPEAT
sends the block in hand again while it has been sent fewer than three times, and otherwise fails the attempt, which
raises the counts, releases the line and starts the backoff wait; BYE ends the close, and the attempt completes. A
cadence that has no meaning in RPT's state is disregarded; LINE holds back the next one after each (R52). -/
def Obligations.ReportAttemptRunsItsCourse : Prop :=
  ∀ s : State, alive s = true →
    (mayStart s = true → unsendable s.config.sendingMethod (s.config.centreNumber.map Symbol.dtmf) = false →
      ∃ t, exec .attemptStart s = .next t ∧ LinkKept s t ∧ t.rpt.state = .seize
        ∧ t.line.state = .seizedWaitTone ∧ t.line.owner = .rpt
        ∧ t.line.digits = s.config.centreNumber.map Symbol.dtmf
        ∧ t.line.dialToneTimer = some (s.now + s.config.dialToneWait * 1000)
        ∧ t.rpt.terminal = s.config.terminalId ∧ t.rpt.blocks = none ∧ t.rpt.failures = s.rpt.failures
        ∧ (s.store.start.voltageRead = true → Posted [] s t ∧ OnlyChanges [.line, .rpt] s t)
        ∧ (s.store.start.voltageRead = false → t.line.watch = .present ∧ t.incd = (readAbsent .lineCut s).incd
            ∧ t.store.start = { s.store.start with voltageRead := true }
            ∧ OnlyChanges [.line, .rpt, .incd, .start] s t))
    ∧ (mayStart s = false → ∃ t, exec .attemptStart s = .next t ∧ Posted [] s t ∧ t.body = s.body)
    ∧ (listening s.line = true → s.line.state = .seized → s.line.owner = .rpt → s.line.centre.active = true →
      s.line.centre.hold = false → s.line.sender = none →
      (s.rpt.state = .awaitReady → ∃ t, exec (.cadenceRecognised .ready) s = .next t ∧ LinkKept s t
        ∧ t.rpt.state = .send ∧ t.rpt.readyTimer = none ∧ t.rpt.index = 0
        ∧ t.rpt.blocks = some (blocksFrom s.rpt.terminal 1 (wantedEntries s))
        ∧ t.line.progress.busyWatch = false
        ∧ (∀ b rest, blocksFrom s.rpt.terminal 1 (wantedEntries s) = b :: rest →
            t.line.sender = some (blockString b, s.now + 160 * (blockString b).length) ∧ t.rpt.sends = 1)
        ∧ (wantedEntries s = [] → t.line.sender = some ([.d], s.now + 160))
        ∧ OnlyChanges [.line, .rpt] s t)
      ∧ (∀ b, s.rpt.state = .awaitAck → blockInHand s.rpt = some b →
        ∃ t, exec (.cadenceRecognised .ack) s = .next t ∧ LinkKept s t ∧ t.rpt.state = .send ∧ t.rpt.ackTimer = none
          ∧ t.rpt.index = s.rpt.index + 1 ∧ t.rpt.blocks = s.rpt.blocks ∧ t.incd = (acknowledge b.kind b.count s).incd
          ∧ (∀ b2, (s.rpt.blocks.getD [])[s.rpt.index + 1]? = some b2 → t.rpt.sends = 1
              ∧ t.line = { s.line with
                  centre := {}, sender := some (blockString b2, s.now + 160 * (blockString b2).length) })
          ∧ ((s.rpt.blocks.getD [])[s.rpt.index + 1]? = none →
              t.line = { s.line with centre := {}, sender := some ([.d], s.now + 160) })
          ∧ OnlyChanges [.line, .rpt, .incd] s t)
      ∧ (∀ b, s.rpt.state = .awaitAck → blockInHand s.rpt = some b →
        ∃ t, exec (.cadenceRecognised .again) s = .next t ∧ LinkKept s t ∧ t.rpt.ackTimer = none
          ∧ (s.rpt.sends < 3 → t.rpt.state = .send ∧ t.rpt.sends = s.rpt.sends + 1 ∧ t.rpt.index = s.rpt.index
              ∧ t.rpt.blocks = s.rpt.blocks
              ∧ t.line = { s.line with
                  centre := {}, sender := some (blockString b, s.now + 160 * (blockString b).length) })
          ∧ (3 ≤ s.rpt.sends → t.rpt.state = .wait ∧ t.rpt.failures = min 255 (s.rpt.failures + 1)
              ∧ t.rpt.urgentFailures = min 3 (s.rpt.urgentFailures + 1) ∧ t.rpt.blocks = none
              ∧ t.rpt.backoffTimer = some (s.now + backoffMs t.rpt.failures)
              ∧ t.line.state = .guard ∧ t.line.owner = .none ∧ t.line.guardTimer = some (s.now + 1500))
          ∧ OnlyChanges [.line, .rpt] s t)
      ∧ (∀ c : Cadence, (s.rpt.state = .awaitReady ∧ c ≠ .ready) ∨ (s.rpt.state = .awaitAck ∧ c ≠ .ack ∧ c ≠ .again)
            ∨ (s.rpt.state = .close ∧ c ≠ .bye) →
        ∃ t, exec (.cadenceRecognised c) s = .next t ∧ LinkKept s t ∧ Posted [] s t
          ∧ t.body = { s with line := { s.line with
              centre := { s.line.centre with hold := true }
              progress := if c = Cadence.ready then { s.line.progress with busyWatch := false } else s.line.progress } }.body)
      ∧ (s.rpt.state = .close → ∃ t, exec (.cadenceRecognised .bye) s = .next t ∧ LinkKept s t
          ∧ t.line.state = .guard ∧ t.line.owner = .none ∧ t.line.guardTimer = some (s.now + 1500)
          ∧ t.rpt.failures = 0 ∧ t.rpt.urgentFailures = 0 ∧ t.rpt.savedWait = 0 ∧ t.rpt.blocks = none
          ∧ t.rpt.state = (if reportWanted s = true then .readyToStart else .idle)
          ∧ OnlyChanges [.line, .rpt] s t))

/-- R160, R163 to R166: RPT's timers: no READY in 30 s, or no ACK of the third send, fails the attempt, which raises the
counts, releases the line and starts the backoff wait of the table; a close ends well; a wait ends, and is written at
each whole minute. -/
def Obligations.ReportTimersFailCompleteAndWait : Prop :=
  (∀ s : State, alive s = true →
    (∀ d, s.rpt.readyTimer = some d → s.rpt.state = .awaitReady → s.line.state = .seized →
      ∃ t, exec .readyTimeout s = .next t ∧ LinkKept s t ∧ t.now = max s.now d ∧ t.rpt.state = .wait
        ∧ t.rpt.failures = min 255 (s.rpt.failures + 1) ∧ t.rpt.urgentFailures = min 3 (s.rpt.urgentFailures + 1)
        ∧ t.rpt.backoffTimer = some (t.now + backoffMs t.rpt.failures) ∧ t.rpt.savedWait = backoffMs t.rpt.failures / 100
        ∧ t.rpt.readyTimer = none ∧ t.rpt.blocks = none ∧ t.line.state = .guard
        ∧ t.line.guardTimer = some (t.now + 1500) ∧ OnlyChanges [.now, .line, .rpt] s t)
    ∧ (∀ d b, s.rpt.ackTimer = some d → s.rpt.state = .awaitAck → blockInHand s.rpt = some b →
        s.line.state = .seized → s.line.owner = .rpt → s.line.sender = none →
      ∃ t, exec .ackTimeout s = .next t ∧ LinkKept s t ∧ t.now = max s.now d
        ∧ (s.rpt.sends < 3 → t.rpt.state = .send ∧ t.rpt.sends = s.rpt.sends + 1 ∧ t.rpt.index = s.rpt.index
            ∧ t.line.sender = some (blockString b, t.now + 160 * (blockString b).length))
        ∧ (3 ≤ s.rpt.sends → t.rpt.state = .wait ∧ t.rpt.failures = min 255 (s.rpt.failures + 1)
            ∧ t.rpt.urgentFailures = min 3 (s.rpt.urgentFailures + 1) ∧ t.line.state = .guard
            ∧ t.rpt.backoffTimer = some (t.now + backoffMs t.rpt.failures))
        ∧ OnlyChanges [.now, .line, .rpt] s t)
    ∧ (∀ d, s.rpt.closeTimer = some d → s.rpt.state = .close → s.line.state = .seized →
      ∃ t, exec .closeTimeout s = .next t ∧ LinkKept s t ∧ t.now = max s.now d ∧ t.rpt.failures = 0
        ∧ t.rpt.urgentFailures = 0 ∧ t.rpt.backoffTimer = none ∧ t.rpt.closeTimer = none ∧ t.line.state = .guard
        ∧ t.rpt.state = (if reportWanted s = true then .readyToStart else .idle)
        ∧ OnlyChanges [.now, .line, .rpt] s t)
    ∧ (∀ d, s.rpt.backoffTimer = some d → s.rpt.state = .wait →
      ∃ t, exec .backoffExpiry s = .next t ∧ LinkKept s t ∧ Posted [] s t ∧ t.now = max s.now d
        ∧ t.rpt.state = (if reportWanted s = true then .readyToStart else .idle) ∧ t.rpt.backoffTimer = none
        ∧ t.rpt.savedWait = 0 ∧ t.rpt.failures = s.rpt.failures ∧ OnlyChanges [.now, .rpt] s t)
    ∧ (∀ d, s.rpt.minuteTimer = some d → s.rpt.state = .wait →
      ∃ t, exec .waitMinuteWrite s = .next t ∧ LinkKept s t ∧ Posted [] s t
        ∧ t.body = { s with now := max s.now d, rpt := { s.rpt with
            savedWait := (s.rpt.backoffTimer.getD 0 - max s.now d) / 100
            minuteTimer := some (max s.now d + 60000) } }.body))
  ∧ backoffMs 1 = 120000 ∧ backoffMs 2 = 300000 ∧ backoffMs 3 = 900000 ∧ ∀ n, 4 ≤ n → backoffMs n = 3600000

/-! ### The coin path -/

/-- R62 to R64, R67: at the strobe the coin is accepted exactly when none of the eleven tests of the strobe fails; an
accepted coin is in entry transit for a second, a rejected one is told with its reason, and the latch holds the answer
until the strobe falls. The bytes of the COIN notice follow notes/assumptions 12. -/
def Obligations.ValidatorAcceptsOnElevenTests : Prop :=
  ∀ s : State, alive s = true →
    (∀ (code : BitVec 4) (suspect : Bool), ∃ t, exec (.validatorStrobe code suspect) s = .next t ∧ LinkKept s t
      ∧ (rejectReason code.toNat s = none ↔
          s.coin.transit = none ∧ 1 ≤ code.toNat ∧ code.toNat ≤ 8
          ∧ s.config.denomEnabled.getD (code.toNat - 1) false = true ∧ s.coin.inletFault = false
          ∧ s.coin.lockoutTimer = none ∧ s.coin.order = .inOrder ∧ s.vault.vaultOpen = false
          ∧ s.vault.counters.total + s.coin.escrow.length + 1
              + (if s.coin.blind = true ∧ s.coin.mover = .collecting then 1 else 0) ≤ s.config.vaultCapacity
          ∧ coinPermission s.call.state = true ∧ s.coin.run = .none ∧ s.coin.escrow.length < 12)
      ∧ (rejectReason code.toNat s = none → Posted [] s t
          ∧ t.body = { s with coin := { s.coin with
              latch := .accept
              transit := some ⟨code.toNat, s.config.denomValue.getD (code.toNat - 1) 0, suspect, s.now,
                s.now + 1000⟩ } }.body)
      ∧ (∀ r, rejectReason code.toNat s = some r →
          Posted [⟨.coin, coinNotice (.rejected r code.toNat) s⟩] s t
          ∧ t.body = { s with coin := { s.coin with latch := .reject } }.body))
    ∧ (∃ t, exec .strobeFall s = .next t ∧ LinkKept s t ∧ Posted [] s t
        ∧ t.body = { s with coin := { s.coin with latch := .none } }.body)

/-- R67, R68: a coin in entry transit that the entry sensor reports joins the tail of the escrow and its record; one
it does not report within the window is unconfirmed, and the second in a row faults the inlet. R10: in AWAIT_DEPOSIT
the deposit is checked again at a coin that has joined, and when it is covered the deposit timer stops and the line is
requested (the deposit is the one fixed at completion, the model's reading, notes/assumptions 21). R91 to R95: of a
rated call with nothing due the warning test is made again; with more due than U covers settlement goes on: it waits,
or begins a stroke, or enters GRACE, or ends the call. (With no ended call and no run waiting on the coin.) In a
record that reaches the log, the rounding of the connected duration (notes/assumptions 51), its 0 where the end lies
before the answer (70) and the log's mark of the record handed to it (45) are the model's; so is the number of its last
coin that the slot keeps (97). -/
def Obligations.EntryTransitEndsConfirmedOrNot : Prop :=
  ∀ (s : State) (x : Transit) (sl : Slot), alive s = true → s.coin.transit = some x → s.call.openSlot = some sl →
    Undisturbed s →
    (let coin := { s.coin with
          escrow := s.coin.escrow ++ [⟨x.denom, x.value, x.suspect, some s.now, none, false⟩]
          transit := none, unconfirmed := 0 }
     let slot := { sl.modify (fun r => { r with
          accepted := bumpNth (x.denom - 1) r.accepted
          flags := { r.flags with suspectCoin := r.flags.suspectCoin || x.suspect } }) with
          lastCoin := some (s.coin.gone + s.coin.escrow.length + 1, x.denom) }
     ∃ t, exec .entrySensor s = .next t ∧ LinkKept s t
      ∧ (rating s = false → s.call.state ≠ .awaitDeposit →
          t.coin = coin ∧ t.call = { s.call with openSlot := some slot } ∧ t.vault.counters = s.vault.counters
          ∧ t.vault.full = vaultAtCapacity t ∧ OnlyChanges [.coin, .call, .vault, .incd] s t)
      ∧ (rating s = false → s.call.state = .awaitDeposit →
          (sl.record.carriedIn + callE s + x.value < s.call.deposit →
            t.coin = coin ∧ t.call = { s.call with openSlot := some slot } ∧ t.vault.counters = s.vault.counters
            ∧ OnlyChanges [.coin, .call, .vault, .incd] s t)
          ∧ (s.call.deposit ≤ sl.record.carriedIn + callE s + x.value →
            unsendable s.config.sendingMethod (s.keys.buffer.map Symbol.dtmf) = false →
            ∃ u, OnlyChanges [.coin, .call, .vault, .incd] s u ∧ LinkKept s u ∧ u.coin = coin
              ∧ u.call = { s.call with openSlot := some slot, depositTimer := none }
              ∧ u.vault.counters = s.vault.counters ∧ t.call.openSlot = some slot ∧ t.call.depositTimer = none
              ∧ t.keys = s.keys ∧ LineRequested u t))
      ∧ (rating s = true → s.call.state ≠ .awaitDeposit →
          ∃ u, OnlyChanges [.coin, .call, .vault, .incd] s u ∧ LinkKept s u ∧ u.coin = coin
            ∧ u.call = { s.call with openSlot := some slot } ∧ u.vault.counters = s.vault.counters
            ∧ (s.rate.acct.due = 0 → t.rate = { s.rate with phase := warnPhase t } ∧ t.coin = coin
                ∧ t.call = phaseTold s.rate.phase (warnPhase t) s.now u.call ∧ OnlyChanges [.call, .rate] u t)
            ∧ (0 < s.rate.acct.due → SettlementRuns u t)))
    ∧ (let coin := { s.coin with
          transit := none, unconfirmed := min 2 (s.coin.unconfirmed + 1)
          inletFault := s.coin.inletFault || decide (1 ≤ s.coin.unconfirmed) }
       let slot := sl.modify (fun r => { r with unconfirmed := r.unconfirmed + 1 })
       let incd := if 1 ≤ s.coin.unconfirmed ∧ s.coin.inletFault = false then (countOccurrence .inletJam s).incd
          else s.incd
       ∃ t, exec .confirmationWindowEnd s = .next t ∧ LinkKept s t ∧ t.now = max s.now x.windowEnd
        ∧ (rating s = false →
            t.coin = coin ∧ t.call = { s.call with openSlot := some slot } ∧ t.incd = incd
            ∧ OnlyChanges [.now, .coin, .call, .incd] s t)
        ∧ (rating s = true →
            ∃ u, OnlyChanges [.now, .coin, .call, .incd] s u ∧ LinkKept s u ∧ u.now = t.now ∧ u.coin = coin
              ∧ u.call = { s.call with openSlot := some slot } ∧ u.incd = incd
              ∧ (s.rate.acct.due = 0 → t.rate = { s.rate with phase := warnPhase t } ∧ t.coin = coin
                  ∧ t.call = phaseTold s.rate.phase (warnPhase t) t.now u.call ∧ OnlyChanges [.call, .rate] u t)
              ∧ (0 < s.rate.acct.due → SettlementRuns u t)))

/-- R70: a report of the entry sensor with no coin in transit, of the vault sensor outside a COLLECT stroke, or of the
return sensor outside a REFUND stroke is stray: a COIN notice, and nothing else. The bytes of the notice follow
notes/assumptions 12. -/
def Obligations.StrayReportsChangeNothing : Prop :=
  ∀ s : State, alive s = true →
    (s.coin.transit = none → ∃ t, exec .entrySensor s = .next t ∧ LinkKept s t
      ∧ Posted [⟨.coin, coinNotice (.stray 0) s⟩] s t ∧ t.body = s.body)
    ∧ (s.coin.mover ≠ .collecting → ∃ t, exec .vaultSensor s = .next t ∧ LinkKept s t
      ∧ Posted [⟨.coin, coinNotice (.stray 1) s⟩] s t ∧ t.body = s.body)
    ∧ (s.coin.mover ≠ .refunding → ∃ t, exec .returnSensor s = .next t ∧ LinkKept s t
      ∧ Posted [⟨.coin, coinNotice (.stray 2) s⟩] s t ∧ t.body = s.body)

/-- R69, R79, R80: the jam line asserted for a second faults the inlet, once; a reversal pulse locks the inlet out for
60 s, counts CHUTE_REVERSAL and marks the coins of the last two seconds suspect; the lockout's end ends the condition. -/
def Obligations.InletFaultsAndLockouts : Prop :=
  ∀ s : State, alive s = true →
    (s.pins.jam = false → ∃ t, exec .jamLineAsserted s = .next t ∧ LinkKept s t ∧ Posted [] s t
      ∧ t.body = { s with pins := { s.pins with jam := true },
                          coin := { s.coin with jamTimer := some (s.now + 1000) } }.body)
    ∧ (∃ t, exec .jamLineReleased s = .next t ∧ LinkKept s t ∧ Posted [] s t
      ∧ t.body = { s with pins := { s.pins with jam := false }, coin := { s.coin with jamTimer := none } }.body)
    ∧ (∀ d, s.coin.jamTimer = some d → ∃ t, exec .jamLineTimeout s = .next t ∧ LinkKept s t
      ∧ t.body = { s with
          now := max s.now d
          coin := { s.coin with jamTimer := none, inletFault := true }
          incd := if s.coin.inletFault = true then s.incd else (countOccurrence .inletJam s).incd }.body)
    ∧ (∃ t, exec .reversalPulse s = .next t ∧ LinkKept s t
      ∧ t.coin = { s.coin with
          lockoutTimer := some (s.now + 60000)
          escrow := s.coin.escrow.map (fun e =>
            if e.entryAt.any (fun i => decide (s.now - i ≤ 2000)) = true then { e with suspect := true } else e)
          transit := s.coin.transit.map (fun x =>
            if s.now - x.acceptAt ≤ 2000 then { x with suspect := true } else x) }
      ∧ t.incd = (countOccurrence .chuteReversal s).incd ∧ OnlyChanges [.coin, .incd, .call] s t)
    ∧ (∀ d, s.coin.lockoutTimer = some d → ∃ t, exec .lockoutExpiry s = .next t ∧ LinkKept s t
      ∧ t.body = { s with
          now := max s.now d
          coin := { s.coin with lockoutTimer := none }
          incd := (endCondition .chuteReversal s).incd }.body)

/-- R74, R75, R77, R78, R81, R85, R91, R92: what ends a stroke. A COLLECT that the vault sensor confirms leaves the
escrow, is counted by the vault and credited to the account, which settles when U covers due; a held FOLLOW-ON press
then takes effect (R21). A REFUND that the return sensor confirms is counted as refunded in its record, and the run
strokes the next coin; after the last one the record is stored and CLEARING left (R18), the record in the closing slot
before that in the open slot (R17). A blind stroke is replied with whether a coin passed, and one of the purge is
followed by the next, up to the thirteenth. A stroke with no report within its time is jammed: the escrow is
OUT_OF_ORDER, what is left of it is stranded into its record, and a call that waited for a COLLECT ends with
ESCROW_FAULT. In a record that reaches the log, the rounding of the connected duration (notes/assumptions 51), its 0
where the end lies before the answer (70) and the log's mark of the record handed to it (45) are the model's. That
each coin of a run is counted into the record at its own outcome, where R16 and R77 copy the values when the escrow is
empty, is the model's (notes/assumptions 18), and so is that a coin found counted at a start is not counted again, and the
count of the coins gone (97); so is the replacement remembered at a hook-on that ended the call (19). -/
def Obligations.StrokesEndAtTheirSensors : Prop :=
  ∀ s : State, alive s = true →
    (∀ e rest n, s.coin.mover = .collecting → s.coin.blind = false → s.coin.escrow = e :: rest →
      e.moving = some (.collect, n) → Undisturbed s → rating s = true →
      0 < s.rate.acct.due → s.rate.acct.due ≤ s.rate.acct.unused + e.value →
      (let acct := { s.rate.acct with
          collected := s.rate.acct.collected + e.value, charged := s.rate.acct.charged + s.rate.acct.due,
          unused := s.rate.acct.unused + e.value - s.rate.acct.due, due := 0, last := some e.value }
       let coin := { s.coin with escrow := rest, gone := s.coin.gone + 1, mover := .idle, exitTimer := none }
       (s.call.heldFollowOn = false → ∃ t, exec .vaultSensor s = .next t ∧ LinkKept s t ∧ t.coin = coin
          ∧ t.vault.counters = countedIn e s.vault.counters
          ∧ t.vault.lastStroke = some n ∧ t.call.lastCredited = some n ∧ t.rate.acct = acct
          ∧ t.rate.phase = warnPhase t ∧ OnlyChanges [.coin, .vault, .rate, .call, .incd] s t)
       ∧ (∀ sl, s.call.heldFollowOn = true → s.call.state = .connected → s.call.openSlot = some sl →
          s.store.log.records.length < 64 →
          ∃ t u, exec .vaultSensor s = .next t ∧ OnlyChanges [.coin, .vault, .rate, .call, .incd] s u ∧ LinkKept s u
            ∧ u.coin = coin ∧ u.vault.counters = countedIn e s.vault.counters
            ∧ u.rate = { s.rate with acct := acct, phase := u.rate.phase, graceTimer := none, graceExpired := false }
            ∧ FollowOnEnded u t sl)))
    ∧ (∀ e e2 rest sl, s.coin.mover = .refunding → s.coin.blind = false → s.coin.escrow = e :: e2 :: rest →
      s.coin.run = .callEnd → s.coin.order = .inOrder → s.coin.report = false → s.call.openSlot = some sl →
      sl.complete = false → s.call.closingSlot = none → s.call.atStart = [] → s.rate = RateBlock.inactive →
      s.call.refundAsked = true →
      ∃ t, exec .returnSensor s = .next t ∧ LinkKept s t
        ∧ t.coin = { s.coin with
            escrow := { e2 with moving := some (.refund, s.coin.strokeNo) } :: rest, gone := s.coin.gone + 1
            exitTimer := some (s.now + 800)
            tally := { s.coin.tally with refunded :=
              ⟨s.coin.tally.refunded.coins + 1, s.coin.tally.refunded.value + e.value⟩ } }
        ∧ t.call.openSlot = some (sl.modify (fun r => { r with
            refunded := ⟨r.refunded.coins + (stillCounts e).coins, r.refunded.value + (stillCounts e).value⟩ }))
        ∧ t.vault.counters = s.vault.counters ∧ OnlyChanges [.coin, .vault, .call, .incd] s t)
    ∧ (∀ e, s.coin.mover = .refunding → s.coin.escrow = [e] → s.coin.order = .inOrder →
      (let coin := { s.coin with
          escrow := [], gone := s.coin.gone + 1, mover := .idle, exitTimer := none, run := .none
          tally := { s.coin.tally with refunded :=
            ⟨s.coin.tally.refunded.coins + 1, s.coin.tally.refunded.value + e.value⟩ } }
       let back (sl : Slot) := sl.modify (fun r => { r with
          refunded := ⟨r.refunded.coins + (stillCounts e).coins, r.refunded.value + (stillCounts e).value⟩ })
       (∀ sl, CallClearing s sl →
          ∃ t, exec .returnSensor s = .next t ∧ LinkKept s t ∧ t.coin = coin
            ∧ LogTook [back sl] s.store.log t ∧ ClearingLeft s.call.replaced s t ∧ t.vault.counters = s.vault.counters
            ∧ OnlyChanges [.coin, .vault, .call, .keys, .log, .incd] s t)
       ∧ (∀ first, s.coin.run = .callEnd → s.coin.blind = false → s.coin.report = false →
          s.call.closingSlot = some first → first.complete = false → s.call.atStart = [] → s.rate.closing = false →
          s.rate.phase ≠ .ended → s.store.log.records.length < 63 →
          (s.call.state ≠ .clearing → ∃ t, exec .returnSensor s = .next t ∧ LinkKept s t ∧ t.coin = coin
            ∧ LogTook [back first] s.store.log t ∧ t.call = { s.call with closingSlot := none }
            ∧ t.vault.counters = s.vault.counters ∧ OnlyChanges [.coin, .vault, .call, .log, .incd] s t)
          ∧ (∀ sl, s.call.state = .clearing → s.call.openSlot = some sl → sl.complete = false →
              s.call.refundAsked = false → s.rate = RateBlock.inactive → s.coin.transit = none →
              ∃ t, exec .returnSensor s = .next t ∧ LinkKept s t ∧ t.coin = { coin with tally := {} }
                ∧ LogTook [back first, sl] s.store.log t ∧ t.call.closingSlot = none
                ∧ ClearingLeft s.call.replaced s t ∧ t.vault.counters = s.vault.counters
                ∧ OnlyChanges [.coin, .vault, .call, .keys, .log, .incd] s t))))
    ∧ (∀ k, s.coin.blind = true → s.coin.run = .none → s.link.outstanding = some k → Undisturbed s →
      (s.coin.mover = .refunding → ∃ t, exec .returnSensor s = .next t ∧ Answered (k + 0x80) [0, 1] s t
        ∧ t.body = { s with coin := { s.coin with mover := .idle, exitTimer := none, blind := false } }.body)
      ∧ (s.coin.mover = .collecting → ∃ t, exec .vaultSensor s = .next t ∧ Answered (k + 0x80) [0, 1] s t
        ∧ t.coin = { s.coin with mover := .idle, exitTimer := none, blind := false }
        ∧ t.vault.counters = { s.vault.counters with
            unknown := s.vault.counters.unknown + 1, total := s.vault.counters.total + 1 }
        ∧ OnlyChanges [.coin, .vault, .incd] s t)
      ∧ (∀ d, s.coin.exitTimer = some d → ∃ t, exec .exitTimerExpiry s = .next t ∧ Answered (k + 0x80) [0, 0] s t
        ∧ Posted [] s t
        ∧ t.body = { s with now := max s.now d,
                            coin := { s.coin with mover := .idle, exitTimer := none, blind := false } }.body))
    ∧ (s.coin.run = .purge → s.coin.blind = true → s.coin.mover = .refunding → s.call.atStart = [] →
      s.call.closingSlot = none → s.call.state ≠ .clearing → s.coin.report = false → s.rate = RateBlock.inactive →
      (s.coin.purgeStrokes < 13 → ∃ t, exec .returnSensor s = .next t ∧ LinkKept s t
        ∧ t.body = { s with coin := { s.coin with
            exitTimer := some (s.now + 800), purgeStrokes := s.coin.purgeStrokes + 1
            purgeCount := s.coin.purgeCount.map (· + 1) } }.body)
      ∧ (13 ≤ s.coin.purgeStrokes → ∃ t, exec .returnSensor s = .next t ∧ LinkKept s t
        ∧ t.coin = { s.coin with
            escrow := [], gone := s.coin.gone + s.coin.escrow.length, order := .outOfOrder, mover := .idle
            exitTimer := none, blind := false, run := .none
            purgeCount := s.coin.purgeCount.map (· + 1) }
        ∧ t.incd = (countOccurrence .escrowJam s).incd ∧ OnlyChanges [.coin, .incd] s t)
      ∧ (∀ d, s.coin.exitTimer = some d → ∃ t, exec .exitTimerExpiry s = .next t ∧ LinkKept s t ∧ Posted [] s t
        ∧ t.body = { s with now := max s.now d, coin := { s.coin with
            escrow := [], gone := s.coin.gone + s.coin.escrow.length, mover := .idle, exitTimer := none
            blind := false, run := .none } }.body))
    ∧ (∀ d e rest, s.coin.exitTimer = some d → s.coin.blind = false → s.coin.escrow = e :: rest →
      (let jam (sl : Slot) := sl.modify (fun r => { r with
          jammed := ⟨r.jammed.coins + (stillCounts e).coins, r.jammed.value + (stillCounts e).value⟩ })
       let sum := uncountedSum rest
       let coin := { s.coin with
          escrow := rest, gone := s.coin.gone + 1, order := .outOfOrder, mover := .idle, exitTimer := none }
       (∀ sl, s.coin.mover = .refunding → CallClearing s sl →
          ∃ t, exec .exitTimerExpiry s = .next t ∧ LinkKept s t ∧ t.now = max s.now d
            ∧ t.coin = { allStranded { coin with tally := { s.coin.tally with
                jammed := ⟨s.coin.tally.jammed.coins + 1, s.coin.tally.jammed.value + e.value⟩ } } with run := .none }
            ∧ LogTook [(jam sl).modify (fun r => { r with stranded := r.stranded.add sum })] s.store.log t
            ∧ ClearingLeft s.call.replaced s t ∧ t.vault.counters = s.vault.counters
            ∧ (∃ x ∈ t.incd.map, x.kind = .escrowJam ∧ x.active = true)
            ∧ OnlyChanges [.now, .coin, .vault, .call, .keys, .log, .incd] s t)
       ∧ (∀ sl, s.coin.mover = .collecting → Undisturbed s → rating s = true → s.rate.acct.unused < s.rate.acct.due →
          s.coin.transit = none → s.call.openSlot = some sl → s.store.log.records.length < 64 →
          ∃ t u, exec .exitTimerExpiry s = .next t ∧ OnlyChanges [.now, .coin, .call, .vault, .incd] s u ∧ LinkKept s u
            ∧ u.now = max s.now d ∧ u.coin = coin ∧ u.call = { s.call with openSlot := some (jam sl) }
            ∧ u.vault.counters = s.vault.counters ∧ (∃ x ∈ u.incd.map, x.kind = .escrowJam ∧ x.active = true)
            ∧ RatedCallEnded .escrowFault u.now u t (jam sl))))

/-! ### Rating and the clock -/

/-- R95, R97, R102, R182: a period's end starts the next period at that instant, in the band and at the rate found
then (PeriodStarted): at rate 0 until the next switch point, with no step; and charges its step when U covers what is
due; when it does not, settlement waits as R91 tests 2 to 6 say, or ends the call with ESCROW_FAULT or CREDIT_OUT.
While an absence of loop current is being timed the step is held, and no settlement runs for it (R96); when current
returns, the held steps are taken together, each period's counted as started (R90). The supervision timer's expiry starts a local period of its own in METER_FALLBACK; the grace timer's expiry
in SETTLING sets the mark, and in GRACE ends the call with CREDIT_OUT, its account closed into the record and the
escrow refunded, or stranded when OUT_OF_ORDER. The clock's tick adds a second, until the end of 2099. In a record
that reaches the log, the rounding of the connected duration (notes/assumptions 51), its 0 where the end lies before
the answer (70) and the log's mark of the record handed to it (45) are the model's; so is what counts as the handset
replaced in CLEARING (19). -/
def Obligations.RatingTimersAndTheClock : Prop :=
  (∀ s : State, alive s = true →
    (∀ p n cls, s.rate.period = some p → rating s = true → timesPeriods s.rate.mode = true → s.rate.bank = some n →
      s.rate.cls = some cls →
      ∃ t, exec .periodEnd s = .next t ∧ t.now = max s.now p.endAt
        ∧ PeriodStarted (some p) p.endAt n cls { s with now := max s.now p.endAt } t)
    ∧ (∀ d n cls, s.rate.superTimer = some d → rating s = true → s.rate.bank = some n → s.rate.cls = some cls →
      ∃ t, exec .supervisionTimeout s = .next t ∧ t.now = max s.now d
        ∧ PeriodStarted none d n cls { s with
            now := max s.now d
            rate := { s.rate with
              mode := some .meterFallback, superTimer := none, fallbackUsed := true
              flags := { s.rate.flags with pulseFallback := true } } } t)
    ∧ (∀ since, watchRuns s.line = true → s.line.absentSince = some since → s.rate.held ≠ [] →
      ∃ t, exec .loopCurrentPresent s = .next t
        ∧ (let u := { s with
              pins := { s.pins with loopCurrent := true }
              line := { s.line with armed := true, absentSince := none }
              rate := { s.rate with
                held := [], periods := s.rate.periods + (s.rate.held.filter HeldStep.period).length
                acct := { s.rate.acct with due := s.rate.acct.due + (s.rate.held.map HeldStep.amount).sum } } }
           (rating s = false ∨ u.rate.acct.due = 0 → t.rate = u.rate ∧ OnlyChanges [.pins, .line, .rate] s t)
           ∧ (rating s = true → 0 < u.rate.acct.due → SettlementRuns u t)))
    ∧ (∀ d sl, s.rate.graceTimer = some d → s.rate.phase = .grace → RatedCall s sl →
      ∃ t, exec .graceTimerExpiry s = .next t
        ∧ (let u := { s with now := max s.now d, rate := { s.rate with graceTimer := none } }
           (s.coin.escrow = [] ∨ s.coin.order = .outOfOrder → RatedCallEnded .creditOut (max s.now d) u t sl)
           ∧ ∀ e rest, s.coin.escrow = e :: rest → s.coin.order = .inOrder →
              RatedCallClears .creditOut (max s.now d) u t sl e rest))
    ∧ (∀ d, s.rate.graceTimer = some d → s.rate.phase = .settling →
      ∃ t, exec .graceTimerExpiry s = .next t ∧ LinkKept s t ∧ Posted [] s t
        ∧ t.body = { s with now := max s.now d, rate := { s.rate with graceTimer := none, graceExpired := true } }.body))
  ∧ ∀ s : State, ∃ t, exec .clockTick s = .next t ∧ t.now = max s.now s.store.nextTick
      ∧ t.store.nextTick = s.store.nextTick + 1000
      ∧ t.store.clock = (match s.store.clock with
          | some c => if c + 1 < 3155760000 then some (c + 1) else none
          | none => none)
      ∧ OnlyChanges [.now, .clock] s t

/-! ### Service visits and incidents -/

/-- R129 to R134: the service key, the two doors and the service grace timer. A door opened outside SERVICE, or left
open at the grace timer's expiry, is an occurrence of its urgent kind; it ends with cause INCIDENT (R15) a call that
nothing holds back, in COLLECTING, AWAIT_DEPOSIT, WAIT_LINE, SEIZING, SENDING or RINGING and not of kind EMERGENCY,
and ends no other call. RPT takes it as the start of its count of failed attempts, and a backoff wait with more than 2
min left is set to 2 min and written (R166). The log's mark of the record handed to it is the model's own
(notes/assumptions 45). The collection number that follows 4294967295 is 1 by the model's choice (notes/assumptions
55), and so is the vault door's occurrence before the housing's at the expiry (74); the bytes of SERVICE follow 12. -/
def Obligations.KeyAndDoorsMoveTheServiceState : Prop :=
  ∀ s : State, alive s = true → s.store.start.switchesRead = true →
    (s.vault.keyOn = false → ∃ t, exec .keyOn s = .next t ∧ LinkKept s t
      ∧ t.vault = { s.vault with
          keyOn := true, service := .service, graceTimer := none, vaultGrace := false, housingGrace := false
          progress := if s.vault.vaultOpen = true ∧ s.vault.progress = none then some s.store.clock
            else s.vault.progress }
      ∧ OnlyChanges [.vault, .pins, .samplers] s t)
    ∧ (s.vault.keyOn = true → ∃ t, exec .keyOff s = .next t ∧ LinkKept s t
      ∧ t.vault = (if s.vault.vaultOpen = true ∨ s.vault.housingOpen = true then
            { s.vault with keyOn := false, service := .serviceGrace, graceTimer := some (s.now + 60000),
                           vaultGrace := s.vault.vaultOpen, housingGrace := s.vault.housingOpen }
          else { s.vault with keyOn := false, service := .normal, graceTimer := none, vaultGrace := false,
                              housingGrace := false })
      ∧ Posted [⟨.service, serviceNotice .keyOff t⟩] s t ∧ OnlyChanges [.vault, .pins, .samplers] s t)
    ∧ (s.vault.vaultOpen = false → ∃ t, exec .vaultDoorOpened s = .next t ∧ LinkKept s t
      ∧ (s.vault.service = .service → OnlyChanges [.vault, .pins, .samplers] s t
          ∧ t.vault = { s.vault with vaultOpen := true, progress := some (s.vault.progress.getD s.store.clock) })
      ∧ (s.vault.service ≠ .service → urgentEnds s.call.state (openKind s) = false →
          t.vault = { s.vault with vaultOpen := true } ∧ t.incd = (countOccurrence .vaultForced s).incd
          ∧ t.body.rpt = { s with rpt := rptUrged s.now s.rpt }.body.rpt ∧ t.call = s.call
          ∧ OnlyChanges [.vault, .pins, .samplers, .incd, .rpt] s t)
      ∧ (∀ sl, s.vault.service ≠ .service → urgentEnds s.call.state (openKind s) = true → BareCall s sl →
          ∃ u, u.vault = { s.vault with vaultOpen := true } ∧ u.incd = (countOccurrence .vaultForced s).incd
            ∧ u.body.rpt = { s with rpt := rptUrged s.now s.rpt }.body.rpt
            ∧ OnlyChanges [.vault, .pins, .samplers, .incd, .rpt] s u ∧ LinkKept s u
            ∧ CallEnded .incident s.now u t sl))
    ∧ (s.vault.housingOpen = false → ∃ t, exec .housingDoorOpened s = .next t ∧ LinkKept s t
      ∧ (s.vault.service = .service → OnlyChanges [.vault, .pins, .samplers] s t
          ∧ t.vault = { s.vault with housingOpen := true })
      ∧ (s.vault.service ≠ .service → urgentEnds s.call.state (openKind s) = false →
          t.vault = { s.vault with housingOpen := true } ∧ t.incd = (countOccurrence .housingForced s).incd
          ∧ t.body.rpt = { s with rpt := rptUrged s.now s.rpt }.body.rpt ∧ t.call = s.call
          ∧ OnlyChanges [.vault, .pins, .samplers, .incd, .rpt] s t)
      ∧ (∀ sl, s.vault.service ≠ .service → urgentEnds s.call.state (openKind s) = true → BareCall s sl →
          ∃ u, u.vault = { s.vault with housingOpen := true } ∧ u.incd = (countOccurrence .housingForced s).incd
            ∧ u.body.rpt = { s with rpt := rptUrged s.now s.rpt }.body.rpt
            ∧ OnlyChanges [.vault, .pins, .samplers, .incd, .rpt] s u ∧ LinkKept s u
            ∧ CallEnded .incident s.now u t sl))
    ∧ (s.vault.vaultOpen = true → ∃ t, exec .vaultDoorClosed s = .next t ∧ LinkKept s t
      ∧ t.vault.vaultOpen = false ∧ t.vault.progress = none
      ∧ t.vault.service = (if s.vault.service = .serviceGrace ∧ s.vault.housingOpen = false then .normal
          else s.vault.service)
      ∧ (s.vault.progress = none → t.incd = (endCondition .vaultForced s).incd ∧ t.vault.counters = s.vault.counters
          ∧ t.vault.number = s.vault.number ∧ t.vault.last = s.vault.last)
      ∧ (∀ opened, s.vault.progress = some opened → t.vault.counters = {} ∧ t.vault.number = nextNumber s.vault.number
          ∧ t.vault.last = some ⟨t.vault.number, opened, s.store.clock, s.vault.counters,
              if s.vault.service = .normal then .inNormal else .inService⟩)
      ∧ OnlyChanges [.vault, .pins, .samplers, .incd] s t)
    ∧ (s.vault.housingOpen = true → ∃ t, exec .housingDoorClosed s = .next t ∧ LinkKept s t
      ∧ t.vault.housingOpen = false ∧ t.vault.counters = s.vault.counters ∧ t.vault.progress = s.vault.progress
      ∧ t.vault.service = (if s.vault.service = .serviceGrace ∧ s.vault.vaultOpen = false then .normal
          else s.vault.service)
      ∧ t.incd = (endCondition .housingForced s).incd ∧ OnlyChanges [.vault, .pins, .samplers, .incd] s t)
    ∧ (∀ d, s.vault.graceTimer = some d → s.vault.service = .serviceGrace →
      urgentEnds s.call.state (openKind s) = false →
      ∃ t, exec .graceExpired s = .next t ∧ LinkKept s t ∧ t.now = max s.now d
        ∧ t.vault = { s.vault with
            service := .normal, graceTimer := none, vaultGrace := false, housingGrace := false }
        ∧ (s.vault.vaultGrace = false → s.vault.housingGrace = false → t.incd = s.incd)
        ∧ (s.vault.vaultGrace = true → s.vault.housingGrace = false →
            t.incd = (countOccurrence .vaultForced s).incd)
        ∧ (s.vault.vaultGrace = false → s.vault.housingGrace = true →
            t.incd = (countOccurrence .housingForced s).incd)
        ∧ (s.vault.vaultGrace = true → s.vault.housingGrace = true →
            t.incd = (countOccurrence .housingForced (countOccurrence .vaultForced s)).incd)
        ∧ t.body.rpt = (if s.vault.vaultGrace = true ∨ s.vault.housingGrace = true then
            { s with rpt := rptUrged t.now s.rpt }.body.rpt else s.body.rpt)
        ∧ OnlyChanges [.now, .vault, .incd, .rpt] s t)
    ∧ (∀ d sl, s.vault.graceTimer = some d → s.vault.service = .serviceGrace →
      s.vault.vaultGrace = true ∨ s.vault.housingGrace = true →
      urgentEnds s.call.state (openKind s) = true → BareCall s sl →
      ∃ t u, exec .graceExpired s = .next t ∧ OnlyChanges [.now, .vault, .incd, .rpt] s u ∧ LinkKept s u
        ∧ u.now = max s.now d
        ∧ u.body.rpt = { s with rpt := rptUrged u.now s.rpt }.body.rpt
        ∧ u.vault = { s.vault with
            service := .normal, graceTimer := none, vaultGrace := false, housingGrace := false }
        ∧ CallEnded .incident u.now u t sl)

/-- R139, R141, R143 to R147: the cord loop and the shock sensor, and what an occurrence and the end of a condition
make of the incident map. The bytes of the INCIDENT notice follow notes/assumptions 12. -/
def Obligations.OccurrencesAndConditionEnds : Prop :=
  (∀ s : State, alive s = true →
    (s.incd.cordOpen = some false → ∃ t, exec .cordLoopOpen s = .next t ∧ LinkKept s t
      ∧ t.incd = { (countOccurrence .cordCut s).incd with cordOpen := some true }
      ∧ OnlyChanges [.incd, .pins, .samplers] s t)
    ∧ (s.incd.cordOpen = some true → ∃ t, exec .cordLoopClosed s = .next t ∧ LinkKept s t
      ∧ t.incd = { (endCondition .cordCut s).incd with cordOpen := some false }
      ∧ OnlyChanges [.incd, .pins, .samplers] s t)
    ∧ ∃ t, exec .shockPulse s = .next t ∧ LinkKept s t ∧ OnlyChanges [.incd] s t
      ∧ ((s.incd.window.filter (fun i => decide (s.now - i ≤ 10000))).length < 2 → Posted [] s t
          ∧ t.incd = { s.incd with window := s.incd.window.filter (fun i => decide (s.now - i ≤ 10000)) ++ [s.now] })
      ∧ (2 ≤ (s.incd.window.filter (fun i => decide (s.now - i ≤ 10000))).length →
          t.incd = { (countOccurrence .shock s).incd with window := [] }))
  ∧ ∀ (k : IncidentKind) (s : State),
    (findIncident k s.incd.map = none →
      (endCondition k s) = s
      ∧ (countOccurrence k s).incd.map
          = insertIncident ⟨k, s.store.clock, s.store.clock, 1, 0, !momentary k⟩ s.incd.map)
    ∧ ∀ e, findIncident k s.incd.map = some e →
      (e.active = false → endCondition k s = s)
      ∧ (e.active = true → e.reported < e.count →
          endCondition k s = post .incident (incidentNotice { e with active := false } .ended)
            (setMap (insertIncident { e with active := false } s.incd.map) s))
      ∧ (e.active = true → e.count ≤ e.reported →
          endCondition k s = post .incident (incidentNotice { e with active := false } .removed)
            (setMap (s.incd.map.filter (fun x => decide (x.kind ≠ k))) s))
      ∧ (e.count < 999 → (countOccurrence k s).incd.map = insertIncident { e with
            count := e.count + 1, last := s.store.clock, active := !momentary k || e.active } s.incd.map)
      ∧ (999 ≤ e.count → (countOccurrence k s).incd.map = insertIncident { e with
            last := s.store.clock, active := !momentary k || e.active,
            reported := if e.reported = 999 then 998 else e.reported } s.incd.map)
end

