-- ==== Sys2Proof/Laws/Ops.lean ====
section
/-! SUPPORT. One lemma for each shared operation of `Machine/Ops.lean`: what it can do, and what it leaves alone. -/

namespace Sys2Proof.Machine

/-! ### Notices -/

/-- R194, R195: posting changes the notice queue and the notice-lost flag, and nothing else. -/
theorem post_eq (k : NoticeKind) (p : List Byte) (s : State) :
    post k p s = { s with link := { s.link with
      notices := if maskedKind s k = true then s.link.notices else (enqueueNotice ⟨k, p⟩ s.link.notices).1
      noticeLost := if maskedKind s k = true then s.link.noticeLost
        else s.link.noticeLost || (enqueueNotice ⟨k, p⟩ s.link.notices).2 } } := by
  unfold post; split <;> rfl

@[simp] theorem post_body (k : NoticeKind) (p : List Byte) (s : State) : (post k p s).body = s.body := by
  rw [post_eq]; rfl

@[simp] theorem post_config (k p) (s : State) : (post k p s).config = s.config := by rw [post_eq]
@[simp] theorem post_tx (k p) (s : State) : (post k p s).link.tx = s.link.tx := by rw [post_eq]
@[simp] theorem post_reply (k p) (s : State) : (post k p s).link.reply = s.link.reply := by rw [post_eq]
@[simp] theorem post_outstanding (k p) (s : State) : (post k p s).link.outstanding = s.link.outstanding := by
  rw [post_eq]
@[simp] theorem post_turn (k p) (s : State) : (post k p s).link.turn = s.link.turn := by rw [post_eq]

/-- R194: the queue never grows past 32. -/
theorem enqueueNotice_length (n : Notice) (q : List Notice) (h : q.length ≤ 32) :
    (enqueueNotice n q).1.length ≤ 32 := by
  have hr : ∀ q, (replaceNotice n q).length = q.length := by
    intro q; induction q with
    | nil => rfl
    | cons m ms ih => simp only [replaceNotice]; split <;> simp_all
  have hd : ∀ q q', dropCoalescible q = some q' → q'.length + 1 = q.length := by
    intro q; induction q with
    | nil => intro q' h; simp [dropCoalescible] at h
    | cons m ms ih =>
      intro q' h
      simp only [dropCoalescible] at h
      split at h
      · cases h; rfl
      · cases hm : dropCoalescible ms with
        | none => simp [hm] at h
        | some r => simp [hm] at h; subst h; have := ih r hm; simp; omega
  unfold enqueueNotice
  split
  · simpa [hr] using h
  · split
    · simp; omega
    · split
      · exact h
      · split
        · next q' hq => have := hd q q' hq; simp; omega
        · exact h

/-! ### Time -/

/-- A timer's expiry moves the time to the instant the timer was set for, never back, and touches nothing else. -/
theorem reach_eq (t : Option Nat) (s : State) : reach t s = { s with now := max s.now (t.getD 0) } := by
  cases t <;> simp [reach]

/-! ### Retained areas (R178) -/

/-- R178: after a write, the newest sound copy holds the contents written. -/
theorem Area.write_holds {α : Type} [DecidableEq α] (x : Area α) (c : α) : (x.write c).Holds c := by
  unfold Area.write Area.Holds
  split
  · simp [Area.newest, Area.both]
  · next n hn =>
    split
    · next hc => simp [hn, hc]
    · next hc =>
      have key : ∀ one two : Copy α, one.sound = true → two.sound = true → one.generation < two.generation →
          (Area.mk one two).newest = some two := by
        intro one two h1 h2 h3; simp [Area.newest, h1, h2, h3]
      split
      · next h =>
        have h1 : x.one.sound = true := by simp at h; exact h.1
        have h2 : n = x.one := by simp at h; exact h.2
        rw [key] <;> simp [h1, h2]
      · next h =>
        have hn2 : n = x.two ∧ x.two.sound = true := by
          unfold Area.newest at hn
          split at hn
          · next h1 =>
            split at hn
            · next h2 => simp at hn h2; exact ⟨hn.symm, h2.1⟩
            · simp [h1] at h; simp at hn; exact absurd hn.symm h
          · split at hn
            · next h2 => simp at hn; exact ⟨hn.symm, h2⟩
            · simp at hn
        simp [Area.newest, hn2.1, hn2.2]

/-- The newest sound copy is one of the two, and sound. -/
theorem Area.newest_cases {α : Type} {x : Area α} {n : Copy α} (h : x.newest = some n) :
    (n = x.one ∧ x.one.sound = true) ∨ (n = x.two ∧ x.two.sound = true) := by
  unfold Area.newest at h
  split at h
  · next h1 =>
    split at h
    · next h2 => simp at h h2; exact .inr ⟨h.symm, h2.1⟩
    · simp at h; exact .inl ⟨h.symm, h1⟩
  · split at h
    · next h2 => simp at h; exact .inr ⟨h.symm, h2⟩
    · simp at h

/-- R124, R178: of two writes of one step, a loss of power that cuts the second off leaves what the first one wrote. -/
theorem Area.tear_second_write {α : Type} [DecidableEq α] (x : Area α) (c d : α) (h : c ≠ d) :
    ((x.write c).write d).tear.newest.map Copy.contents = some c := by
  have hc := Area.write_holds x c
  generalize x.write c = y at hc ⊢
  obtain ⟨n, hn, rfl⟩ : ∃ n, y.newest = some n ∧ n.contents = c := by
    unfold Area.Holds at hc
    cases hy : y.newest with
    | none => simp [hy] at hc
    | some n => exact ⟨n, rfl, by simpa [hy] using hc⟩
  unfold Area.write
  rw [hn]
  dsimp only
  rw [if_neg h]
  split
  · next h1 =>
    simp at h1
    have hne : y.one.contents ≠ d := h1.2 ▸ h
    simp [Area.tear, Area.newest, h1.1, h1.2, hne]
  · next h1 =>
    obtain ⟨rfl, h2⟩ | ⟨rfl, h2⟩ := Area.newest_cases hn
    · simp [h2] at h1
    · have hne : d ≠ y.two.contents := fun e => h e.symm
      simp [Area.tear, Area.newest, h2, hne]

/-- A write keeps a property that both copies and the contents written have. -/
theorem Area.write_all {α : Type} [DecidableEq α] (P : α → Prop) (x : Area α) (c : α) (hx : x.All P) (hc : P c) :
    (x.write c).All P := by
  unfold Area.write
  split
  · exact ⟨fun _ => hc, fun _ => hc⟩
  · split
    · exact hx
    · split
      · exact ⟨hx.1, fun _ => hc⟩
      · exact ⟨fun _ => hc, hx.2⟩

/-! ### The end of a step -/

@[simp] theorem rptFollow_body (s : State) : (rptFollow s).body = s.body := by
  unfold rptFollow; split
  · next h => split <;> simp [State.body, ReportState.atRest, h]
  · next h => split <;> simp [State.body, ReportState.atRest, h]
  · rfl

@[simp] theorem guardFollow_body (s : State) : (guardFollow s).body = s.body := rfl

@[simp] theorem creditFollow_body (s0 s : State) : (creditFollow s0 s).body = s.body := by
  unfold creditFollow; split <;> simp

@[simp] theorem commit_body (s : State) : (commit s).body = s.body := rfl

@[simp] theorem pump_body (s : State) : (pump s).body = s.body := by
  unfold pump; split
  · rfl
  · split
    · rfl
    · split
      · rfl
      · split <;> rfl

/-- The end of a step touches nothing but the retained copies, the transmitter and its queues, and RPT's follow. -/
@[simp] theorem finish_body (s0 s : State) : (finish s0 s).body = s.body := by simp [finish]

/-- What two states with one body agree on, part by part. -/
theorem same_of_body {s t : State} (h : t.body = s.body) (p : Part) : p.same s t := by
  have g : ∀ {α : Type} (f : State → α), f t.body = f s.body := fun f => by rw [h]
  cases p
  case clock => exact ⟨g (fun x => x.store.clock), g (fun x => x.store.nextTick)⟩
  case log => exact g (fun x => x.store.log)
  case marker => exact g (fun x => x.store.marker)
  case start => exact g (fun x => x.store.start)
  case rpt => exact g State.rpt
  case input => exact g State.link
  case pending => exact g State.pending
  case now => exact g State.now
  case ties => exact g State.ties
  case raised => exact g State.raised
  case power => exact g State.power
  case pins => exact g State.pins
  case samplers => exact g State.samplers
  case config => exact g State.config
  case call => exact g State.call
  case keys => exact g State.keys
  case line => exact g State.line
  case coin => exact g State.coin
  case rate => exact g State.rate
  case bank => exact g State.bank
  case vault => exact g State.vault
  case incd => exact g State.incd

theorem finish_pending (s0 s : State) : (finish s0 s).pending = s.pending := same_of_body (finish_body s0 s) .pending
theorem finish_now (s0 s : State) : (finish s0 s).now = s.now := same_of_body (finish_body s0 s) .now
theorem finish_power (s0 s : State) : (finish s0 s).power = s.power := same_of_body (finish_body s0 s) .power
theorem finish_config (s0 s : State) : (finish s0 s).config = s.config := same_of_body (finish_body s0 s) .config
theorem finish_call (s0 s : State) : (finish s0 s).call = s.call := same_of_body (finish_body s0 s) .call
theorem finish_keys (s0 s : State) : (finish s0 s).keys = s.keys := same_of_body (finish_body s0 s) .keys
theorem finish_line (s0 s : State) : (finish s0 s).line = s.line := same_of_body (finish_body s0 s) .line
theorem finish_coin (s0 s : State) : (finish s0 s).coin = s.coin := same_of_body (finish_body s0 s) .coin
theorem finish_rate (s0 s : State) : (finish s0 s).rate = s.rate := same_of_body (finish_body s0 s) .rate
theorem finish_bank (s0 s : State) : (finish s0 s).bank = s.bank := same_of_body (finish_body s0 s) .bank
theorem finish_vault (s0 s : State) : (finish s0 s).vault = s.vault := same_of_body (finish_body s0 s) .vault
theorem finish_incd (s0 s : State) : (finish s0 s).incd = s.incd := same_of_body (finish_body s0 s) .incd
theorem finish_log (s0 s : State) : (finish s0 s).store.log = s.store.log := same_of_body (finish_body s0 s) .log

/-! The parts of the state the earlier stages of `finish` leave as they are. -/

@[simp] theorem rptFollow_link (s : State) : (rptFollow s).link = s.link := by
  unfold rptFollow; split
  · split <;> rfl
  · split <;> rfl
  · rfl
@[simp] theorem guardFollow_link (s : State) : (guardFollow s).link = s.link := rfl
@[simp] theorem commit_link (s : State) : (commit s).link = s.link := rfl

/-- The end of a step never makes or loses a command, and never places a reply. -/
theorem finish_outstanding (s0 s : State) : (finish s0 s).link.outstanding = s.link.outstanding := by
  have hp : ∀ s : State, (pump s).link.outstanding = s.link.outstanding := by
    intro s; unfold pump; split
    · rfl
    · split
      · rfl
      · split
        · rfl
        · split <;> rfl
  have hc : ∀ s1 s : State, (creditFollow s1 s).link.outstanding = s.link.outstanding := by
    intro s1 s; unfold creditFollow; split <;> simp
  simp [finish, hp, hc]

/-- The end of a step leaves the frame in turn alone. -/
theorem finish_turn (s0 s : State) : (finish s0 s).link.turn = s.link.turn := by
  have hp : ∀ s : State, (pump s).link.turn = s.link.turn := by
    intro s; unfold pump; split
    · rfl
    · split
      · rfl
      · split
        · rfl
        · split <;> rfl
  have hc : ∀ s1 s : State, (creditFollow s1 s).link.turn = s.link.turn := by
    intro s1 s; unfold creditFollow; split <;> simp
  simp [finish, hp, hc]

theorem creditFollow_tx (s0 s : State) : (creditFollow s0 s).link.tx = s.link.tx := by
  unfold creditFollow; split <;> simp

theorem creditFollow_reply (s0 s : State) : (creditFollow s0 s).link.reply = s.link.reply := by
  unfold creditFollow; split <;> simp

theorem creditFollow_power (s0 s : State) : (creditFollow s0 s).power = s.power :=
  same_of_body (creditFollow_body s0 s) .power

/-- R196: a frame being sent is not interrupted, and the waiting reply waits on. -/
theorem pump_busy (s : State) (h : s.link.tx.isSome = true) : pump s = s := by
  unfold pump; cases htx : s.link.tx <;> simp_all

theorem finish_busy (s0 s : State) (h : s.link.tx.isSome = true) :
    (finish s0 s).link.tx = s.link.tx ∧ (finish s0 s).link.reply = s.link.reply := by
  unfold finish
  rw [pump_busy _ (by simpa [creditFollow_tx] using h)]
  simp [creditFollow_tx, creditFollow_reply]

/-- R189, R196: a reply placed in the slot is sent at once by an IDLE transmitter, and waits otherwise. -/
theorem finish_answered (s0 s u : State) (kind : Byte) (p : List Byte) (htx : u.link.tx = s.link.tx)
    (hr : u.link.reply = some ⟨kind, p⟩) (ho : u.link.outstanding = none) : Answered kind p s (finish s0 u) := by
  refine ⟨by rw [finish_outstanding, ho], ?_⟩
  cases h : s.link.tx with
  | some x =>
    have := finish_busy s0 u (by rw [htx, h]; rfl)
    simp [this.1, this.2, htx, hr, h]
  | none =>
    have hn := finish_now s0 u
    simp only [finish] at hn ⊢
    unfold pump at hn ⊢
    simp only [commit_link, creditFollow_tx, creditFollow_reply, guardFollow_link, rptFollow_link, htx, h, hr] at hn ⊢
    simp only [startSending] at hn ⊢
    exact ⟨trivial, trivial⟩

/-- R189, R196: what is not a host command leaves the outstanding command, the frame in turn and the frame being sent
alone. -/
theorem finish_linkKept (s0 s u : State) (ho : u.link.outstanding = s.link.outstanding)
    (ht : u.link.turn = s.link.turn) (htx : u.link.tx = s.link.tx)
    (hr : u.link.reply = s.link.reply) : LinkKept s (finish s0 u) := by
  refine ⟨by rw [finish_outstanding, ho], by rw [finish_turn, ht], fun h => ?_⟩
  have := finish_busy s0 u (by rw [htx]; exact h)
  rw [this.1, this.2, htx, hr]; exact ⟨rfl, rfl⟩

/-- R88: the account's notice is posted only at a change. -/
theorem creditFollow_same (s0 s : State) (hp : s0.rate.phase = s.rate.phase) (hk : creditKey s0 = creditKey s) :
    creditFollow s0 s = s := by
  unfold creditFollow; simp [hp, hk]

theorem creditKey_follow (s : State) : creditKey (guardFollow (rptFollow s)) = creditKey s := by
  unfold rptFollow; split
  · split <;> rfl
  · split <;> rfl
  · rfl

theorem rptFollow_rate (s : State) : (rptFollow s).rate = s.rate := same_of_body (rptFollow_body s) .rate

/-- With the account as it was, the end of a step posts nothing of its own. -/
theorem creditFollow_quiet (s0 s : State) (hp : s0.rate.phase = s.rate.phase) (hk : creditKey s0 = creditKey s) :
    creditFollow s0 (guardFollow (rptFollow s)) = guardFollow (rptFollow s) :=
  creditFollow_same _ _ (by rw [hp]; show _ = (rptFollow s).rate.phase; rw [rptFollow_rate])
    (by rw [creditKey_follow, hk])

/-- The notices a step posts are those its effect posts, and an IDLE transmitter takes the head (R196). -/
theorem finish_posted (ns : List Notice) (s0 s u : State) (htx : u.link.tx = s.link.tx)
    (hn : u.link.notices = (ns.foldl (fun x n => post n.kind n.payload x) s).link.notices)
    (hl : u.link.noticeLost = (ns.foldl (fun x n => post n.kind n.payload x) s).link.noticeLost)
    (hp : s0.rate.phase = u.rate.phase) (hk : creditKey s0 = creditKey u) : Posted ns s (finish s0 u) := by
  unfold finish
  rw [creditFollow_quiet _ _ hp hk]
  unfold pump Posted
  simp only [commit_link, guardFollow_link, rptFollow_link, htx]
  cases h : s.link.tx with
  | some x => simp [hn, hl]
  | none =>
    simp only
    cases hr : u.link.reply with
    | some r => simp [hn, hl]
    | none =>
      simp only
      cases hq : u.link.notices with
      | nil => simp [← hn, hl, hq]
      | cons n rest =>
        simp only
        by_cases hh : (commit (guardFollow (rptFollow u))).power = .halted
        · simp only [hh, if_true]; simp [← hn, hl, hq]
        · simp only [hh, if_false]
          refine ⟨hl, Or.inr ⟨trivial, n, ?_⟩⟩
          rw [← hn, hq]
          exact ⟨_, rfl, rfl⟩

/-! ### Taking a host command (R189, R190) -/

/-- The state in which a taken command's owner decides: the command is outstanding (R189). -/
def State.took (kind : Byte) (s : State) : State :=
  { s with link := { s.link with turn := false, outstanding := some kind } }

/-- R189: what LINK takes now. -/
theorem linkTakes_iff (s : State) : linkTakes s.link = true ↔ Takes s := by
  simp [linkTakes, linkReady, Takes, and_assoc]

/-- R189: LINK, ready, takes a sound frame's command. -/
theorem takeCommand_ready (kind : Byte) (p : List Byte) (f : State → State) (s : State) (ha : alive s = true)
    (ht : Takes s) : takeCommand kind p f s = finish s (f (s.took kind)) := by
  have hl : linkTakes s.link = true := (linkTakes_iff s).2 ht
  simp only [takeCommand, ha, hl, if_true]; rfl

/-- R189, R190: outside a start, LINK hands a taken command to its owner, or answers LENGTH. -/
theorem hostCommand_ready {α : Type} (kind : Byte) (p : List Byte) (args : List Byte → Option α)
    (f : α → State → State) (s : State) (h : Ready s) :
    hostCommand kind p args f s = finish s (match args p with
      | none => respond kind .length [] (s.took kind)
      | some a => f a (s.took kind)) := by
  obtain ⟨h1, h2⟩ := h
  have ha : alive s = true := by simp [alive, h1]
  have hl : linkTakes s.link = true := (linkTakes_iff s).2 h2
  simp only [hostCommand, takeCommand, ha, hl, if_true, ownerRule, State.took, h1]
  congr 1

/-- A reply is the whole effect, when the owner changes nothing: the command is answered and no other part of the state
changes (R190). -/
theorem finish_respond (kind : Byte) (r : Result) (b : List Byte) (s : State) :
    Answered (replyKind kind) (le1 r.code ++ b) s (finish s (respond kind r b (s.took kind)))
      ∧ Posted [] s (finish s (respond kind r b (s.took kind)))
      ∧ (finish s (respond kind r b (s.took kind))).body = s.body :=
  ⟨finish_answered _ _ _ _ _ rfl rfl rfl, finish_posted _ _ _ _ rfl rfl rfl rfl rfl, by rw [finish_body]; rfl⟩

/-! The result codes as bytes (R190). -/

@[simp] theorem le1_ok : le1 Result.ok.code = [0] := rfl
@[simp] theorem le1_busy : le1 Result.busy.code = [1] := rfl
@[simp] theorem le1_state : le1 Result.state.code = [2] := rfl
@[simp] theorem le1_range : le1 Result.range.code = [3] := rfl
@[simp] theorem le1_unknown : le1 Result.unknown.code = [4] := rfl
@[simp] theorem le1_length : le1 Result.length.code = [5] := rfl
@[simp] theorem le1_service : le1 Result.service.code = [6] := rfl
@[simp] theorem le1_full : le1 Result.full.code = [7] := rfl
@[simp] theorem le1_check : le1 Result.check.code = [8] := rfl
@[simp] theorem le1_none : le1 Result.none.code = [9] := rfl
@[simp] theorem le1_frame : le1 Result.frame.code = [10] := rfl

@[simp] theorem respond_body (kind : Byte) (r : Result) (b : List Byte) (s : State) :
    (respond kind r b s).body = s.body := rfl

@[simp] theorem placeReply_body (kind : Byte) (p : List Byte) (s : State) : (placeReply kind p s).body = s.body := rfl

@[simp] theorem took_body (kind : Byte) (s : State) : (s.took kind).body = s.body := rfl

/-- A host command's end: the effect has made `v`, and the reply is placed. The command is answered, the notices posted
are those of the effect, and the rest of the state is the effect's. -/
theorem finish_replied (kind : Byte) (r : Result) (b : List Byte) (ns : List Notice) (s v : State)
    (htx : v.link.tx = s.link.tx)
    (hn : v.link.notices = (ns.foldl (fun x n => post n.kind n.payload x) s).link.notices)
    (hl : v.link.noticeLost = (ns.foldl (fun x n => post n.kind n.payload x) s).link.noticeLost)
    (hp : s.rate.phase = v.rate.phase) (hk : creditKey s = creditKey v) :
    Answered (replyKind kind) (le1 r.code ++ b) s (finish s (respond kind r b v))
      ∧ Posted ns s (finish s (respond kind r b v)) ∧ (finish s (respond kind r b v)).body = v.body :=
  ⟨finish_answered _ _ _ _ _ htx rfl rfl, finish_posted _ _ _ _ htx hn hl hp hk, by rw [finish_body]; rfl⟩

/-- What reads neither the link nor its queues. -/
@[simp] theorem creditKey_link (s : State) (l : LinkBlock) : creditKey { s with link := l } = creditKey s := rfl

/-- An answered command leaves the notices where they are: an IDLE transmitter takes the reply (R196). -/
theorem notices_of_answered {kind : Byte} {p : List Byte} {ns : List Notice} {s t : State} (ha : Answered kind p s t)
    (hp : Posted ns s t) : t.link.notices = (ns.foldl (fun x n => post n.kind n.payload x) s).link.notices := by
  rcases hp.2 with h | ⟨h1, n, e, h2, h3⟩
  · exact h
  · have h4 := ha.2
    rw [h1] at h4
    simp only at h4
    rw [h4.2] at h3
    simp at h3

/-- R178: after a step's end every newest copy holds the retained state. -/
theorem finish_copies (s0 s : State) : CopiesCurrent (finish s0 s) := by
  intro _
  have h : ∀ s : State, (pump s).store = s.store ∧ (pump s).config = s.config ∧ callArea (pump s) = callArea s
      ∧ coinArea (pump s) = coinArea s ∧ (pump s).bank = s.bank ∧ vaultArea (pump s) = vaultArea s
      ∧ (pump s).incd = s.incd ∧ rptArea (pump s) = rptArea s := by
    intro s; unfold pump; split
    · simp
    · split
      · exact ⟨rfl, rfl, rfl, rfl, rfl, rfl, rfl, rfl⟩
      · split
        · simp
        · split <;> exact ⟨rfl, rfl, rfl, rfl, rfl, rfl, rfl, rfl⟩
  unfold finish
  obtain ⟨h1, h2, h3, h4, h5, h6, h7, h8⟩ := h (commit (creditFollow s0 (guardFollow (rptFollow s))))
  rw [h1, h2, h3, h4, h5, h6, h7, h8]
  exact ⟨Area.write_holds _ _, Area.write_holds _ _, Area.write_holds _ _, Area.write_holds _ _, Area.write_holds _ _,
    Area.write_holds _ _, Area.write_holds _ _, Area.write_holds _ _, Area.write_holds _ _, rfl⟩

/-! ### What a loss of power cuts off (R74, R178) -/

/-- R178: the areas of the latest writing step are those it changed; a step that changes none leaves the list. -/
theorem commit_written (s : State) : (commit s).store.areas.written =
    if changedAreas s = [] then s.store.areas.written else changedAreas s := rfl

/-- R178: a write is cut off exactly when the latest writing step made it, and it or one before it was under way. -/
theorem mem_cutWrites {torn : List AreaName} {s : State} {a : AreaName} : a ∈ cutWrites torn s ↔
    a ∈ s.store.areas.written
      ∧ (a ∈ torn ∨ ∃ b ∈ writtenBefore s a, b ∈ s.store.areas.written ∧ b ∈ torn) := by
  simp [cutWrites]

/-- R74: a loss of power in VAULT's write of a confirmed COLLECT leaves COIN's list as it was, the head MOVING. -/
theorem coin_cut_with_vault {torn : List AreaName} {s : State} (hv : AreaName.vault ∈ s.store.areas.written)
    (hc : AreaName.coin ∈ s.store.areas.written) (ht : AreaName.vault ∈ torn) : AreaName.coin ∈ cutWrites torn s :=
  mem_cutWrites.2 ⟨hc, .inr ⟨.vault, by simp [writtenBefore, hv], hv, ht⟩⟩

/-- R2, R19: a loss of power in CALL's write of a step leaves COIN's list too as it was, so that no coin leaves the list or
joins it that the record has not counted. -/
theorem coin_cut_with_call {torn : List AreaName} {s : State} (hv : AreaName.call ∈ s.store.areas.written)
    (hc : AreaName.coin ∈ s.store.areas.written) (ht : AreaName.call ∈ torn) : AreaName.coin ∈ cutWrites torn s :=
  mem_cutWrites.2 ⟨hc, .inr ⟨.call, by simp [writtenBefore], hv, ht⟩⟩

/-! ### The polarity judged (R57) -/

@[simp] theorem judgedPolarity_present {s : State} (h : s.pins.loopCurrent = true) :
    judgedPolarity s = s.pins.polarity := by simp [judgedPolarity, h]

@[simp] theorem judgedPolarity_absent {s : State} (h : s.pins.loopCurrent = false) :
    judgedPolarity s = s.line.polaritySeen := by simp [judgedPolarity, h]

end Sys2Proof.Machine
end

