-- ==== Sys2Proof/Laws/Frames.lean ====
section
/-! SUPPORT. One lemma for each shared operation of the blocks: the parts of the state it may change (`OnlyChanges`),
chained with `OnlyChanges.step`. -/

namespace Sys2Proof.Machine

theorem OnlyChanges.refl {l : List Part} {s : State} : OnlyChanges l s s := by
  intro p _; cases p <;> first | rfl | exact ⟨rfl, rfl⟩

/-- Two steps in a row, the second within the parts of the whole. -/
theorem OnlyChanges.step {l m : List Part} {s t u : State} (h : OnlyChanges l s t) (g : OnlyChanges m t u)
    (hm : m ⊆ l) : OnlyChanges l s u := by
  intro p hp
  have h1 := h p hp
  have h2 := g p (fun hp2 => hp (hm hp2))
  cases p <;> first | exact Eq.trans h2 h1 | exact ⟨h2.1.trans h1.1, h2.2.trans h1.2⟩

theorem OnlyChanges.wider {l m : List Part} {s t : State} (h : OnlyChanges l s t) (hm : l ⊆ m) : OnlyChanges m s t :=
  fun p hp => h p (fun hq => hp (hm hq))

/-- A state with the same body has changed no part. -/
theorem only_of_body {l : List Part} {s t : State} (h : t.body = s.body) : OnlyChanges l s t :=
  fun p _ => same_of_body h p

theorem only_finish {l : List Part} {s0 s t : State} (h : OnlyChanges l s t) : OnlyChanges l s (finish s0 t) :=
  h.step (only_of_body (l := []) (finish_body s0 t)) (by simp)

section updates
variable {l : List Part} {s t : State}

theorem only_now {c} (h : OnlyChanges l s t) (hl : .now ∈ l) : OnlyChanges l s { t with now := c } := by
  intro p hp; have h2 := h p hp; cases p <;> first | exact h2 | exact absurd hl hp
theorem only_call {c} (h : OnlyChanges l s t) (hl : .call ∈ l) : OnlyChanges l s { t with call := c } := by
  intro p hp; have h2 := h p hp; cases p <;> first | exact h2 | exact absurd hl hp
theorem only_keys {c} (h : OnlyChanges l s t) (hl : .keys ∈ l) : OnlyChanges l s { t with keys := c } := by
  intro p hp; have h2 := h p hp; cases p <;> first | exact h2 | exact absurd hl hp
theorem only_line {c} (h : OnlyChanges l s t) (hl : .line ∈ l) : OnlyChanges l s { t with line := c } := by
  intro p hp; have h2 := h p hp; cases p <;> first | exact h2 | exact absurd hl hp
theorem only_coin {c} (h : OnlyChanges l s t) (hl : .coin ∈ l) : OnlyChanges l s { t with coin := c } := by
  intro p hp; have h2 := h p hp; cases p <;> first | exact h2 | exact absurd hl hp
theorem only_rate {c} (h : OnlyChanges l s t) (hl : .rate ∈ l) : OnlyChanges l s { t with rate := c } := by
  intro p hp; have h2 := h p hp; cases p <;> first | exact h2 | exact absurd hl hp
theorem only_bank {c} (h : OnlyChanges l s t) (hl : .bank ∈ l) : OnlyChanges l s { t with bank := c } := by
  intro p hp; have h2 := h p hp; cases p <;> first | exact h2 | exact absurd hl hp
theorem only_vault {c} (h : OnlyChanges l s t) (hl : .vault ∈ l) : OnlyChanges l s { t with vault := c } := by
  intro p hp; have h2 := h p hp; cases p <;> first | exact h2 | exact absurd hl hp
theorem only_incd {c} (h : OnlyChanges l s t) (hl : .incd ∈ l) : OnlyChanges l s { t with incd := c } := by
  intro p hp; have h2 := h p hp; cases p <;> first | exact h2 | exact absurd hl hp
theorem only_rpt {c} (h : OnlyChanges l s t) (hl : .rpt ∈ l) : OnlyChanges l s { t with rpt := c } := by
  intro p hp; have h2 := h p hp; cases p <;> first | exact h2 | exact absurd hl hp
theorem only_log {c} (h : OnlyChanges l s t) (hl : .log ∈ l) :
    OnlyChanges l s { t with store := { t.store with log := c } } := by
  intro p hp; have h2 := h p hp; cases p <;> first | exact h2 | exact absurd hl hp

end updates

variable {s : State}

theorem only_post {l : List Part} {k p} {t : State} (h : OnlyChanges l s t) : OnlyChanges l s (post k p t) :=
  h.step (only_of_body (l := []) (post_body k p t)) (by simp)

theorem only_reach {d} : OnlyChanges [.now] s (reach d s) := by
  cases d with
  | none => exact OnlyChanges.refl
  | some d => exact only_now .refl (by decide)

/-! ### INCD -/

theorem setMap_only {m} : OnlyChanges [.incd] s (setMap m s) := only_incd .refl (by decide)

theorem countOccurrence_only {k} : OnlyChanges [.incd] s (countOccurrence k s) := only_post setMap_only

theorem settleEntry_only {e c} : OnlyChanges [.incd] s (settleEntry e c s) := by
  unfold settleEntry; split <;> exact only_post setMap_only

theorem clearActive_only {k c} : OnlyChanges [.incd] s (clearActive k c s) := by
  unfold clearActive; split
  · exact .refl
  · split
    · exact settleEntry_only
    · exact .refl

theorem endCondition_only {k} : OnlyChanges [.incd] s (endCondition k s) := clearActive_only
theorem readAbsent_only {k} : OnlyChanges [.incd] s (readAbsent k s) := clearActive_only

theorem acknowledge_only {k n} : OnlyChanges [.incd] s (acknowledge k n s) := by
  unfold acknowledge; split
  · exact .refl
  · exact settleEntry_only

/-! ### LINE -/

theorem setWatch_only {w} : OnlyChanges [.line] s (setWatch w s) := only_post (only_line .refl (by decide))

theorem abandonVoltageReading_only : OnlyChanges [.line, .start, .incd] s (abandonVoltageReading s) := by
  unfold abandonVoltageReading; split
  · exact .refl
  · refine OnlyChanges.step ?_ readAbsent_only (by decide)
    intro p hp; cases p <;> first | rfl | exact ⟨rfl, rfl⟩ | exact absurd (by decide) hp

theorem seize_only {o d} : OnlyChanges [.line, .start, .incd] s (seize o d s) :=
  only_line abandonVoltageReading_only (by decide)

theorem requestSeizure_only {o d} : OnlyChanges [.line, .start, .incd] s (requestSeizure o d s).1 := by
  unfold requestSeizure; split
  · split
    · exact .refl
    · exact seize_only
  · exact .refl
  · exact .refl

theorem release_only : OnlyChanges [.line] s (release s) := by
  unfold release; split
  · exact only_line .refl (by decide)
  · exact .refl

theorem endingReport_only : OnlyChanges [.line] s (endingReport s) := only_line .refl (by decide)
theorem beginSending_only : OnlyChanges [.line] s (beginSending s) := only_line .refl (by decide)
theorem enterSeized_only : OnlyChanges [.line] s (enterSeized s) := only_line .refl (by decide)

theorem sendInBand_only {d} : OnlyChanges [.line] s (sendInBand d s) := by
  unfold sendInBand; split
  · exact only_line .refl (by decide)
  · exact .refl

/-! ### BANK -/

theorem setBank_only {n b} : OnlyChanges [.bank] s (setBank n b s) := only_bank .refl (by decide)
theorem moveBank_only {n b c} : OnlyChanges [.bank] s (moveBank n b c s) := only_post setBank_only

theorem openBank_only {n d} : OnlyChanges [.bank] s (openBank n d s) := by
  unfold openBank; dsimp only; split
  · exact setBank_only
  · exact setBank_only.step moveBank_only (by decide)

theorem displace_only {n} : OnlyChanges [.bank] s (displace n s) := by
  unfold displace; split
  · exact moveBank_only
  · exact .refl

theorem activate_only {n} : OnlyChanges [.bank] s (activate n s) :=
  (displace_only.step setBank_only (by decide)).step moveBank_only (by decide)

theorem judgeActivation_only : OnlyChanges [.bank] s (judgeActivation s) := by
  unfold judgeActivation; split
  · exact .refl
  · split
    · exact .refl
    · split
      · exact activate_only
      · exact .refl

theorem writeBank_only {n} : OnlyChanges [] s (writeBank n s) := by
  intro p hp; cases p <;> first | rfl | exact ⟨rfl, rfl⟩

theorem scheduleBank_only {n w} : OnlyChanges [.bank] s (scheduleBank n w s) :=
  ((setBank_only.step moveBank_only (by decide)).step writeBank_only (by decide)).step judgeActivation_only (by decide)

theorem setInUse_only {n v} : OnlyChanges [.bank] s (setInUse n v s) := by
  cases n <;> exact only_bank .refl (by decide)

theorem clearInUse_only {n} : OnlyChanges [.bank] s (clearInUse n s) := by
  unfold clearInUse; dsimp only; split
  · exact setInUse_only.step moveBank_only (by decide)
  · exact setInUse_only

/-! ### VAULT -/

theorem fullFollow_only : OnlyChanges [.vault, .incd] s (fullFollow s) := by
  unfold fullFollow; dsimp only; split
  · exact .refl
  · split
    · split
      · exact (only_vault .refl (by decide)).step countOccurrence_only (by decide)
      · exact (only_vault .refl (by decide)).step endCondition_only (by decide)
    · exact only_vault .refl (by decide)

theorem nearFollow_only : OnlyChanges [.vault] s (nearFollow s) := by
  unfold nearFollow; dsimp only; split
  · exact .refl
  · exact only_post (only_vault .refl (by decide))

theorem vaultRefresh_only : OnlyChanges [.vault, .incd] s (vaultRefresh s) :=
  fullFollow_only.step nearFollow_only (by decide)

theorem startCollection_only : OnlyChanges [.vault] s (startCollection s) := by
  unfold startCollection; split
  · exact .refl
  · exact only_post (only_vault .refl (by decide))

theorem completeCollection_only {c} : OnlyChanges [.vault, .incd] s (completeCollection c s) := by
  unfold completeCollection; split
  · exact .refl
  · exact only_post (only_post ((only_vault .refl (by decide)).step vaultRefresh_only (by decide)))

/-! ### COIN -/

theorem setOpen_only {o} : OnlyChanges [.call] s (setOpen o s) := only_call .refl (by decide)
theorem modifyOpen_only {f} : OnlyChanges [.call] s (modifyOpen f s) := setOpen_only

theorem modifyOwnerSlot_only {g} : OnlyChanges [.call] s (modifyOwnerSlot g s) := by
  unfold modifyOwnerSlot; split
  · exact only_call .refl (by decide)
  · split
    · split
      · exact .refl
      · exact setOpen_only
    · exact only_call .refl (by decide)

theorem modifyOwner_only {f} : OnlyChanges [.call] s (modifyOwner f s) := modifyOwnerSlot_only
theorem beginStroke_only {k} : OnlyChanges [.coin] s (beginStroke k s) := only_coin .refl (by decide)
theorem beginBlind_only {k} : OnlyChanges [.coin] s (beginBlind k s) := only_coin .refl (by decide)
theorem restMover_only : OnlyChanges [.coin] s (restMover s) := only_coin .refl (by decide)
theorem dropHead_only : OnlyChanges [.coin] s (dropHead s) := only_coin .refl (by decide)
theorem emptyList_only : OnlyChanges [.coin] s (emptyList s) := only_coin .refl (by decide)
theorem endRun_only : OnlyChanges [.coin] s (endRun s) := only_coin .refl (by decide)

theorem strand_only : OnlyChanges [.coin, .call, .vault, .incd] s (strand s) := by
  unfold strand; split
  · exact .refl
  · exact only_post ((only_coin ((modifyOwner_only.wider (by decide)).step emptyList_only (by decide)) (by decide)).step
      vaultRefresh_only (by decide))

theorem runStep_only : OnlyChanges [.coin, .call, .vault, .incd] s (runStep s) := by
  have h : OnlyChanges [.coin, .call, .vault, .incd] s
      (if s.coin.order = .outOfOrder then endRun (strand s) else if s.coin.escrow.isEmpty then endRun s
        else if s.coin.mover ≠ .idle then s else beginStroke .refund s) := by
    split
    · exact strand_only.step endRun_only (by decide)
    · split
      · exact endRun_only.wider (by decide)
      · split
        · exact .refl
        · exact beginStroke_only.wider (by decide)
  unfold runStep; split <;> first | exact h | exact .refl

theorem startRun_only {r} : OnlyChanges [.coin, .call, .vault, .incd] s (startRun r s) :=
  (only_coin .refl (by decide)).step runStep_only (by decide)

theorem escrowFails_only : OnlyChanges [.coin, .incd] s (escrowFails s) :=
  (only_coin .refl (by decide)).step countOccurrence_only (by decide)

theorem refundHead_only {e} : OnlyChanges [.coin, .call, .vault, .incd] s (refundHead e s) :=
  only_post ((only_coin (((restMover_only.wider (by decide)).step dropHead_only (by decide)).step modifyOwner_only
    (by decide)) (by decide)).step vaultRefresh_only (by decide))

theorem jamHead_only {e k} : OnlyChanges [.coin, .call, .vault, .incd] s (jamHead e k s) :=
  only_post (((only_coin (((restMover_only.wider (by decide)).step dropHead_only (by decide)).step modifyOwner_only
    (by decide)) (by decide)).step vaultRefresh_only (by decide)).step escrowFails_only (by decide))

theorem vaultCounts_only {d v n} : OnlyChanges [.vault] s (vaultCounts d v n s) :=
  only_vault (only_vault .refl (by decide)) (by decide)

theorem collectHead_only {e n} : OnlyChanges [.coin, .vault, .incd] s (collectHead e n s) :=
  only_post ((((restMover_only.wider (by decide)).step dropHead_only (by decide)).step vaultCounts_only
    (by decide)).step vaultRefresh_only (by decide))

theorem markRecent_only : OnlyChanges [.coin, .call] s (markRecent s) := by
  unfold markRecent; dsimp only; split
  · exact only_coin .refl (by decide)
  · exact (only_coin .refl (by decide)).step modifyOwner_only (by decide)

/-! ### RATE -/

theorem setAcct_only {a} : OnlyChanges [.rate] s (setAcct a s) := only_rate .refl (by decide)
theorem charge_only {v} : OnlyChanges [.rate] s (charge v s) := setAcct_only

theorem tellPhase_only {p} : OnlyChanges [.call] s (tellPhase p s) := by
  cases p
  case grace => exact only_call (only_call .refl (by decide)) (by decide)
  all_goals exact only_call .refl (by decide)

theorem setPhase_only {p} : OnlyChanges [.rate, .call] s (setPhase p s) := by
  unfold setPhase; split
  · exact .refl
  · exact (only_rate .refl (by decide)).step tellPhase_only (by decide)

theorem warningTest_only : OnlyChanges [.rate, .call] s (warningTest s) := setPhase_only

theorem completeSettlement_only : OnlyChanges [.rate, .call] s (completeSettlement s) :=
  (only_rate .refl (by decide)).step warningTest_only (by decide)

theorem enterGrace_only : OnlyChanges [.rate, .call] s (enterGrace s).1 := by
  unfold enterGrace; split
  · exact .refl
  · exact (only_rate .refl (by decide)).step setPhase_only (by decide)

theorem settle_only : OnlyChanges [.rate, .call, .coin] s (settle s).1 := by
  unfold settle; split
  · exact completeSettlement_only.wider (by decide)
  · split
    · exact setPhase_only.wider (by decide)
    · split
      · exact (beginStroke_only.wider (by decide)).step setPhase_only (by decide)
      · split
        · exact setPhase_only.wider (by decide)
        · split
          · exact .refl
          · exact enterGrace_only.wider (by decide)

theorem settleDue_only : OnlyChanges [.rate, .call, .coin] s (settleDue s).1 := by
  unfold settleDue; split
  · exact settle_only
  · exact .refl

theorem settleStep_only : OnlyChanges [.rate, .call, .coin] s (settleStep s).1 := by
  unfold settleStep; split
  · exact .refl
  · exact settleDue_only

theorem coinOutcome_only : OnlyChanges [.rate, .call, .coin] s (coinOutcome s).1 := by
  unfold coinOutcome; split
  · split
    · exact settle_only
    · exact warningTest_only.wider (by decide)
  · exact .refl

theorem takeSteps_only {d} : OnlyChanges [.rate] s (takeSteps d s) :=
  (only_rate .refl (by decide)).step charge_only (by decide)

theorem takeOrHold_only {h} : OnlyChanges [.rate] s (takeOrHold h s) := by
  unfold takeOrHold; split
  · exact only_rate .refl (by decide)
  · exact takeSteps_only

theorem startPeriod_only {p t} : OnlyChanges [.rate] s (startPeriod p t s) := by
  unfold startPeriod; split
  · exact (only_rate .refl (by decide)).step takeOrHold_only (by decide)
  · exact only_rate .refl (by decide)

theorem armSupervision_only : OnlyChanges [.rate] s (armSupervision s) := only_rate .refl (by decide)

theorem beginSupervision_only {n c} : OnlyChanges [.rate] s (beginSupervision n c s) :=
  (only_rate .refl (by decide)).step armSupervision_only (by decide)

theorem openAccount_only {c n p k b} : OnlyChanges [.rate, .bank] s (openAccount c n p k b s) :=
  ((only_rate .refl (by decide)).step setInUse_only (by decide)).step takeOrHold_only (by decide)

theorem firstPulse_only {b g} : OnlyChanges [.rate] s (firstPulse b g s) := by
  unfold firstPulse; split
  · exact (only_rate .refl (by decide)).step charge_only (by decide)
  · exact .refl

theorem startAccount_only {c n p k b g} : OnlyChanges [.rate, .call, .coin, .bank] s (startAccount c n p k b g s).1 := by
  unfold startAccount; dsimp only; split
  · exact ((openAccount_only.wider (by decide)).step startPeriod_only (by decide)).step settle_only (by decide)
  · exact (((openAccount_only.wider (by decide)).step beginSupervision_only (by decide)).step firstPulse_only
      (by decide)).step settle_only (by decide)

theorem countPulse_only {g} : OnlyChanges [.rate] s (countPulse g s) := only_rate .refl (by decide)

theorem absorbPulse_only : OnlyChanges [.rate] s (absorbPulse s) :=
  (only_rate .refl (by decide)).step armSupervision_only (by decide)

theorem takePulse_only {g} : OnlyChanges [.rate, .call, .coin] s (takePulse g s).1 := by
  unfold takePulse; split
  · dsimp only; split
    · exact (((countPulse_only.wider (by decide)).step charge_only (by decide)).step armSupervision_only (by decide)).step
        settleDue_only (by decide)
    · exact (countPulse_only.wider (by decide)).step absorbPulse_only (by decide)
    · exact countPulse_only.wider (by decide)
    · exact countPulse_only.wider (by decide)
  · exact .refl

theorem fallBack_only {t} : OnlyChanges [.rate, .call, .coin] s (fallBack t s).1 :=
  ((only_rate .refl (by decide)).step startPeriod_only (by decide)).step settleStep_only (by decide)

theorem creditCollected_only {v n} : OnlyChanges [.rate, .call, .coin] s (creditCollected v n s).1 := by
  unfold creditCollected
  have h : OnlyChanges [.rate, .call, .coin] s
      (settleDue { setAcct (s.rate.acct.credit v) s with
        call := { (setAcct (s.rate.acct.credit v) s).call with lastCredited := some n } }).1 :=
    (only_call (setAcct_only.wider (by decide)) (by decide)).step settleDue_only (by decide)
  split <;> first | exact .refl | exact h

theorem clearSteps_only : OnlyChanges [.rate] s (clearSteps s) := only_rate .refl (by decide)

theorem takeHeld_only : OnlyChanges [.rate, .call, .coin] s (takeHeld s).1 := by
  unfold takeHeld; split
  · exact .refl
  · exact ((clearSteps_only.wider (by decide)).step takeSteps_only (by decide)).step settleDue_only (by decide)

theorem accountEnded_only : OnlyChanges [.rate, .call, .bank] s (accountEnded s) := by
  unfold accountEnded; dsimp only; split
  · exact (only_rate (setPhase_only.wider (by decide)) (by decide)).step clearInUse_only (by decide)
  · exact only_rate (setPhase_only.wider (by decide)) (by decide)

theorem beginClose_only {t} : OnlyChanges [.rate] s (beginClose t s) :=
  (only_rate .refl (by decide)).step takeSteps_only (by decide)

theorem tryClose_only : OnlyChanges [.rate, .call, .bank] s (tryClose s) := by
  unfold tryClose; split
  · exact accountEnded_only
  · exact .refl

theorem copyClosed_only : OnlyChanges [.rate, .call] s (copyClosed s) := by
  unfold copyClosed; split
  · exact only_rate (modifyOpen_only.wider (by decide)) (by decide)
  · exact .refl

theorem closeForFollowOn_only : OnlyChanges [.rate, .call, .bank] s (closeForFollowOn s) :=
  (only_rate .refl (by decide)).step accountEnded_only (by decide)

/-! ### RPT -/

theorem leaveAttempt_only : OnlyChanges [.line, .rpt] s (leaveAttempt s) :=
  only_rpt (release_only.wider (by decide)) (by decide)

theorem restState_only : OnlyChanges [.rpt] s (restState s) := only_rpt .refl (by decide)

theorem completeAttempt_only : OnlyChanges [.line, .rpt] s (completeAttempt s) :=
  only_post ((only_rpt leaveAttempt_only (by decide)).step restState_only (by decide))

theorem startWait_only {d} : OnlyChanges [.rpt] s (startWait d s) := only_rpt .refl (by decide)

theorem failAttempt_only {f} : OnlyChanges [.line, .rpt] s (failAttempt f s) :=
  only_post ((only_rpt leaveAttempt_only (by decide)).step startWait_only (by decide))

theorem abortAttempt_only {c} : OnlyChanges [.line, .rpt] s (abortAttempt c s) := by
  unfold abortAttempt; split
  · exact only_post (leaveAttempt_only.step restState_only (by decide))
  · exact .refl

theorem endWait_only : OnlyChanges [.rpt] s (endWait s) := (only_rpt .refl (by decide)).step restState_only (by decide)

theorem shortenWait_only : OnlyChanges [.rpt] s (shortenWait s) := by
  unfold shortenWait; split
  · exact only_rpt .refl (by decide)
  · exact .refl

theorem urgentToReport_only : OnlyChanges [.rpt] s (urgentToReport s) :=
  (only_rpt .refl (by decide)).step shortenWait_only (by decide)

theorem startAttempt_only : OnlyChanges [.line, .start, .incd, .rpt] s (startAttempt s) := by
  have h : OnlyChanges [.line, .start, .incd] s
      (requestSeizure .rpt (s.config.centreNumber.map Symbol.dtmf) s).1 := requestSeizure_only
  unfold startAttempt; split <;> (next x hx => rw [hx] at h; exact only_rpt (h.wider (by decide)) (by decide))

theorem sendInHand_only {n} : OnlyChanges [.line, .rpt] s (sendInHand n s) := by
  unfold sendInHand; split <;> exact (only_rpt .refl (by decide)).step sendInBand_only (by decide)

theorem takeReady_only : OnlyChanges [.line, .rpt] s (takeReady s) :=
  (only_rpt .refl (by decide)).step sendInHand_only (by decide)

theorem takeAck_only : OnlyChanges [.line, .rpt, .incd] s (takeAck s) := by
  unfold takeAck; split
  · exact (only_rpt ((only_rpt .refl (by decide)).step acknowledge_only (by decide)) (by decide)).step sendInHand_only
      (by decide)
  · exact .refl

theorem sendFailed_only : OnlyChanges [.line, .rpt] s (sendFailed s) := by
  unfold sendFailed; dsimp only; split
  · exact (only_rpt .refl (by decide)).step sendInHand_only (by decide)
  · exact (only_rpt .refl (by decide)).step failAttempt_only (by decide)

theorem sendDone_only : OnlyChanges [.rpt] s (sendDone s) := by
  unfold sendDone; split <;> exact only_rpt .refl (by decide)

theorem reportLineLost_only : OnlyChanges [.line, .rpt] s (reportLineLost s) := by
  unfold reportLineLost; split
  · exact completeAttempt_only
  · exact failAttempt_only

theorem reportCadence_only {c} : OnlyChanges [.line, .rpt, .incd] s (reportCadence c s) := by
  unfold reportCadence; split
  · exact takeReady_only.wider (by decide)
  · exact takeAck_only
  · exact sendFailed_only.wider (by decide)
  · exact completeAttempt_only.wider (by decide)
  · exact .refl

/-! ### CALL -/

theorem setCallState_only {c} : OnlyChanges [.call] s (setCallState c s) := only_post (only_call .refl (by decide))
theorem keysClear_only : OnlyChanges [.keys] s (keysClear s) := only_keys .refl (by decide)
theorem keysStart_only : OnlyChanges [.keys] s (keysStart s) := only_keys .refl (by decide)
theorem keysStop_only : OnlyChanges [.keys] s (keysStop s) := only_keys .refl (by decide)

theorem setLog_only {g} : OnlyChanges [.log] s (setLog g s) := by
  unfold setLog; dsimp only; split
  · exact only_log .refl (by decide)
  · exact only_post (only_log .refl (by decide))

theorem storeRecord_only {r} : OnlyChanges [.log] s (storeRecord r s).1 := by
  unfold storeRecord; dsimp only; split
  · exact only_post setLog_only
  · exact only_post (only_post (only_log .refl (by decide)))

theorem storeSlot_only {x} : OnlyChanges [.log] s (storeSlot x s).1 := only_log storeRecord_only (by decide)

theorem beginCall_only : OnlyChanges [.call, .keys] s (beginCall s) :=
  OnlyChanges.step (only_post (((only_call .refl (by decide)).step keysClear_only (by decide)).step keysStart_only
    (by decide))) setCallState_only (by decide)

theorem enterIdle_only : OnlyChanges [.call] s (enterIdle s) :=
  (only_call .refl (by decide)).step setCallState_only (by decide)

theorem enterAbandoned_only : OnlyChanges [.call] s (enterAbandoned s) :=
  (only_call .refl (by decide)).step setCallState_only (by decide)

theorem leaveClearing_only : OnlyChanges [.call, .keys] s (leaveClearing s) := by
  unfold leaveClearing; split
  · exact enterIdle_only.wider (by decide)
  · split
    · exact beginCall_only
    · exact enterAbandoned_only.wider (by decide)

theorem takeReport_only : OnlyChanges [.call, .coin] s (takeReport s) := by
  unfold takeReport; split
  · exact (only_coin .refl (by decide)).step modifyOwnerSlot_only (by decide)
  · exact .refl

theorem storeAll_only (l : List Slot) : ∀ s : State, OnlyChanges [.log] s (storeAll l s) := by
  induction l with
  | nil => exact fun _ => .refl
  | cons x xs ih => exact fun s => storeSlot_only.step (ih _) (by decide)

theorem storeAtStart_only : OnlyChanges [.call, .log] s (storeAtStart s) := by
  unfold storeAtStart; split
  · exact .refl
  · split
    · exact (only_call .refl (by decide)).step (storeAll_only _ _) (by decide)
    · exact .refl

theorem storeClosing_only : OnlyChanges [.call, .log] s (storeClosing s) := by
  unfold storeClosing; split
  · split
    · exact (only_call .refl (by decide)).step storeSlot_only (by decide)
    · exact .refl
  · exact .refl

theorem clearAccount_only : OnlyChanges [.call, .rate, .bank] s (clearAccount s) := by
  unfold clearAccount; dsimp only; split
  · exact (tryClose_only.wider (by decide)).step copyClosed_only (by decide)
  · exact tryClose_only.wider (by decide)

theorem refundNothing_only : OnlyChanges [.call, .coin] s (refundNothing s) := by
  intro p hp; cases p <;> first | rfl | exact ⟨rfl, rfl⟩ | exact absurd hp (by decide)

theorem askRefund_only : OnlyChanges [.call, .coin, .vault, .incd] s (askRefund s) := by
  unfold askRefund; split
  · dsimp only; split
    · exact (only_call .refl (by decide)).step refundNothing_only (by decide)
    · split
      · exact (only_call .refl (by decide)).step startRun_only (by decide)
      · exact .refl
  · exact .refl

theorem storeOpen_only : OnlyChanges [.call, .keys, .log] s (storeOpen s) := by
  unfold storeOpen; split
  · exact .refl
  · split
    · exact ((setOpen_only.wider (by decide)).step storeSlot_only (by decide)).step leaveClearing_only (by decide)
    · exact .refl

/-- What the end of a waiting lets go on touches no line, no report and no start. -/
theorem progress_only : OnlyChanges [.call, .coin, .vault, .incd, .rate, .bank, .keys, .log] s (progress s) :=
  ((((((takeReport_only.wider (by decide)).step storeAtStart_only (by decide)).step storeClosing_only (by decide)).step
    clearAccount_only (by decide)).step askRefund_only (by decide)).step takeReport_only (by decide)).step storeOpen_only
    (by decide)

theorem coinSettled_only : OnlyChanges [.call, .coin, .vault, .incd, .rate, .bank, .keys, .log] s (coinSettled s) :=
  (runStep_only.wider (by decide)).step progress_only (by decide)

theorem fixEnd_only {c t} : OnlyChanges [.call] s (fixEnd c t s) := only_call .refl (by decide)

theorem releaseCallLine_only : OnlyChanges [.line] s (releaseCallLine s) := by
  unfold releaseCallLine; split
  · exact release_only
  · exact .refl

theorem tellRateEnd_only {t} : OnlyChanges [.rate] s (tellRateEnd t s) := by
  unfold tellRateEnd; split
  · exact .refl
  · exact beginClose_only

/-- The parts a call's end may change. -/
abbrev endParts : List Part := [.call, .coin, .vault, .incd, .rate, .bank, .keys, .log, .line]

theorem endCall_only {c t} : OnlyChanges endParts s (endCall c t s) :=
  (((((fixEnd_only.wider (by decide)).step keysStop_only (by decide)).step setCallState_only (by decide)).step
    releaseCallLine_only (by decide)).step tellRateEnd_only (by decide)).step progress_only (by decide)

/-- The parts a call's progress may change. -/
abbrev callParts : List Part := [.call, .coin, .vault, .incd, .rate, .bank, .keys, .log, .line, .rpt, .start]

theorem lineRequest_only : OnlyChanges callParts s (lineRequest s) := by
  unfold lineRequest; split
  · exact (abortAttempt_only.wider (by decide)).step setCallState_only (by decide)
  · have h : OnlyChanges callParts s (requestSeizure .call (s.keys.buffer.map Symbol.dtmf) s).1 :=
      requestSeizure_only.wider (by decide)
    split
    · next x hx => rw [hx] at h; exact h.step setCallState_only (by decide)
    · next x hx => rw [hx] at h; exact h.step endCall_only (by decide)
    · next x hx hy hz => rw [hz] at h; split; exact h; exact h.step setCallState_only (by decide)

theorem depositCheck_only : OnlyChanges callParts s (depositCheck s) := by
  unfold depositCheck; dsimp only; split
  · exact (only_call .refl (by decide)).step lineRequest_only (by decide)
  · exact (only_call (only_call .refl (by decide)) (by decide)).step setCallState_only (by decide)

theorem depositAgain_only : OnlyChanges callParts s (depositAgain s) := by
  unfold depositAgain; split
  · exact (only_call .refl (by decide)).step lineRequest_only (by decide)
  · exact .refl

theorem checkNumber_only {k v} : OnlyChanges callParts s (checkNumber k v s) := by
  unfold checkNumber; split
  · exact endCall_only.wider (by decide)
  · split
    · exact endCall_only.wider (by decide)
    · split
      · exact endCall_only.wider (by decide)
      · split
        · exact depositCheck_only
        · exact lineRequest_only

theorem numberComplete_only {k c} : OnlyChanges callParts s (numberComplete k c s) := by
  unfold numberComplete; split
  · exact ((only_call .refl (by decide)).step modifyOpen_only (by decide)).step checkNumber_only (by decide)
  · exact .refl

theorem numberFails_only {c k} : OnlyChanges endParts s (numberFails c k s) := by
  unfold numberFails; split
  · exact (modifyOpen_only.wider (by decide)).step endCall_only (by decide)
  · exact .refl

theorem followOnEnd_only : OnlyChanges [.call, .rate, .bank, .line, .log, .keys] s (followOnEnd s) := by
  unfold followOnEnd; split
  · exact .refl
  · refine OnlyChanges.step (OnlyChanges.step (only_call (OnlyChanges.step (OnlyChanges.step (OnlyChanges.step
      (OnlyChanges.step (OnlyChanges.step (OnlyChanges.step (only_call .refl (by decide)) setOpen_only (by decide))
      closeForFollowOn_only (by decide)) copyClosed_only (by decide)) releaseCallLine_only (by decide)) storeSlot_only
      (by decide)) setOpen_only (by decide)) (by decide)) keysClear_only (by decide)) setCallState_only (by decide)

theorem followOnPress_only : OnlyChanges [.call, .rate, .bank, .line, .log, .keys] s (followOnPress s) := by
  unfold followOnPress; split
  · split
    · exact followOnEnd_only
    · exact only_call .refl (by decide)
  · exact .refl

theorem followOnCollect_only : OnlyChanges [.call, .keys] s (followOnCollect s) :=
  ((only_call .refl (by decide)).step keysStart_only (by decide)).step setCallState_only (by decide)

theorem actVerdict_only {r : State × Verdict} (h : OnlyChanges endParts s r.1) : OnlyChanges endParts s (actVerdict r) := by
  unfold actVerdict; dsimp only; split
  · exact h
  · split
    · exact h.step followOnEnd_only (by decide)
    · exact h
  · exact h.step endCall_only (by decide)
  · exact h.step endCall_only (by decide)

theorem markAnswer_only : OnlyChanges [.call] s (markAnswer s) := (only_call .refl (by decide)).step setOpen_only (by decide)

theorem answerCharged_only {b g} : OnlyChanges endParts s (answerCharged b g s) := by
  unfold answerCharged; split
  · split
    · exact actVerdict_only (((modifyOpen_only.wider (by decide)).step setCallState_only (by decide)).step
        startAccount_only (by decide))
    · exact endCall_only
  · exact endCall_only

theorem answerCall_only {b g} : OnlyChanges endParts s (answerCall b g s) := by
  unfold answerCall; split
  · dsimp only; split
    · exact (markAnswer_only.wider (by decide)).step answerCharged_only (by decide)
    · exact (markAnswer_only.wider (by decide)).step setCallState_only (by decide)
  · exact .refl

theorem urgentToCall_only : OnlyChanges endParts s (urgentToCall s) := by
  unfold urgentToCall; split
  · exact endCall_only
  · exact .refl

theorem raiseIncident_only {k} :
    OnlyChanges [.call, .coin, .vault, .incd, .rate, .bank, .keys, .log, .line, .rpt] s (raiseIncident k s) := by
  unfold raiseIncident; dsimp only; split
  · exact ((countOccurrence_only.wider (by decide)).step urgentToReport_only (by decide)).step urgentToCall_only (by decide)
  · exact countOccurrence_only.wider (by decide)

/-! ### KEYS -/

theorem complete_only {k c} : OnlyChanges callParts s (complete k c s) :=
  only_post ((keysStop_only.wider (by decide)).step numberComplete_only (by decide))

theorem analyseStored_only : OnlyChanges callParts s (analyseStored s) := by
  unfold analyseStored; dsimp only; split
  · exact (only_keys .refl (by decide)).step complete_only (by decide)
  · split
    · split
      · exact (only_keys .refl (by decide)).step complete_only (by decide)
      · exact only_post (only_keys .refl (by decide))
    · exact only_post (only_keys .refl (by decide))

theorem analyseTimeout_only : OnlyChanges callParts s (analyseTimeout s) := by
  unfold analyseTimeout; dsimp only; split
  · split
    · exact (only_keys .refl (by decide)).step complete_only (by decide)
    · exact ((only_keys .refl (by decide)).step keysStop_only (by decide)).step numberFails_only (by decide)
  · exact ((only_keys .refl (by decide)).step keysStop_only (by decide)).step numberFails_only (by decide)

theorem hashPress_only : OnlyChanges callParts s (hashPress s) := by
  unfold hashPress; split
  · split
    · split
      · exact (only_keys .refl (by decide)).step complete_only (by decide)
      · exact .refl
    · exact .refl
  · exact .refl

theorem storeSymbol_only {x} : OnlyChanges callParts s (storeSymbol x s) := by
  unfold storeSymbol; split
  · refine OnlyChanges.step ?_ analyseStored_only (by decide)
    unfold symbolTold; split
    · exact only_call (only_keys .refl (by decide)) (by decide)
    · exact only_keys .refl (by decide)
  · exact .refl

theorem deliverPress_only {k} : OnlyChanges callParts s (deliverPress k s) := by
  unfold deliverPress; split
  · exact followOnPress_only.wider (by decide)
  · split
    · exact hashPress_only
    · exact .refl
  · split
    · exact storeSymbol_only
    · exact .refl
  · split
    · exact storeSymbol_only
    · exact .refl

theorem setCell_only {k c} : OnlyChanges [.keys] s (setCell k c s) := only_keys .refl (by decide)

theorem pressKey_only {k} : OnlyChanges callParts s (pressKey k s) := by
  unfold pressKey; split
  · split
    · exact setCell_only.wider (by decide)
    · exact (setCell_only.wider (by decide)).step deliverPress_only (by decide)
  all_goals exact .refl

theorem releaseKey_only {k} : OnlyChanges [.keys, .incd] s (releaseKey k s) := by
  unfold releaseKey; split
  · exact .refl
  all_goals
    dsimp only; split
    · exact (setCell_only.wider (by decide)).step endCondition_only (by decide)
    · exact setCell_only.wider (by decide)

theorem stickKey_only {k} : OnlyChanges [.keys, .incd] s (stickKey k s) := by
  unfold stickKey; dsimp only; split
  · exact (setCell_only.wider (by decide)).step countOccurrence_only (by decide)
  · exact (setCell_only.wider (by decide)).step countOccurrence_only (by decide)
  all_goals exact .refl

/-! ### The tone detector -/

theorem detectorInterval_only {a b c} : OnlyChanges [.raised, .line] s (detectorInterval a b c s) := by
  intro p hp; cases p <;> first | rfl | exact ⟨rfl, rfl⟩ | exact absurd hp (by decide)

/-- A channel that is not active takes nothing from an interval. -/
@[simp] theorem progressInterval_inactive (p : Bool) (c : ProgressChannel) (h : c.active = false) :
    progressInterval p c = (c, []) := by simp [progressInterval, h]
@[simp] theorem meterInterval_inactive (p : Bool) (n : Nat) (c : MeterChannel) (h : c.active = false) :
    meterInterval p n c = (c, []) := by simp [meterInterval, h]
@[simp] theorem centreInterval_inactive (p : Bool) (c : CentreChannel) (h : c.active = false) :
    centreInterval p c = (c, []) := by simp [centreInterval, h]

/-- An absence of current leaves the meter channel active or not as it was, and no burst in progress. -/
@[simp] theorem meterCut_active (w : Bool) (c : MeterChannel) : (meterCut w c).active = c.active := by
  unfold meterCut; split <;> rfl
@[simp] theorem meterCut_burst (w : Bool) (c : MeterChannel) : (meterCut w c).burst = none := by
  unfold meterCut; split
  · rfl
  · next h => cases hb : c.burst <;> simp_all

/-! ### A record handed to the log -/

/-- With room, the log takes the slot's record, and the number it gives it is the answer. -/
theorem storeSlot_took (sl : Slot) (s : State) (h : s.store.log.records.length < 64) :
    LogTook [sl] s.store.log (storeSlot sl s).1 ∧ (storeSlot sl s).2 = some s.store.log.nextSeq := by
  have hp : ∀ (k : NoticeKind) (q : List Byte) (u : State), (post k q u).store = u.store := fun k q u => by
    rw [post_eq]
  have hl : ∀ g : LogArea, (setLog g s).store.log = g := fun g => by
    unfold setLog; dsimp only; split
    · rfl
    · unfold postLog; rw [hp]
  simp [LogTook, storeSlot, storeRecord, h, hp, hl, numbered, seqAfter]

end Sys2Proof.Machine
end

