-- ==== Sys2Proof/Laws/State.lean ====
section
/-! SUPPORT. One lemma for each field of the state and each named update, so that no proof unfolds a record update. -/

namespace Sys2Proof.Machine

variable (s : State)


/-! `setMap` -/

@[simp] theorem setMap_incd (m : List Incident) : (setMap m s).incd = { s.incd with map := m } := rfl
@[simp] theorem setMap_pending (m : List Incident) : (setMap m s).pending = s.pending := rfl
@[simp] theorem setMap_now (m : List Incident) : (setMap m s).now = s.now := rfl
@[simp] theorem setMap_ties (m : List Incident) : (setMap m s).ties = s.ties := rfl
@[simp] theorem setMap_raised (m : List Incident) : (setMap m s).raised = s.raised := rfl
@[simp] theorem setMap_power (m : List Incident) : (setMap m s).power = s.power := rfl
@[simp] theorem setMap_pins (m : List Incident) : (setMap m s).pins = s.pins := rfl
@[simp] theorem setMap_samplers (m : List Incident) : (setMap m s).samplers = s.samplers := rfl
@[simp] theorem setMap_config (m : List Incident) : (setMap m s).config = s.config := rfl
@[simp] theorem setMap_call (m : List Incident) : (setMap m s).call = s.call := rfl
@[simp] theorem setMap_keys (m : List Incident) : (setMap m s).keys = s.keys := rfl
@[simp] theorem setMap_line (m : List Incident) : (setMap m s).line = s.line := rfl
@[simp] theorem setMap_coin (m : List Incident) : (setMap m s).coin = s.coin := rfl
@[simp] theorem setMap_rate (m : List Incident) : (setMap m s).rate = s.rate := rfl
@[simp] theorem setMap_bank (m : List Incident) : (setMap m s).bank = s.bank := rfl
@[simp] theorem setMap_vault (m : List Incident) : (setMap m s).vault = s.vault := rfl
@[simp] theorem setMap_rpt (m : List Incident) : (setMap m s).rpt = s.rpt := rfl
@[simp] theorem setMap_store (m : List Incident) : (setMap m s).store = s.store := rfl
@[simp] theorem setMap_link (m : List Incident) : (setMap m s).link = s.link := rfl

/-! `setRpt` -/

@[simp] theorem setRpt_rpt (r : RptBlock) : (setRpt r s).rpt = r := rfl
@[simp] theorem setRpt_pending (r : RptBlock) : (setRpt r s).pending = s.pending := rfl
@[simp] theorem setRpt_now (r : RptBlock) : (setRpt r s).now = s.now := rfl
@[simp] theorem setRpt_ties (r : RptBlock) : (setRpt r s).ties = s.ties := rfl
@[simp] theorem setRpt_raised (r : RptBlock) : (setRpt r s).raised = s.raised := rfl
@[simp] theorem setRpt_power (r : RptBlock) : (setRpt r s).power = s.power := rfl
@[simp] theorem setRpt_pins (r : RptBlock) : (setRpt r s).pins = s.pins := rfl
@[simp] theorem setRpt_samplers (r : RptBlock) : (setRpt r s).samplers = s.samplers := rfl
@[simp] theorem setRpt_config (r : RptBlock) : (setRpt r s).config = s.config := rfl
@[simp] theorem setRpt_call (r : RptBlock) : (setRpt r s).call = s.call := rfl
@[simp] theorem setRpt_keys (r : RptBlock) : (setRpt r s).keys = s.keys := rfl
@[simp] theorem setRpt_line (r : RptBlock) : (setRpt r s).line = s.line := rfl
@[simp] theorem setRpt_coin (r : RptBlock) : (setRpt r s).coin = s.coin := rfl
@[simp] theorem setRpt_rate (r : RptBlock) : (setRpt r s).rate = s.rate := rfl
@[simp] theorem setRpt_bank (r : RptBlock) : (setRpt r s).bank = s.bank := rfl
@[simp] theorem setRpt_vault (r : RptBlock) : (setRpt r s).vault = s.vault := rfl
@[simp] theorem setRpt_incd (r : RptBlock) : (setRpt r s).incd = s.incd := rfl
@[simp] theorem setRpt_store (r : RptBlock) : (setRpt r s).store = s.store := rfl
@[simp] theorem setRpt_link (r : RptBlock) : (setRpt r s).link = s.link := rfl

/-! `setBank` -/

@[simp] theorem setBank_bank (n : BankName) (b : Bank) : (setBank n b s).bank = s.bank.set n b := rfl
@[simp] theorem setBank_pending (n : BankName) (b : Bank) : (setBank n b s).pending = s.pending := rfl
@[simp] theorem setBank_now (n : BankName) (b : Bank) : (setBank n b s).now = s.now := rfl
@[simp] theorem setBank_ties (n : BankName) (b : Bank) : (setBank n b s).ties = s.ties := rfl
@[simp] theorem setBank_raised (n : BankName) (b : Bank) : (setBank n b s).raised = s.raised := rfl
@[simp] theorem setBank_power (n : BankName) (b : Bank) : (setBank n b s).power = s.power := rfl
@[simp] theorem setBank_pins (n : BankName) (b : Bank) : (setBank n b s).pins = s.pins := rfl
@[simp] theorem setBank_samplers (n : BankName) (b : Bank) : (setBank n b s).samplers = s.samplers := rfl
@[simp] theorem setBank_config (n : BankName) (b : Bank) : (setBank n b s).config = s.config := rfl
@[simp] theorem setBank_call (n : BankName) (b : Bank) : (setBank n b s).call = s.call := rfl
@[simp] theorem setBank_keys (n : BankName) (b : Bank) : (setBank n b s).keys = s.keys := rfl
@[simp] theorem setBank_line (n : BankName) (b : Bank) : (setBank n b s).line = s.line := rfl
@[simp] theorem setBank_coin (n : BankName) (b : Bank) : (setBank n b s).coin = s.coin := rfl
@[simp] theorem setBank_rate (n : BankName) (b : Bank) : (setBank n b s).rate = s.rate := rfl
@[simp] theorem setBank_vault (n : BankName) (b : Bank) : (setBank n b s).vault = s.vault := rfl
@[simp] theorem setBank_incd (n : BankName) (b : Bank) : (setBank n b s).incd = s.incd := rfl
@[simp] theorem setBank_rpt (n : BankName) (b : Bank) : (setBank n b s).rpt = s.rpt := rfl
@[simp] theorem setBank_store (n : BankName) (b : Bank) : (setBank n b s).store = s.store := rfl
@[simp] theorem setBank_link (n : BankName) (b : Bank) : (setBank n b s).link = s.link := rfl

/-! `setCounters` -/

@[simp] theorem setCounters_vault (c : Counters) : (setCounters c s).vault = { s.vault with counters := c } := rfl
@[simp] theorem setCounters_pending (c : Counters) : (setCounters c s).pending = s.pending := rfl
@[simp] theorem setCounters_now (c : Counters) : (setCounters c s).now = s.now := rfl
@[simp] theorem setCounters_ties (c : Counters) : (setCounters c s).ties = s.ties := rfl
@[simp] theorem setCounters_raised (c : Counters) : (setCounters c s).raised = s.raised := rfl
@[simp] theorem setCounters_power (c : Counters) : (setCounters c s).power = s.power := rfl
@[simp] theorem setCounters_pins (c : Counters) : (setCounters c s).pins = s.pins := rfl
@[simp] theorem setCounters_samplers (c : Counters) : (setCounters c s).samplers = s.samplers := rfl
@[simp] theorem setCounters_config (c : Counters) : (setCounters c s).config = s.config := rfl
@[simp] theorem setCounters_call (c : Counters) : (setCounters c s).call = s.call := rfl
@[simp] theorem setCounters_keys (c : Counters) : (setCounters c s).keys = s.keys := rfl
@[simp] theorem setCounters_line (c : Counters) : (setCounters c s).line = s.line := rfl
@[simp] theorem setCounters_coin (c : Counters) : (setCounters c s).coin = s.coin := rfl
@[simp] theorem setCounters_rate (c : Counters) : (setCounters c s).rate = s.rate := rfl
@[simp] theorem setCounters_bank (c : Counters) : (setCounters c s).bank = s.bank := rfl
@[simp] theorem setCounters_incd (c : Counters) : (setCounters c s).incd = s.incd := rfl
@[simp] theorem setCounters_rpt (c : Counters) : (setCounters c s).rpt = s.rpt := rfl
@[simp] theorem setCounters_store (c : Counters) : (setCounters c s).store = s.store := rfl
@[simp] theorem setCounters_link (c : Counters) : (setCounters c s).link = s.link := rfl

/-! `setOpen` -/

@[simp] theorem setOpen_call (o : Option Slot) : (setOpen o s).call = { s.call with openSlot := o } := rfl
@[simp] theorem setOpen_pending (o : Option Slot) : (setOpen o s).pending = s.pending := rfl
@[simp] theorem setOpen_now (o : Option Slot) : (setOpen o s).now = s.now := rfl
@[simp] theorem setOpen_ties (o : Option Slot) : (setOpen o s).ties = s.ties := rfl
@[simp] theorem setOpen_raised (o : Option Slot) : (setOpen o s).raised = s.raised := rfl
@[simp] theorem setOpen_power (o : Option Slot) : (setOpen o s).power = s.power := rfl
@[simp] theorem setOpen_pins (o : Option Slot) : (setOpen o s).pins = s.pins := rfl
@[simp] theorem setOpen_samplers (o : Option Slot) : (setOpen o s).samplers = s.samplers := rfl
@[simp] theorem setOpen_config (o : Option Slot) : (setOpen o s).config = s.config := rfl
@[simp] theorem setOpen_keys (o : Option Slot) : (setOpen o s).keys = s.keys := rfl
@[simp] theorem setOpen_line (o : Option Slot) : (setOpen o s).line = s.line := rfl
@[simp] theorem setOpen_coin (o : Option Slot) : (setOpen o s).coin = s.coin := rfl
@[simp] theorem setOpen_rate (o : Option Slot) : (setOpen o s).rate = s.rate := rfl
@[simp] theorem setOpen_bank (o : Option Slot) : (setOpen o s).bank = s.bank := rfl
@[simp] theorem setOpen_vault (o : Option Slot) : (setOpen o s).vault = s.vault := rfl
@[simp] theorem setOpen_incd (o : Option Slot) : (setOpen o s).incd = s.incd := rfl
@[simp] theorem setOpen_rpt (o : Option Slot) : (setOpen o s).rpt = s.rpt := rfl
@[simp] theorem setOpen_store (o : Option Slot) : (setOpen o s).store = s.store := rfl
@[simp] theorem setOpen_link (o : Option Slot) : (setOpen o s).link = s.link := rfl

/-! `setAcct` -/

@[simp] theorem setAcct_rate (a : Account) : (setAcct a s).rate = { s.rate with acct := a } := rfl
@[simp] theorem setAcct_pending (a : Account) : (setAcct a s).pending = s.pending := rfl
@[simp] theorem setAcct_now (a : Account) : (setAcct a s).now = s.now := rfl
@[simp] theorem setAcct_ties (a : Account) : (setAcct a s).ties = s.ties := rfl
@[simp] theorem setAcct_raised (a : Account) : (setAcct a s).raised = s.raised := rfl
@[simp] theorem setAcct_power (a : Account) : (setAcct a s).power = s.power := rfl
@[simp] theorem setAcct_pins (a : Account) : (setAcct a s).pins = s.pins := rfl
@[simp] theorem setAcct_samplers (a : Account) : (setAcct a s).samplers = s.samplers := rfl
@[simp] theorem setAcct_config (a : Account) : (setAcct a s).config = s.config := rfl
@[simp] theorem setAcct_call (a : Account) : (setAcct a s).call = s.call := rfl
@[simp] theorem setAcct_keys (a : Account) : (setAcct a s).keys = s.keys := rfl
@[simp] theorem setAcct_line (a : Account) : (setAcct a s).line = s.line := rfl
@[simp] theorem setAcct_coin (a : Account) : (setAcct a s).coin = s.coin := rfl
@[simp] theorem setAcct_bank (a : Account) : (setAcct a s).bank = s.bank := rfl
@[simp] theorem setAcct_vault (a : Account) : (setAcct a s).vault = s.vault := rfl
@[simp] theorem setAcct_incd (a : Account) : (setAcct a s).incd = s.incd := rfl
@[simp] theorem setAcct_rpt (a : Account) : (setAcct a s).rpt = s.rpt := rfl
@[simp] theorem setAcct_store (a : Account) : (setAcct a s).store = s.store := rfl
@[simp] theorem setAcct_link (a : Account) : (setAcct a s).link = s.link := rfl

/-! `keysStart` -/

@[simp] theorem keysStart_keys : (keysStart s).keys = { s.keys with collection := .awaitFirst, firstDigitTimer := some (s.now + firstDigitMs) } := rfl
@[simp] theorem keysStart_pending : (keysStart s).pending = s.pending := rfl
@[simp] theorem keysStart_now : (keysStart s).now = s.now := rfl
@[simp] theorem keysStart_ties : (keysStart s).ties = s.ties := rfl
@[simp] theorem keysStart_raised : (keysStart s).raised = s.raised := rfl
@[simp] theorem keysStart_power : (keysStart s).power = s.power := rfl
@[simp] theorem keysStart_pins : (keysStart s).pins = s.pins := rfl
@[simp] theorem keysStart_samplers : (keysStart s).samplers = s.samplers := rfl
@[simp] theorem keysStart_config : (keysStart s).config = s.config := rfl
@[simp] theorem keysStart_call : (keysStart s).call = s.call := rfl
@[simp] theorem keysStart_line : (keysStart s).line = s.line := rfl
@[simp] theorem keysStart_coin : (keysStart s).coin = s.coin := rfl
@[simp] theorem keysStart_rate : (keysStart s).rate = s.rate := rfl
@[simp] theorem keysStart_bank : (keysStart s).bank = s.bank := rfl
@[simp] theorem keysStart_vault : (keysStart s).vault = s.vault := rfl
@[simp] theorem keysStart_incd : (keysStart s).incd = s.incd := rfl
@[simp] theorem keysStart_rpt : (keysStart s).rpt = s.rpt := rfl
@[simp] theorem keysStart_store : (keysStart s).store = s.store := rfl
@[simp] theorem keysStart_link : (keysStart s).link = s.link := rfl

/-! `keysStop` -/

@[simp] theorem keysStop_keys : (keysStop s).keys = { s.keys with collection := .done, firstDigitTimer := none, interDigitTimer := none } := rfl
@[simp] theorem keysStop_pending : (keysStop s).pending = s.pending := rfl
@[simp] theorem keysStop_now : (keysStop s).now = s.now := rfl
@[simp] theorem keysStop_ties : (keysStop s).ties = s.ties := rfl
@[simp] theorem keysStop_raised : (keysStop s).raised = s.raised := rfl
@[simp] theorem keysStop_power : (keysStop s).power = s.power := rfl
@[simp] theorem keysStop_pins : (keysStop s).pins = s.pins := rfl
@[simp] theorem keysStop_samplers : (keysStop s).samplers = s.samplers := rfl
@[simp] theorem keysStop_config : (keysStop s).config = s.config := rfl
@[simp] theorem keysStop_call : (keysStop s).call = s.call := rfl
@[simp] theorem keysStop_line : (keysStop s).line = s.line := rfl
@[simp] theorem keysStop_coin : (keysStop s).coin = s.coin := rfl
@[simp] theorem keysStop_rate : (keysStop s).rate = s.rate := rfl
@[simp] theorem keysStop_bank : (keysStop s).bank = s.bank := rfl
@[simp] theorem keysStop_vault : (keysStop s).vault = s.vault := rfl
@[simp] theorem keysStop_incd : (keysStop s).incd = s.incd := rfl
@[simp] theorem keysStop_rpt : (keysStop s).rpt = s.rpt := rfl
@[simp] theorem keysStop_store : (keysStop s).store = s.store := rfl
@[simp] theorem keysStop_link : (keysStop s).link = s.link := rfl

/-! `restMover` -/

@[simp] theorem restMover_coin : (restMover s).coin = { s.coin with mover := .idle, exitTimer := none, blind := false } := rfl
@[simp] theorem restMover_pending : (restMover s).pending = s.pending := rfl
@[simp] theorem restMover_now : (restMover s).now = s.now := rfl
@[simp] theorem restMover_ties : (restMover s).ties = s.ties := rfl
@[simp] theorem restMover_raised : (restMover s).raised = s.raised := rfl
@[simp] theorem restMover_power : (restMover s).power = s.power := rfl
@[simp] theorem restMover_pins : (restMover s).pins = s.pins := rfl
@[simp] theorem restMover_samplers : (restMover s).samplers = s.samplers := rfl
@[simp] theorem restMover_config : (restMover s).config = s.config := rfl
@[simp] theorem restMover_call : (restMover s).call = s.call := rfl
@[simp] theorem restMover_keys : (restMover s).keys = s.keys := rfl
@[simp] theorem restMover_line : (restMover s).line = s.line := rfl
@[simp] theorem restMover_rate : (restMover s).rate = s.rate := rfl
@[simp] theorem restMover_bank : (restMover s).bank = s.bank := rfl
@[simp] theorem restMover_vault : (restMover s).vault = s.vault := rfl
@[simp] theorem restMover_incd : (restMover s).incd = s.incd := rfl
@[simp] theorem restMover_rpt : (restMover s).rpt = s.rpt := rfl
@[simp] theorem restMover_store : (restMover s).store = s.store := rfl
@[simp] theorem restMover_link : (restMover s).link = s.link := rfl

/-! `dropHead` -/

@[simp] theorem dropHead_coin :
    (dropHead s).coin = { s.coin with escrow := s.coin.escrow.tail, gone := s.coin.gone + 1 } := rfl
@[simp] theorem dropHead_pending : (dropHead s).pending = s.pending := rfl
@[simp] theorem dropHead_now : (dropHead s).now = s.now := rfl
@[simp] theorem dropHead_ties : (dropHead s).ties = s.ties := rfl
@[simp] theorem dropHead_raised : (dropHead s).raised = s.raised := rfl
@[simp] theorem dropHead_power : (dropHead s).power = s.power := rfl
@[simp] theorem dropHead_pins : (dropHead s).pins = s.pins := rfl
@[simp] theorem dropHead_samplers : (dropHead s).samplers = s.samplers := rfl
@[simp] theorem dropHead_config : (dropHead s).config = s.config := rfl
@[simp] theorem dropHead_call : (dropHead s).call = s.call := rfl
@[simp] theorem dropHead_keys : (dropHead s).keys = s.keys := rfl
@[simp] theorem dropHead_line : (dropHead s).line = s.line := rfl
@[simp] theorem dropHead_rate : (dropHead s).rate = s.rate := rfl
@[simp] theorem dropHead_bank : (dropHead s).bank = s.bank := rfl
@[simp] theorem dropHead_vault : (dropHead s).vault = s.vault := rfl
@[simp] theorem dropHead_incd : (dropHead s).incd = s.incd := rfl
@[simp] theorem dropHead_rpt : (dropHead s).rpt = s.rpt := rfl
@[simp] theorem dropHead_store : (dropHead s).store = s.store := rfl
@[simp] theorem dropHead_link : (dropHead s).link = s.link := rfl

/-! `emptyList` -/

@[simp] theorem emptyList_coin :
    (emptyList s).coin = { s.coin with escrow := [], gone := enteredCoins s.coin } := rfl
@[simp] theorem emptyList_pending : (emptyList s).pending = s.pending := rfl
@[simp] theorem emptyList_now : (emptyList s).now = s.now := rfl
@[simp] theorem emptyList_ties : (emptyList s).ties = s.ties := rfl
@[simp] theorem emptyList_raised : (emptyList s).raised = s.raised := rfl
@[simp] theorem emptyList_power : (emptyList s).power = s.power := rfl
@[simp] theorem emptyList_pins : (emptyList s).pins = s.pins := rfl
@[simp] theorem emptyList_samplers : (emptyList s).samplers = s.samplers := rfl
@[simp] theorem emptyList_config : (emptyList s).config = s.config := rfl
@[simp] theorem emptyList_call : (emptyList s).call = s.call := rfl
@[simp] theorem emptyList_keys : (emptyList s).keys = s.keys := rfl
@[simp] theorem emptyList_line : (emptyList s).line = s.line := rfl
@[simp] theorem emptyList_rate : (emptyList s).rate = s.rate := rfl
@[simp] theorem emptyList_bank : (emptyList s).bank = s.bank := rfl
@[simp] theorem emptyList_vault : (emptyList s).vault = s.vault := rfl
@[simp] theorem emptyList_incd : (emptyList s).incd = s.incd := rfl
@[simp] theorem emptyList_rpt : (emptyList s).rpt = s.rpt := rfl
@[simp] theorem emptyList_store : (emptyList s).store = s.store := rfl
@[simp] theorem emptyList_link : (emptyList s).link = s.link := rfl

/-! `clearSteps` -/

@[simp] theorem clearSteps_coin : (clearSteps s).coin = s.coin := rfl
@[simp] theorem clearSteps_pending : (clearSteps s).pending = s.pending := rfl
@[simp] theorem clearSteps_now : (clearSteps s).now = s.now := rfl
@[simp] theorem clearSteps_ties : (clearSteps s).ties = s.ties := rfl
@[simp] theorem clearSteps_raised : (clearSteps s).raised = s.raised := rfl
@[simp] theorem clearSteps_power : (clearSteps s).power = s.power := rfl
@[simp] theorem clearSteps_pins : (clearSteps s).pins = s.pins := rfl
@[simp] theorem clearSteps_samplers : (clearSteps s).samplers = s.samplers := rfl
@[simp] theorem clearSteps_config : (clearSteps s).config = s.config := rfl
@[simp] theorem clearSteps_call : (clearSteps s).call = s.call := rfl
@[simp] theorem clearSteps_keys : (clearSteps s).keys = s.keys := rfl
@[simp] theorem clearSteps_line : (clearSteps s).line = s.line := rfl
@[simp] theorem clearSteps_rate : (clearSteps s).rate = { s.rate with held := [] } := rfl
@[simp] theorem clearSteps_bank : (clearSteps s).bank = s.bank := rfl
@[simp] theorem clearSteps_vault : (clearSteps s).vault = s.vault := rfl
@[simp] theorem clearSteps_incd : (clearSteps s).incd = s.incd := rfl
@[simp] theorem clearSteps_rpt : (clearSteps s).rpt = s.rpt := rfl
@[simp] theorem clearSteps_store : (clearSteps s).store = s.store := rfl
@[simp] theorem clearSteps_link : (clearSteps s).link = s.link := rfl

/-! `beginBlind` -/

@[simp] theorem beginBlind_coin (k : Stroke) : (beginBlind k s).coin = { s.coin with mover := moverOf k, exitTimer := some (s.now + exitMs), blind := true } := rfl
@[simp] theorem beginBlind_pending (k : Stroke) : (beginBlind k s).pending = s.pending := rfl
@[simp] theorem beginBlind_now (k : Stroke) : (beginBlind k s).now = s.now := rfl
@[simp] theorem beginBlind_ties (k : Stroke) : (beginBlind k s).ties = s.ties := rfl
@[simp] theorem beginBlind_raised (k : Stroke) : (beginBlind k s).raised = s.raised := rfl
@[simp] theorem beginBlind_power (k : Stroke) : (beginBlind k s).power = s.power := rfl
@[simp] theorem beginBlind_pins (k : Stroke) : (beginBlind k s).pins = s.pins := rfl
@[simp] theorem beginBlind_samplers (k : Stroke) : (beginBlind k s).samplers = s.samplers := rfl
@[simp] theorem beginBlind_config (k : Stroke) : (beginBlind k s).config = s.config := rfl
@[simp] theorem beginBlind_call (k : Stroke) : (beginBlind k s).call = s.call := rfl
@[simp] theorem beginBlind_keys (k : Stroke) : (beginBlind k s).keys = s.keys := rfl
@[simp] theorem beginBlind_line (k : Stroke) : (beginBlind k s).line = s.line := rfl
@[simp] theorem beginBlind_rate (k : Stroke) : (beginBlind k s).rate = s.rate := rfl
@[simp] theorem beginBlind_bank (k : Stroke) : (beginBlind k s).bank = s.bank := rfl
@[simp] theorem beginBlind_vault (k : Stroke) : (beginBlind k s).vault = s.vault := rfl
@[simp] theorem beginBlind_incd (k : Stroke) : (beginBlind k s).incd = s.incd := rfl
@[simp] theorem beginBlind_rpt (k : Stroke) : (beginBlind k s).rpt = s.rpt := rfl
@[simp] theorem beginBlind_store (k : Stroke) : (beginBlind k s).store = s.store := rfl
@[simp] theorem beginBlind_link (k : Stroke) : (beginBlind k s).link = s.link := rfl

/-! `rateInactive` -/

@[simp] theorem rateInactive_rate : (rateInactive s).rate = RateBlock.inactive := rfl
@[simp] theorem rateInactive_pending : (rateInactive s).pending = s.pending := rfl
@[simp] theorem rateInactive_now : (rateInactive s).now = s.now := rfl
@[simp] theorem rateInactive_ties : (rateInactive s).ties = s.ties := rfl
@[simp] theorem rateInactive_raised : (rateInactive s).raised = s.raised := rfl
@[simp] theorem rateInactive_power : (rateInactive s).power = s.power := rfl
@[simp] theorem rateInactive_pins : (rateInactive s).pins = s.pins := rfl
@[simp] theorem rateInactive_samplers : (rateInactive s).samplers = s.samplers := rfl
@[simp] theorem rateInactive_config : (rateInactive s).config = s.config := rfl
@[simp] theorem rateInactive_call : (rateInactive s).call = s.call := rfl
@[simp] theorem rateInactive_keys : (rateInactive s).keys = s.keys := rfl
@[simp] theorem rateInactive_line : (rateInactive s).line = s.line := rfl
@[simp] theorem rateInactive_coin : (rateInactive s).coin = s.coin := rfl
@[simp] theorem rateInactive_bank : (rateInactive s).bank = s.bank := rfl
@[simp] theorem rateInactive_vault : (rateInactive s).vault = s.vault := rfl
@[simp] theorem rateInactive_incd : (rateInactive s).incd = s.incd := rfl
@[simp] theorem rateInactive_rpt : (rateInactive s).rpt = s.rpt := rfl
@[simp] theorem rateInactive_store : (rateInactive s).store = s.store := rfl
@[simp] theorem rateInactive_link : (rateInactive s).link = s.link := rfl

/-! `placeReply` -/

@[simp] theorem placeReply_link (k : Byte) (p : List Byte) : (placeReply k p s).link = { s.link with reply := some ⟨k, p⟩, outstanding := none } := rfl
@[simp] theorem placeReply_pending (k : Byte) (p : List Byte) : (placeReply k p s).pending = s.pending := rfl
@[simp] theorem placeReply_now (k : Byte) (p : List Byte) : (placeReply k p s).now = s.now := rfl
@[simp] theorem placeReply_ties (k : Byte) (p : List Byte) : (placeReply k p s).ties = s.ties := rfl
@[simp] theorem placeReply_raised (k : Byte) (p : List Byte) : (placeReply k p s).raised = s.raised := rfl
@[simp] theorem placeReply_power (k : Byte) (p : List Byte) : (placeReply k p s).power = s.power := rfl
@[simp] theorem placeReply_pins (k : Byte) (p : List Byte) : (placeReply k p s).pins = s.pins := rfl
@[simp] theorem placeReply_samplers (k : Byte) (p : List Byte) : (placeReply k p s).samplers = s.samplers := rfl
@[simp] theorem placeReply_config (k : Byte) (p : List Byte) : (placeReply k p s).config = s.config := rfl
@[simp] theorem placeReply_call (k : Byte) (p : List Byte) : (placeReply k p s).call = s.call := rfl
@[simp] theorem placeReply_keys (k : Byte) (p : List Byte) : (placeReply k p s).keys = s.keys := rfl
@[simp] theorem placeReply_line (k : Byte) (p : List Byte) : (placeReply k p s).line = s.line := rfl
@[simp] theorem placeReply_coin (k : Byte) (p : List Byte) : (placeReply k p s).coin = s.coin := rfl
@[simp] theorem placeReply_rate (k : Byte) (p : List Byte) : (placeReply k p s).rate = s.rate := rfl
@[simp] theorem placeReply_bank (k : Byte) (p : List Byte) : (placeReply k p s).bank = s.bank := rfl
@[simp] theorem placeReply_vault (k : Byte) (p : List Byte) : (placeReply k p s).vault = s.vault := rfl
@[simp] theorem placeReply_incd (k : Byte) (p : List Byte) : (placeReply k p s).incd = s.incd := rfl
@[simp] theorem placeReply_rpt (k : Byte) (p : List Byte) : (placeReply k p s).rpt = s.rpt := rfl
@[simp] theorem placeReply_store (k : Byte) (p : List Byte) : (placeReply k p s).store = s.store := rfl

/-! The two banks (R109): `get` after `set`. -/

@[simp] theorem BankBlock.get_set (b : BankBlock) (n : BankName) (x : Bank) : (b.set n x).get n = x := by cases n <;> rfl
@[simp] theorem BankBlock.get_set_other (b : BankBlock) (n : BankName) (x : Bank) :
    (b.set n x).get (otherBank n) = b.get (otherBank n) := by cases n <;> rfl
@[simp] theorem BankBlock.inUse_set (b : BankBlock) (n m : BankName) (x : Bank) : (b.set n x).inUse m = b.inUse m := by
  cases n <;> cases m <;> rfl

end Sys2Proof.Machine
end

