-- ==== Sys2Proof/Tests/Slice0.lean ====
section
/-! SUPPORT. The model's own tests: an ill-formed term for each check of `WellFormed`; the worked figures of the spec; and
for each statement with hypotheses a state and operands that meet them, clause by clause. -/

namespace Sys2Proof.Tests

open Sys2Proof Sys2Proof.Machine

/-! ### WellFormed refuses -/

theorem test_wf_lost_area_twice : (Instr.powerUp true .both [.log, .log]).wf = false := by decide
theorem test_wf_torn_area_twice : (Instr.powerFail [.rpt, .call, .rpt]).wf = false := by decide
theorem test_wf_key_twice : (Instr.keyReadingEnd [.star, .star]).wf = false := by decide
theorem test_wf_payload_too_long : (Instr.configSet (List.replicate 120 0)).wf = false := by decide
theorem test_wf_refund_row_with_another_action : (Instr.refundOne [1]).wf = false := by decide
theorem test_wf_collect_row_action : (Instr.collectTestOne [0]).wf = false := by decide
theorem test_wf_restore_inlet_row_action : (Instr.restoreInlet []).wf = false := by decide
theorem test_wf_restore_escrow_row_action : (Instr.restoreEscrow [2]).wf = false := by decide
theorem test_wf_known_kind_as_unknown : (Instr.unknownCommand 0x1C []).wf = false := by decide
theorem test_wf_unknown_payload_too_long : (Instr.unknownCommand 0x1D (List.replicate 120 0)).wf = false := by decide
theorem test_wf_longest_payload : (Instr.configSet (List.replicate 119 0)).wf = true := by decide

/-! ### Figures of the spec -/

/-- R55: "the string 0207 takes … 5000 ms". -/
theorem test_loop_pulse_0207 : sendMs .loopPulse [.digit 0, .digit 2, .digit 0, .digit 7] = 5000 := by decide

/-- R162: a report block takes 4320 ms to send, and D takes 160 ms. -/
theorem test_block_send_time :
    (blockString ⟨List.replicate 8 (.digit 1), 1, .cordCut, true, 12, none, some 0⟩).length * 160 = 4320 := by decide
theorem test_close_send_time : dtmfMs [Dtmf.d].length = 160 := by decide

/-- R162 by hand: identity 12345678, first block, CORD_CUT (03, major), active, count 012, absent time, 00:00; the check
digit is (36 + 1 + 0 + 3 + 2 + 1 + 0 + 1 + 2) mod 10. -/
theorem test_block_string :
    blockString ⟨[.digit 1, .digit 2, .digit 3, .digit 4, .digit 5, .digit 6, .digit 7, .digit 8], 1, .cordCut, true, 12,
      none, some 0⟩
      = [.a, .digit 1, .digit 2, .digit 3, .digit 4, .digit 5, .digit 6, .digit 7, .digit 8, .digit 1, .digit 0, .digit 3,
        .digit 2, .digit 1, .digit 0, .digit 1, .digit 2, .star, .star, .star, .star, .digit 0, .digit 0, .digit 0,
        .digit 0, .digit 6, .hash] := by decide

/-- R98: "With R = 60000 and S = 1 … the period lasts 5 tenths and the remainder is lost." -/
theorem test_period_shortest : periodOf 1 60000 0 = (5, 0, true) := by decide
/-- R98: "With R = 1 and S = 1000, D = 600000, so the period lasts 36000 tenths." -/
theorem test_period_longest : periodOf 1000 1 0 = (36000, 0, true) := by decide
/-- R98 by hand: 600 × 50 = 30000 = 857 × 35 + 5. -/
theorem test_period_remainder : periodOf 50 35 0 = (857, 5, false) := by decide

/-- R186 by hand: STATUS is LEN 1, KIND 1, CHK hex FE. -/
theorem test_status_frame : frameBytes 0x01 [] = [0xA5, 0x01, 0x01, 0xFE] := by decide
/-- R186: multi-byte numbers least significant byte first. -/
theorem test_byte_order : le4 0x01020304 = [0x04, 0x03, 0x02, 0x01] := by decide
/-- R165's table of waits. -/
theorem test_backoff : (backoffMs 1, backoffMs 2, backoffMs 3, backoffMs 4) = (120000, 300000, 900000, 3600000) := by
  decide
/-- R114: a string stands before the longer one it leads, and `*` after 9. -/
theorem test_table_order : stringBefore [.digit 9] [.star] = true ∧ stringBefore [.digit 1] [.digit 1, .digit 0] = true := by
  decide
/-- R141: three pulses whose first and last lie 10 s apart give one occurrence. -/
theorem test_three_pulses :
    ∃ t, exec .shockPulse { State.reset with now := 10000, incd := { State.reset.incd with window := [0, 5000] } } = .next t
      ∧ t.incd.map.map (fun e => (e.kind, e.count, e.active)) = [(.shock, 1, false)] ∧ t.incd.window = [] :=
  ⟨_, rfl, by decide, by decide⟩

/-- The instants of the pulses that the meter channel gives, its tone judged every 5 ms from the instant `t` on. -/
def meterPulsesFrom (t : Nat) (c : MeterChannel) : List Bool → List Nat
  | [] => []
  | p :: rest =>
    let r := meterInterval p 40 c
    (if r.2 = [] then [] else [t]) ++ meterPulsesFrom (t + 5) r.1 rest

/-- R49's worked sequence: the run 0..30 gives no pulse, and the run 200..280 a valid pulse at 280. -/
theorem test_meter_bursts :
    meterPulsesFrom 0 { active := true }
      (List.replicate 6 true ++ List.replicate 34 false ++ List.replicate 16 true ++ [false]) = [280] := by decide

/-- R6: WARNING is two 150 ms bursts 150 ms apart. -/
theorem test_warning_bursts :
    [0, 149, 150, 299, 300, 449, 450].map warningSounds = [true, true, false, false, true, true, false] := by decide
/-- R6: DEPOSIT is 425 Hz, 400 ms on and 400 ms off. -/
theorem test_deposit_tone : [0, 399, 400, 799, 800].map (cadenced 400 400)
    = [.tone 425, .tone 425, .muted, .muted, .tone 425] := by decide

/-- R188: an unknown KIND hex 20 is answered with KIND hex A0, UNKNOWN (4). -/
theorem test_unknown_command :
    ∃ t, exec (.unknownCommand 0x20 []) State.reset = .next t
      ∧ t.link.tx.map Sending.frame = some (frameBytes 0xA0 [4]) := ⟨_, rfl, by decide⟩

/-! ### A part at rest, and how a call and an attempt stand in it -/

/-- The running part with nothing going on. -/
def calm : State :=
  { State.reset with
    now := 1000000
    power := .running
    line := { State.reset.line with state := .free, guardTimer := none }
    coin := { State.reset.coin with mover := .idle, blind := false, exitTimer := none, run := .none }
    store := { State.reset.store with
      marker := .running
      clock := some 700000000
      nextTick := 1000500
      start := { State.reset.store.start with
        keysRead := true, hookRead := true, switchesRead := true, cordRead := true, voltageRead := true } } }

/-- A slot of a CHARGED call of class 2. -/
def slot : Slot := { record := { kind := .charged, cls := some 2, carriedIn := 100 }, offAt := 990000 }

/-- A call in a state. -/
def inCall (c : CallState) (s : State) : State :=
  { s with
    call := { s.call with state := c, level := some .full, openSlot := some slot }
    keys := { s.keys with hook := .offHook } }

/-- The line seized by an owner. -/
def seizedBy (o : Owner) (l : LineState) (s : State) : State :=
  { s with line := { s.line with
      state := l, owner := o, detectorTimer := some 1000003, armed := true
      progress := { active := true, dialTiming := true, busyWatch := true } } }

/-- Bank A ACTIVE, class 2 priced at 30 and 60 a minute. -/
def tariffed (s : State) : State :=
  { s with bank := { s.bank with a := { s.bank.a with
      state := .active
      contents := { s.bank.a.contents with
        defaultBand := some 0
        classes := s.bank.a.contents.classes.set 2 (some ⟨30, [60, 60, 60, 60]⟩)
        workday := [⟨0, 0⟩], saturday := [⟨0, 0⟩], sunday := [⟨0, 0⟩]
        table := [⟨[.digit 2], .charged, 2, 2, 3⟩] } } } }

/-- A rated call. -/
def rated (m : RatingMode) (s : State) : State :=
  { tariffed s with rate := { s.rate with
      phase := .running, cls := some 2, bank := some .a, step := 10, mode := some m
      acct := { carried := 100, charged := 40, unused := 60 } } }

/-- A report attempt in a state, with the line seized. -/
def attemptIn (r : ReportState) (s : State) : State :=
  { seizedBy .rpt .seized s with
    rpt := { s.rpt with
      state := r
      blocks := some [⟨List.replicate 8 (.digit 1), 1, .cordCut, true, 1, none, none⟩]
      sends := 1
      readyTimer := some 1030000, ackTimer := some 1004000, closeTimer := some 1003000 }
    line := { (seizedBy .rpt .seized s).line with centre := { active := true } } }

/-- The service key is on. -/
def served (s : State) : State := { s with vault := { s.vault with keyOn := true, service := .service } }

/-- A coin in the escrow. -/
def coinOf (v : Nat) : EscrowEntry := ⟨1, v, false, none, none, false⟩

/-! ### The hypotheses of the statements can be met -/

theorem witness_StepRunsFrontCommand :
    ({ calm with pending := [.hookOff, .clockTick] } : State).pending = .hookOff :: [.clockTick] := by decide

theorem witness_IdlePartAdvancesOrTakesOneEvent :
    calm.pending = [] ∧ dueCount calm = 0
      ∧ dueCount { calm with line := { calm.line with state := .guard, guardTimer := some 1000000 } } ≠ 0
      ∧ dueCount { calm with raised := [.shockPulse] } ≠ 0
      ∧ dueCount { calm with link := { calm.link with ended := [.sound 0x05 []] } } ≠ 0 := by decide

theorem witness_CommandsLeaveTheQueue : ∃ t, exec .clockTick { calm with pending := [.hookOff] } = .next t := ⟨_, rfl⟩

theorem witness_EveryStepKeepsCopiesCurrent :
    CopiesCurrent (finish calm calm) ∧ ∃ t, step { finish calm calm with pending := [.clockTick] } = .next t :=
  ⟨finish_copies calm calm, _, rfl⟩

theorem witness_EveryStepKeepsTheLinkInOrder :
    SenderBusy calm ∧ NoticesKept calm ∧ OneAtATime calm ∧ FrameInTurn calm
      ∧ ∃ t, step { calm with pending := [.clockTick] } = .next t :=
  ⟨fun _ => ⟨rfl, Or.inr rfl⟩, ⟨Nat.zero_le _, List.Pairwise.nil⟩, Or.inl rfl, nofun, _, rfl⟩

/-- CLOCK_GET has ended as a frame and is not yet taken; it is in turn. -/
def queued : State := { calm with link := { calm.link with ended := [.sound 0x05 []] } }

def inTurn : State :=
  { queued with link := { queued.link with turn := true }, pending := [frameCommand (.sound 0x05 [])] }

theorem witness_FrameInTurn : FrameInTurn inTurn ∧ inTurn.link.turn = true ∧ ∃ t, step inTurn = .next t :=
  ⟨fun _ => ⟨rfl, rfl, _, rfl⟩, rfl, _, rfl⟩

/-- R189: a row given directly goes behind the frame that waits; the idle part takes that frame first. -/
theorem test_rows_wait_behind_frames :
    ∃ t u v, exec (.vaultRead []) queued = .next t ∧ t.link.ended = [.sound 0x05 [], .sound 0x15 []] ∧ step t = .next u
      ∧ u.pending = [.clockGet []] ∧ u.link.turn = true ∧ step u = .next v ∧ v.link.turn = false
      ∧ v.link.ended = [.sound 0x15 []] ∧ v.link.tx.isSome = true :=
  ⟨_, _, _, rfl, by decide, rfl, by decide, by decide, rfl, by decide, by decide, by decide⟩

theorem witness_EveryStepKeepsBalanceAndOneActiveBank :
    AccountBalanced (rated .meter calm) ∧ OneActive (rated .meter calm)
      ∧ ∃ t, step { rated .meter calm with pending := [.clockTick] } = .next t :=
  ⟨rfl, fun h => absurd h.2 (by decide), _, rfl⟩

/-- A rated call with an accepted coin of 50 in the escrow. -/
def paying : State :=
  let s := rated .localTiming (inCall .connected calm)
  { s with
    pending := [.clockTick]
    config := { s.config with denomValue := [50, 0, 0, 0, 0, 0, 0, 0] }
    coin := { s.coin with escrow := [coinOf 50] }
    call := { s.call with openSlot := some (slot.modify (fun r => { r with accepted := [1, 0, 0, 0, 0, 0, 0, 0] })) } }

theorem witness_EveryStepKeepsBalance_coins :
    alive paying = true ∧ CoinsKept paying
      ∧ ∃ t, step paying = .next t ∧ t.config.denomValue = paying.config.denomValue := by
  refine ⟨by decide, ⟨⟨by decide, by decide, by decide, ?_, nofun, by decide, ?_, nofun, nofun, fun _ => by decide,
    nofun, nofun, nofun, nofun, fun h => absurd rfl h, nofun, by decide⟩,
    fun sl h => ((nofun : ¬ (none : Option Slot) = some sl) h).elim,
    fun sl r h => ((nofun : ¬ ([] : List Slot) = sl :: r) h).elim, ?_⟩, _, rfl, rfl⟩
  · rintro _ ⟨⟩ h; exact absurd h (by decide)
  · rintro _ ⟨⟩; decide
  · rintro _ ⟨⟩; exact Or.inr (by decide)

theorem witness_EveryStepKeepsLogConsecutive :
    LogKept calm ∧ ∃ t, step { calm with pending := [.clockTick] } = .next t :=
  ⟨⟨⟨by decide, trivial, by decide, by decide⟩, fun _ => ⟨by decide, trivial, by decide, by decide⟩,
    fun _ => ⟨by decide, trivial, by decide, by decide⟩⟩, _, rfl⟩

theorem witness_EveryStepKeepsReportFollowing :
    ReportFollows { calm with rpt := { calm.rpt with quietSince := some 1000000 } }
      ∧ ∃ t, step { calm with pending := [.clockTick] } = .next t :=
  ⟨fun _ => ⟨fun _ => by decide, fun h => absurd h (by decide), by decide⟩, _, rfl⟩

theorem witness_EveryStepKeepsIncidentMap :
    MapKept { calm with incd := { calm.incd with map := [⟨.shock, none, none, 1, 0, false⟩] } }
      ∧ ∃ t, step { calm with pending := [.clockTick] } = .next t :=
  ⟨⟨⟨by decide, by decide⟩, fun _ => ⟨by decide, by decide⟩, fun _ => ⟨by decide, by decide⟩⟩, _, rfl⟩

theorem witness_EveryStepKeepsEscrowRoomAndTableSizes :
    EscrowFits calm ∧ TablesKept calm ∧ ∃ t, step { calm with pending := [.clockTick] } = .next t :=
  ⟨⟨by decide, fun _ => by decide, fun _ => by decide⟩,
    ⟨by decide, by decide, by decide, by decide, by decide, by decide, by decide, by decide,
      ⟨fun _ => by decide, fun _ => by decide⟩, ⟨fun _ => by decide, fun _ => by decide⟩,
      ⟨fun _ => by decide, fun _ => by decide⟩, ⟨fun _ => by decide, fun _ => by decide⟩⟩, _, rfl⟩

theorem witness_NothingActsWithoutPowerOrBeforeARestart :
    Instr.hookOff ≠ .clockTick ∧ Instr.hookOff ≠ .transmitDone ∧ Instr.hookOff ≠ .jamLineAsserted
      ∧ Instr.hookOff ≠ .jamLineReleased ∧ (∀ l, Instr.hookOff ≠ .powerFail l) ∧ (∀ b m l, Instr.hookOff ≠ .powerUp b m l)
      ∧ ({ calm with power := .off } : State).power = .off ∧ ({ calm with power := .halted } : State).power = .halted :=
  ⟨by decide, by decide, by decide, by decide, fun _ => nofun, fun _ _ _ => nofun, rfl, rfl⟩

theorem witness_HostCommandsSurviveTheirFrames :
    (Instr.configSet (List.replicate 119 7)).wf = true
      ∧ hostFrame (.configSet (List.replicate 119 7)) = some (0x02, List.replicate 119 7)
      ∧ (Instr.unknownCommand 0 []).wf = true ∧ hostFrame (.unknownCommand 0 []) = some (0, [])
      ∧ LinkBlock.fresh.assembler = .hunt ∧ LinkBlock.fresh.lost = false ∧ LinkBlock.fresh.ended = []
      ∧ ∀ i : Nat, (fun j => 50 * j) (i + 1) ≤ (fun j => 50 * j) i + 50 :=
  ⟨by decide, rfl, by decide, rfl, rfl, rfl, rfl, fun i => by dsimp only; omega⟩

theorem witness_NumbersAndDigitStringsReadBack :
    0 < 256 ∧ 65535 < 65536 ∧ (List.replicate 24 Symbol.star).length ≤ 24 ∧ ([] : List Symbol).length ≤ 24 := by decide

/-- The assembler in each state: HUNT, LENGTH (with bytes 0, 1, 120 and 121), BODY before and at its end; a byte behind a
frame not yet taken; the end of a frame in hand. -/
def assembling (a : Assembler) : State := { calm with link := { calm.link with assembler := a, lastByteAt := 999950 } }

theorem witness_AssemblerTakesReceivedByte :
    alive (assembling .hunt) = true ∧ (assembling .hunt).link.ended = [] ∧ (assembling .hunt).link.input = []
      ∧ (assembling .hunt).now ≤ (assembling .hunt).link.lastByteAt + 50
      ∧ (assembling .hunt).link.assembler = .hunt ∧ (assembling .length).link.assembler = .length
      ∧ 1 ≤ (1 : Byte).toNat ∧ (120 : Byte).toNat ≤ 120 ∧ (0 : Byte).toNat = 0 ∧ 120 < (121 : Byte).toNat
      ∧ (assembling (.body 2 [1])).link.assembler = .body 2 [1] ∧ ([1] : List Byte).length ≠ 2
      ∧ (assembling (.body 2 [1, 9])).link.assembler = .body 2 (1 :: [9]) ∧ ([9] : List Byte).length + 1 = 2
      ∧ ({ assembling .hunt with link := { (assembling .hunt).link with ended := [.sound 1 []] } } : State).link.ended ≠ []
      ∧ alive (assembling .length) = true ∧ (assembling .length).link.assembler ≠ .hunt
      ∧ (assembling .length).link.input = [] := by decide

theorem witness_FaultsAndUnknownKindsAreAnswered :
    alive calm = true ∧ Takes calm ∧ Takes inTurn ∧ (Instr.unknownCommand 0 []).wf = true
      ∧ (Instr.unknownCommand 0x1D []).wf = true ∧ (Instr.unknownCommand 0x3F []).wf = true
      ∧ (Instr.unknownCommand 0x40 []).wf = true := by decide

/-- A frame being sent. -/
def sending (reply : Bool) (s : State) : State :=
  { s with link := { s.link with tx := some ⟨[0xA5], 1000010, reply⟩ } }

theorem witness_TransmitDoneChoosesTheNextFrame :
    (sending true calm).link.tx = some ⟨[0xA5], 1000010, true⟩ ∧ alive (sending true calm) = true
      ∧ ({ sending true calm with link := { (sending true calm).link with reply := some ⟨0x81, [0]⟩ } } : State).link.reply
          = some ⟨0x81, [0]⟩
      ∧ ({ sending true calm with link := { (sending true calm).link with notices := [⟨.hook, [1]⟩] } } : State).link.notices
          = ⟨.hook, [1]⟩ :: []
      ∧ (sending true calm).link.reply = none ∧ (sending true calm).link.notices = []
      ∧ ({ sending true calm with power := .halted } : State).power = .halted
      ∧ kindFor .restarting = .restart ∧ kindFor .clearing = .factory := by decide

/-- The part in a start. -/
def starting : State :=
  { calm with
    power := .starting
    store := { calm.store with start := { calm.store.start with
      beganAt := 999000, keysRead := false, hookRead := false, switchesRead := false, cordRead := false,
      voltageRead := false } } }

theorem witness_CommandsAreBusyDuringAStart :
    (Instr.clockGet []).wf = true ∧ hostFrame (.clockGet []) = some (0x05, []) ∧ namesCommand 0x05 = true
      ∧ (0x05 : Byte) ≠ 1 ∧ starting.power = .starting ∧ Takes starting
      ∧ Takes { inTurn with power := .starting } := by decide

theorem witness_EveryCommandGetsOneReply :
    (Instr.refundOne [0]).wf = true ∧ hostFrame (.refundOne [0]) = some (0x1A, [0]) ∧ namesCommand 0x1A = true
      ∧ namesCommand 0x01 = true ∧ namesCommand 0x1C = true ∧ Ready calm ∧ Ready inTurn
      ∧ alive queued = true ∧ queued.link.turn = false ∧ queued.link.ended ≠ []
      ∧ linkReady ({ calm.link with outstanding := some 0x1A }) = false
      ∧ linkReady ({ calm.link with reply := some ⟨0x81, [0]⟩ }) = false := by decide

theorem witness_StatusReportsAndClearsLoss :
    alive starting = true ∧ Takes starting ∧ alive inTurn = true ∧ Takes inTurn := by decide

theorem witness_ConfigSetTakesAllItemsOrNone :
    configSetArgs? ([17, 3] ++ le3 1000) = some [(17, le3 1000)] ∧ configSetArgs? ([17, 3] ++ le3 1) = some [(17, le3 1)]
      ∧ Ready calm ∧ configJoint calm.config = true
      ∧ (∃ c, configAfter calm [(17, le3 1000)] = some c) ∧ namesVault [(17, le3 1000)] = false
      ∧ configAfter calm [(17, le3 1001)] = none
      ∧ (∃ c, configAfter calm [(32, le2 1401)] = some c) ∧ namesVault [(32, le2 1401)] = true
      ∧ configSetArgs? ([36, 2] ++ le2 16383) = some [(36, le2 16383)] ∧ 16383 < 16384 :=
  ⟨by decide, by decide, by decide, by decide, ⟨_, rfl⟩, by decide, by decide, ⟨_, rfl⟩, by decide, by decide, by decide⟩

theorem witness_NoticeMaskSilencesKinds :
    ({ calm.config with masked := [.hook] } : ConfigItems).masked.contains .hook = true ∧ NoticeKind.hook ≠ .started
      ∧ calm.config.masked.contains .hook = false ∧ Ready calm
      ∧ configSetArgs? ([36, 2] ++ le2 1) = some [(36, le2 1)] ∧ namesVault [(36, le2 1)] = false
      ∧ (∃ c, configAfter calm [(36, le2 1)] = some c ∧ c.masked.contains .hook = true ∧ c.masked.contains .dialled = false)
      ∧ alive (sending true calm) = true ∧ (sending true calm).link.tx = some ⟨[0xA5], 1000010, true⟩
      ∧ (sending true calm).link.reply = none
      ∧ ({ sending true calm with link := { (sending true calm).link with notices := [⟨.hook, [1]⟩] } } : State).link.notices
          = ⟨.hook, [1]⟩ :: [] :=
  ⟨by decide, by decide, by decide, by decide, by decide, by decide, ⟨_, rfl, by decide, by decide⟩, by decide, by decide,
    by decide, by decide⟩

/-- The notice queue full. -/
def fullQueue : List Notice := ⟨.hook, []⟩ :: ⟨.credit, [1]⟩ :: List.replicate 30 ⟨.hook, []⟩

theorem witness_NoticeQueueRows :
    fullQueue = [⟨.hook, []⟩] ++ ⟨.credit, [1]⟩ :: List.replicate 30 ⟨.hook, []⟩ ∧ 32 ≤ fullQueue.length
      ∧ NoticeKind.credit.coalescible = true ∧ NoticeKind.vault.coalescible = true ∧ NoticeKind.coin.coalescible = false
      ∧ (∀ m ∈ fullQueue, m.kind ≠ .vault) ∧ (∀ m ∈ [(⟨.hook, []⟩ : Notice)], m.kind.coalescible = false)
      ∧ (∀ m ∈ List.replicate 32 (⟨.hook, []⟩ : Notice), m.kind.coalescible = false)
      ∧ (List.replicate 31 (⟨.hook, []⟩ : Notice)).length < 32 ∧ calm.config.masked.contains .coin = false := by decide

theorem witness_ReadingCommandsChangeNothing :
    Ready calm ∧ configGetArgs? [1, 37] = some [1, 37] ∧ [1, 37].all (fun i => decide (1 ≤ i) && decide (i ≤ 37)) = true
      ∧ (configGetBytes calm.config [1, 37]).length ≤ 118 ∧ bankOf? 1 = some .a ∧ bankOf? 2 = some .b
      ∧ (15 : Byte).toNat < 16
      ∧ logReadArgs? (le4 1 ++ [4]) = some (1, 4)
      ∧ readFrom 1 { records := [{ seq := 1 }], nextSeq := 2 } ≠ [] := by decide

theorem witness_ClockSetSetsTheClock :
    (le4 3155759999).length = 4 ∧ Ready calm ∧ 3155760000 ≤ ofLe (le4 3155760000) ∧ ofLe (le4 3155759999) < 3155760000
      ∧ pendingBank { calm with bank := { calm.bank with a := { calm.bank.a with state := .pending, due := some .now } } }
          = some .a
      ∧ pendingBank calm = none ∧ calm.store.clock = some 700000000
      ∧ Ready { calm with store := { calm.store with clock := none } } := by decide

theorem witness_IncidentListReportsTheMap :
    Ready calm ∧ 12 ≤ (12 : Byte).toNat ∧ (11 : Byte).toNat < 12 ∧ (0 : Byte).toNat < 12 := by decide

/-- Bank A in a state. -/
def bankA (b : BankState) (s : State) : State :=
  { s with bank := { s.bank with a := { s.bank.a with state := b, due := if b = .pending then some .now else none } } }

theorem witness_BankOpenEmptiesForLoading :
    (List.replicate 117 (0x41 : Byte)).length ≤ 117 ∧ bankOf? 0 = none ∧ bankOf? 3 = none
      ∧ 16 < (List.replicate 17 (0x41 : Byte)).length ∧ (List.replicate 16 (0x41 : Byte)).length ≤ 16
      ∧ (∀ c ∈ ([0x20, 0x7E] : List Byte), 0x20 ≤ c.toNat ∧ c.toNat ≤ 0x7E)
      ∧ (∃ c ∈ ([0x7F] : List Byte), c.toNat < 0x20 ∨ 0x7E < c.toNat) ∧ bankOf? 1 = some .a
      ∧ ((bankA .active calm).bank.get .a).state = .active ∧ ((bankA .retiring calm).bank.get .a).state = .retiring
      ∧ (calm.bank.get .a).state = .empty ∧ Ready calm ∧ Ready (bankA .active calm) ∧ Ready (bankA .retiring calm) := by
  decide

theorem witness_LoadingCommandsChangeOnlyTheirBank :
    Ready (bankA .loading calm) ∧ (putClassArgs? ([1, 31, 1, 30, 0, 0, 60, 0, 60, 0, 60, 0, 60, 0])).isSome = true
      ∧ (putEntryArgs? [1, 1, 0x02, 0, 2, 2, 3]).isSome = true ∧ (dropEntryArgs? [1, 1, 0x02]).isSome = true
      ∧ (scheduleArgs? [1, 0, 0, 0, 1]).isSome = true ∧ (holidayArgs? [1, 12, 25, 0]).isSome = true := by decide

theorem witness_LoadedTablesKeepOrderAndRoom :
    (∃ c, putClass 31 1 [30, 0, 0, 60, 0, 60, 0, 60, 0, 60, 0] BankContents.emptied = .ok c)
      ∧ (∃ c, putTableEntry (some ⟨[.digit 2], .charged, 2, 2, 3⟩) BankContents.emptied = .ok c)
      ∧ (∃ c, putDayPoint .saturday 1439 3 BankContents.emptied = .ok c)
      ∧ (∃ c, putHolidayEntry 2 29 1 (some 2024) BankContents.emptied = .ok c)
      ∧ (∃ c, putSchedule 3 1439 255 BankContents.emptied = .ok c) ∧ ∃ c, putSchedule 3 0 3 BankContents.emptied = .ok c :=
  ⟨⟨_, rfl⟩, ⟨_, rfl⟩, ⟨_, rfl⟩, ⟨_, rfl⟩, ⟨_, rfl⟩, ⟨_, rfl⟩⟩

theorem witness_BankCloseMakesTheClosingCheck :
    Ready (bankA .loading calm) ∧ bankOf? 1 = some .a ∧ bankOf? 3 = none
      ∧ ((bankA .loading calm).bank.get .a).state = .loading ∧ (calm.bank.get .a).state ≠ .loading
      ∧ closingFault (calm.bank.get .a).contents = some ⟨0, 0, none⟩
      ∧ closingFault ((tariffed calm).bank.get .a).contents = none
      ∧ closingFault { ((tariffed calm).bank.get .a).contents with classes := List.replicate 32 none }
          = some ⟨1, 0, some 2⟩ := by decide

theorem witness_BankActivateSchedulesOrActivates :
    (le4 nowTime).length = 4 ∧ bankOf? 1 = some .a ∧ whenOf? (ofLe (le4 nowTime)) = some .now
      ∧ whenOf? (ofLe (le4 3155759999)) = some (.time 3155759999)
      ∧ Ready (bankA .ready calm) ∧ ((bankA .ready calm).bank.get .a).state = .ready
      ∧ ((bankA .ready calm).bank.get (otherBank .a)).state ≠ .pending
      ∧ (calm.bank.get .a).state ≠ .ready
      ∧ activationReached calm .now = true ∧ activationReached calm (.time 700000000) = true
      ∧ activationReached calm (.time 700000001) = false
      ∧ alive (bankA .pending calm) = true ∧ pendingBank (bankA .pending calm) = some .a
      ∧ ((bankA .pending calm).bank.get .a).due = some .now
      ∧ ((bankA .pending calm).bank.get (otherBank .b)).state = .pending := by decide

theorem witness_BankCancelWithdraws :
    Ready calm ∧ bankOf? 2 = some .b ∧ bankOf? 0 = none ∧ ((bankA .pending calm).bank.get .a).state = .pending
      ∧ ((bankA .loading calm).bank.get .a).state = .loading ∧ (calm.bank.get .a).state ≠ .pending
      ∧ (calm.bank.get .a).state ≠ .loading := by decide

theorem witness_LogStoresDeliversAndReleases :
    calm.store.log.records.length < 64
      ∧ 64 ≤ ({ calm with store := { calm.store with log := { calm.store.log with
          records := List.replicate 64 {} } } } : State).store.log.records.length
      ∧ (le4 5).length = 4 ∧ Ready calm ∧ (∀ r ∈ calm.store.log.records, r.seq ≠ ofLe (le4 5))
      ∧ ([{ seq := 4 }, { seq := 5 }, { seq := 6 }] : List CallRecord) = [{ seq := 4 }] ++ { seq := 5 } :: [{ seq := 6 }]
      ∧ (∀ q ∈ ([{ seq := 4 }] : List CallRecord), q.seq ≠ ofLe (le4 5)) := by decide

/-- One active entry and one that is not. -/
def incidents : List Incident := [⟨.cordCut, none, none, 1, 0, true⟩, ⟨.shock, none, none, 2, 1, false⟩]

theorem witness_IncidentClearRemovesInactiveEntries :
    MapWf incidents ∧ Ready (served calm) ∧ (served calm).vault.service = .service ∧ calm.vault.service ≠ .service
      ∧ incidentScope? 1 = some (some .vaultForced) ∧ incidentScope? 12 = some (some .powerLoss)
      ∧ (∀ e ∈ incidents, e.kind ≠ .powerLoss)
      ∧ (∃ e ∈ incidents, e.kind = .cordCut ∧ e.active = true) ∧ (∃ e ∈ incidents, e.kind = .shock ∧ e.active = false)
      ∧ ∃ b : Byte, b = incidentAllByte :=
  ⟨⟨by decide, by decide⟩, by decide, by decide, by decide, by decide, by decide, by decide, by decide, by decide, _, rfl⟩

theorem witness_TerminalBlockSetsTheFlag :
    Ready calm ∧ ({ calm with config := { calm.config with terminalBlocked := true } } : State).config.terminalBlocked
      = true := by decide

/-- The report identity and number are set, and an incident is unreported. -/
def reportable (r : ReportState) (s : State) : State :=
  { s with
    config := { s.config with terminalId := List.replicate 8 (.digit 1), centreNumber := [.digit 5] }
    incd := { s.incd with map := incidents }
    rpt := { s.rpt with state := r, quietSince := some 400000 } }

theorem witness_ReportNowEndsAWait :
    Ready calm ∧ calm.config.terminalId = [] ∧ (reportable .wait calm).config.terminalId ≠ []
      ∧ (reportable .wait calm).config.centreNumber ≠ [] ∧ (reportable .wait calm).incd.map.any Incident.unreported = true
      ∧ calm.incd.map.any Incident.unreported = false ∧ attempting (reportable .seize calm).rpt.state = true
      ∧ attempting (reportable .close calm).rpt.state = true ∧ (reportable .readyToStart calm).rpt.state = .readyToStart
      ∧ (reportable .wait calm).rpt.state = .wait ∧ (reportable .wait calm).config.terminalId.length = 8 := by decide

theorem witness_ServiceActionsActInService :
    Ready (served calm) ∧ 4 ≤ (4 : Byte).toNat ∧ calm.vault.service ≠ .service ∧ (served calm).vault.service = .service
      ∧ callExists (inCall .collecting calm).call.state = true ∧ callExists calm.call.state = false
      ∧ ({ calm.coin with mover := .refunding } : CoinBlock).mover ≠ .idle ∧ calm.coin.mover = .idle
      ∧ ({ calm.coin with order := .outOfOrder } : CoinBlock).order = .outOfOrder ∧ calm.coin.order = .inOrder
      ∧ 1500 ≤ (1499 : Nat) + [coinOf 10].length ∧ calm.vault.counters.total + calm.coin.escrow.length < calm.config.vaultCapacity
      ∧ calm.coin.inletFault = false ∧ ({ calm.coin with inletFault := true } : CoinBlock).inletFault = true := by decide

theorem witness_RestartAnswersThenWaits :
    Ready calm ∧ calm.vault.service ≠ .service ∧ Ready (served calm) ∧ (served calm).vault.service = .service := by decide

theorem witness_PowerFailKeepsRetainedState : calm.power ≠ .off := by decide

/-- The latest step has counted a collected coin. -/
def counted : State :=
  { calm with store := { calm.store with areas := { calm.store.areas with written := [.call, .coin, .vault] } } }

theorem witness_PowerFailCutsWritesInOrder :
    AreaName.vault ∈ counted.store.areas.written ∧ AreaName.call ∈ counted.store.areas.written
      ∧ AreaName.coin ∈ counted.store.areas.written
      ∧ cutWrites [.coin, .log] counted = [.coin] ∧ cutWrites [.call] counted = [.call, .coin]
      ∧ cutWrites [.vault] counted = [.call, .coin, .vault] := by decide

/-- No copy of the configuration is sound. -/
def lostConfig : State :=
  { calm with power := .off, store := { calm.store with areas := { calm.store.areas with
      config := { one := ⟨ConfigItems.default, 0, false⟩, two := ⟨ConfigItems.default, 1, false⟩ } } } }

theorem witness_PowerUpTakesStartingState :
    ({ calm with power := .off } : State).power = .off ∧ kindOfMarker .clearing = .factory ∧ kindOfMarker .running ≠ .factory
      ∧ (∃ c, ({ calm with power := .off } : State).store.areas.config.newest = some c)
      ∧ lostConfig.power = .off ∧ lostConfig.store.areas.config.newest = none :=
  ⟨rfl, by decide, by decide, ⟨_, rfl⟩, rfl, by decide⟩

/-- The power has gone off in the middle of a call: what CALL's, COIN's and LOG's areas hold. -/
def cutOff (a : CallArea) (c : CoinArea) (g : LogArea) : State :=
  { calm with power := .off, store := { calm.store with areas := { calm.store.areas with
      call := Area.both a, coin := Area.both c, log := Area.both g } } }

theorem witness_PowerUpTreatsRecordsAndEscrow :
    (∃ a, (cutOff { openSlot := some slot } {} {}).store.areas.call.newest = some a ∧ a.contents.openSlot = some slot
        ∧ a.contents.closingSlot = none ∧ a.contents.atStart = [])
      ∧ (∃ c, (cutOff {} { escrow := [coinOf 50, coinOf 20] } {}).store.areas.coin.newest = some c
        ∧ c.contents.escrow.map (fun e => { e with entryAt := none }) = coinOf 50 :: [coinOf 20]
        ∧ c.contents.order = .inOrder)
      ∧ headMoving [{ coinOf 50 with moving := some (.collect, 7) }, coinOf 20]
          = some ({ coinOf 50 with moving := some (.collect, 7) }, .collect, 7)
      ∧ headMoving [coinOf 50] = none
      ∧ (∃ a, (cutOff { openSlot := some slot, closingSlot := some { slot with offAt := 980000 } } {} {}).store.areas.call.newest
          = some a ∧ a.contents.closingSlot = some { slot with offAt := 980000 })
      ∧ (∃ g, (cutOff {} {} { handed := some 990000 }).store.areas.log.newest = some g ∧ g.contents.handed = some 990000
        ∧ slot.offAt ≤ 990000)
      ∧ (∃ v, (cutOff {} {} {}).store.areas.vault.newest = some v)
      ∧ ({ (Area.both {} : Area CoinArea) with
            one := ⟨{}, 0, false⟩, two := ⟨{}, 1, false⟩ } : Area CoinArea).newest = none
      ∧ ({ one := ⟨{}, 0, false⟩, two := ⟨{}, 1, false⟩ } : Area CallArea).newest = none
      ∧ (cutOff {} {} {}).power = .off ∧ kindOfMarker .running ≠ .factory :=
  ⟨⟨_, rfl, rfl, rfl, rfl⟩, ⟨_, rfl, rfl, rfl⟩, rfl, rfl, ⟨_, rfl, rfl⟩, ⟨_, rfl, rfl, by decide⟩, ⟨_, rfl⟩, rfl, rfl, rfl,
    by decide⟩

theorem witness_FirstReadingsCompleteTheStart :
    starting.power = .starting ∧ starting.store.start.keysRead = false ∧ starting.store.start.hookRead = false
      ∧ starting.store.start.switchesRead = false ∧ starting.store.start.cordRead = false
      ∧ starting.store.start.voltageRead = false ∧ readingsGiven starting.store.start = false
      ∧ ({ calm with power := .starting } : State).power = .starting ∧ readingsGiven calm.store.start = true
      ∧ calm.coin.run ≠ .startUp ∧ calm.coin.run ≠ .purge := by decide

/-- A key in a state. -/
def keyIn (k : Key) (c : KeyState) (s : State) : State := setCell k { state := c, stuckTimer := some 1020000 } s

theorem witness_KeysPressBlockStickAndRelease :
    alive calm = true ∧ calm.store.start.keysRead = true ∧ calm.keys.cells.length = 13
      ∧ (cellOf .star calm.keys).state = .released ∧ otherPressed .star calm.keys = false
      ∧ otherPressed .star (keyIn .hash .pressed calm).keys = true
      ∧ (cellOf .star (keyIn .star .stuck calm).keys).state ≠ .released
      ∧ (cellOf .followOn (keyIn .followOn .pressed calm).keys).state = .pressed
      ∧ (cellOf .followOn (keyIn .followOn .pressed calm).keys).stuckTimer = some 1020000
      ∧ (cellOf (.digit 0) (keyIn (.digit 0) .blocked calm).keys).state = .blocked
      ∧ Key.star ≠ .followOn ∧ collecting calm.keys.collection = false := by decide

/-- A call settling a step of 60 with 20 unused. -/
def settling : State :=
  { rated .localTiming (inCall .connected calm) with rate := { (rated .localTiming calm).rate with
      phase := .settling, acct := { carried := 100, charged := 80, unused := 20, due := 60 } } }

theorem witness_KeysTakeAFollowOnPress :
    (cellOf .followOn settling.keys).state = .released ∧ otherPressed .followOn settling.keys = false
      ∧ settling.call.state = .connected ∧ openKind settling = .charged ∧ settling.rate.phase ≠ .grace
      ∧ 0 < settling.rate.acct.due ∧ (rated .localTiming (inCall .connected calm)).rate.acct.due = 0
      ∧ rating (rated .localTiming (inCall .connected calm)) = true
      ∧ (rated .localTiming (inCall .connected calm)).call.openSlot = some slot ∧ settling.call.closingSlot = none
      ∧ settling.call.atStart = [] ∧ settling.coin.run = .none ∧ settling.store.log.records.length < 64
      ∧ calm.call.state ≠ .connected
      ∧ ({ settling.rate with phase := .grace } : RateBlock).phase = .grace := by decide

/-- Digits being collected. -/
def dialling (ds : List Symbol) : State :=
  { inCall .collecting (tariffed calm) with
    keys := { (inCall .collecting calm).keys with
      collection := .collectingDigits, buffer := ds, interDigitTimer := some 1006000 } }

theorem witness_DialledSymbolsAreStoredAndMatched :
    alive (dialling [.star]) = true ∧ (dialling [.star]).store.start.keysRead = true
      ∧ (dialling [.star]).keys.cells.length = 13 ∧ (cellOf (.digit 9) (dialling [.star]).keys).state = .released
      ∧ otherPressed (.digit 9) (dialling [.star]).keys = false ∧ collecting (dialling [.star]).keys.collection = true
      ∧ symbolKey (.digit 9) = .digit 9 ∧ symbolKey .star = .star
      ∧ (cellOf .star (dialling [.star]).keys).state = .released ∧ otherPressed .star (dialling [.star]).keys = false
      ∧ (dialling [.star]).call.state = .collecting ∧ 24 ≤ (List.replicate 24 Symbol.star).length
      ∧ (dialling (List.replicate 23 .star)).keys.buffer.length < 24
      ∧ (dialling [.star]).config.emergency.all (fun e => decide (e ≠ [Symbol.star, Symbol.digit 9])) = true
      ∧ bestMatch [Symbol.star, Symbol.digit 9] (activeTable (dialling [.star])) = none
      ∧ bestMatch [Symbol.digit 2, Symbol.digit 9] (activeTable (dialling [.star]))
          = some ⟨[.digit 2], .charged, 2, 2, 3⟩ := by decide

/-- The number 22, with the entry that leads it as the stored best match. -/
def matched : State :=
  { dialling [.digit 2, .digit 2] with keys := { (dialling [.digit 2, .digit 2]).keys with
      best := some ⟨[.digit 2], .charged, 2, 2, 3⟩ } }

/-- A report attempt holds the line. -/
def attempted : State :=
  { matched with line := (attemptIn .awaitReady calm).line, rpt := (attemptIn .awaitReady calm).rpt }

theorem witness_DialledSymbolsCompleteNumbers :
    [Symbol.digit 1, Symbol.digit 2] ∈ ([[.digit 1, .digit 2], [], [], []] : List (List Symbol))
      ∧ bestMatch [.digit 2, .digit 2, .digit 9] (activeTable matched) = some ⟨[.digit 2], .charged, 2, 2, 3⟩
      ∧ (3 : Nat) ≤ matched.keys.buffer.length + 1 ∧ [Symbol.digit 2, .digit 2, .digit 9] ∉ matched.config.emergency
      ∧ matched.call.openSlot = some slot ∧ alive matched = true
      ∧ (cellOf .hash matched.keys).state = .released ∧ otherPressed .hash matched.keys = false
      ∧ matched.keys.best = some ⟨[.digit 2], .charged, 2, 2, 3⟩ ∧ (2 : Nat) ≤ matched.keys.buffer.length
      ∧ bestMatch matched.keys.buffer (activeTable matched) = some ⟨[.digit 2], .charged, 2, 2, 3⟩
      ∧ matched.keys.interDigitTimer = some 1006000 ∧ matched.call.state = .collecting
      ∧ (dialling [.digit 2]).keys.buffer.length < 2 ∧ (dialling [.digit 2]).keys.collection = .collectingDigits
      ∧ bestMatch [.digit 2] (activeTable (dialling [.digit 2])) = some ⟨[.digit 2], .charged, 2, 2, 3⟩ := by decide

theorem witness_NumberDone :
    BareCall matched slot ∧ serviceLevel matched = .full ∧ serviceLevel (inCall .collecting calm) = .emergencyOnly
      ∧ (activeBank matched).bind (fun n => priceIn matched n 2) = some ⟨30, [60, 60, 60, 60]⟩
      ∧ 30 + matched.config.chargeStep ≤ slot.record.carriedIn + callE matched
      ∧ ¬ (30 + matched.config.chargeStep ≤ 39 + callE matched)
      ∧ matched.line.state = .free ∧ matched.line.owner = .none ∧ matched.store.start.voltageRead = true
      ∧ ({ matched.line with state := .guard } : LineBlock).owner = .none
      ∧ attempted.line.owner = .rpt ∧ attempting attempted.rpt.state = true ∧ BareCall attempted slot
      ∧ Symbol.star ∈ (dialling [.star]).keys.buffer ∧ BareCall (dialling [.star]) slot := by decide

/-- A call in CLEARING, the refund run under way with nothing between it and the log. -/
def clearing : State :=
  { inCall .clearing calm with
    call := { (inCall .clearing calm).call with refundAsked := true, replaced := true }
    coin := { calm.coin with run := .callEnd }
    keys := { calm.keys with hook := .onHook } }

theorem witness_HookInClearing :
    clearing.call.state = .clearing ∧ clearing.keys.hook = .onHook ∧ attempting clearing.rpt.state = false
      ∧ clearing.call.replaced = true ∧ clearing.rate.phase = .inactive ∧ clearing.coin.transit = none
      ∧ clearing.call.refundAsked = true ∧ clearing.coin.run = .callEnd ∧ clearing.call.closingSlot = none
      ∧ alive clearing = true ∧ clearing.store.start.hookRead = true
      ∧ (inCall .clearing calm).keys.hook = .offHook ∧ (inCall .clearing calm).call.replaced ≠ true := by decide

theorem witness_HookOffBeginsACall :
    alive calm = true ∧ calm.store.start.hookRead = true ∧ calm.keys.hook = .onHook ∧ calm.call.state = .idle
      ∧ attempting calm.rpt.state = false ∧ attempting (attemptIn .awaitReady calm).rpt.state = true
      ∧ (attemptIn .awaitReady calm).call.state = .idle := by decide

theorem witness_UserAndTimersEndBareCalls :
    alive (dialling [.star]) = true ∧ BareCall (dialling [.star]) slot
      ∧ endable (dialling [.star]).call.state = true ∧ (dialling [.star]).store.start.hookRead = true
      ∧ (dialling [.star]).keys.hook = .offHook ∧ (dialling [.star]).keys.interDigitTimer = some 1006000
      ∧ (dialling [.star]).keys.collection = .collectingDigits ∧ (dialling [.star]).call.state = .collecting
      ∧ analyse (dialling [.star]) = none
      ∧ ({ calm.keys with collection := .awaitFirst, firstDigitTimer := some 1020000 } : KeysBlock).collection = .awaitFirst
      ∧ BareCall (inCall .awaitDeposit calm) slot ∧ (inCall .awaitDeposit calm).call.state = .awaitDeposit
      ∧ BareCall (inCall .ringing calm) slot ∧ (inCall .ringing calm).call.state = .ringing
      ∧ BareCall { inCall .ringing calm with coin := { calm.coin with run := .purge, mover := .refunding } } slot := by
  decide

/-- A call on the line. -/
def onLine (c : CallState) (l : LineState) : State := seizedBy .call l (inCall c calm)

theorem witness_LineReportsEndBareCalls :
    BareCall (onLine .seizing .seizedWaitTone) slot ∧ (onLine .seizing .seizedWaitTone).line.owner = .call
      ∧ (onLine .seizing .seizedWaitTone).line.reported = false
      ∧ loopClosed (onLine .seizing .seizedWaitTone).line.state = true
      ∧ (onLine .seizing .seizedWaitTone).line.progress.busyWatch = true ∧ takesBusy .seizing = true
      ∧ takesBusy .ringing = true ∧ takesLoss .seizing = true ∧ takesLoss .connected = true
      ∧ watchRuns (onLine .connected .seized).line = true ∧ (onLine .connected .seized).call.state = .connected
      ∧ alive (onLine .connected .seized) = true := by decide

/-- A rated call on the line, with a step held since the loop current went absent. -/
def absentRated : State :=
  { rated .localTiming (onLine .connected .seized) with
    line := { (onLine .connected .seized).line with absentSince := some 999700, answered := true, reversed := true }
    rate := { (rated .localTiming calm).rate with held := [⟨999800, 10, true⟩] } }

theorem witness_RatedCallsEnd :
    RatedCall absentRated slot ∧ endable absentRated.call.state = true ∧ absentRated.store.start.hookRead = true
      ∧ absentRated.keys.hook = .offHook ∧ absentRated.line.owner = .call ∧ absentRated.line.reported = false
      ∧ absentRated.line.absentSince = some 999700 ∧ watchRuns absentRated.line = true
      ∧ takesLoss absentRated.call.state = true ∧ absentRated.line.state = .seized ∧ absentRated.line.reversed = true
      ∧ absentRated.line.answered = true ∧ absentRated.call.state = .connected ∧ absentRated.coin.escrow = []
      ∧ RatedCall { absentRated with coin := { calm.coin with escrow := [coinOf 50] } } slot
      ∧ absentRated.coin.order = .inOrder ∧ heldUpTo 999700 absentRated = []
      ∧ heldUpTo 1000000 absentRated = [⟨999800, 10, true⟩] ∧ alive absentRated = true := by decide

theorem witness_CallTimersActInTheirStates :
    alive calm = true ∧ (inCall .abandoned calm).call.state = .abandoned ∧ (inCall .connected calm).call.state = .connected
      ∧ ({ calm.rate with phase := .warning } : RateBlock).phase = .warning
      ∧ ({ calm.rate with phase := .grace } : RateBlock).phase = .grace
      ∧ callExists (inCall .collecting calm).call.state = true ∧ (inCall .collecting calm).call.openSlot = some slot
      ∧ (inCall .abandoned calm).keys.hook = .offHook ∧ calm.store.start.hookRead = true
      ∧ ({ calm.call with abandonedTimer := some 1600000 } : CallBlock).abandonedTimer = some 1600000 := by decide

theorem witness_EarpieceSounds :
    (inCall .connected calm).call.state = .connected ∧ calm.call.state ≠ .connected ∧ calm.call.lastWarning = none
      ∧ ({ calm.call with earpiece := .line, lastWarning := some 999551 } : CallBlock).lastWarning = some 999551
      ∧ (1000000 : Nat) - 999551 = 449 ∧ ({ calm.call with earpiece := .reject } : CallBlock).earpiece = .reject := by decide

theorem witness_LineSeizesSendsAndReports :
    ({ calm.line with state := .guard, guardTimer := some 1000001 } : LineBlock).guardTimer = some 1000001
      ∧ (inCall .waitLine calm).call.state = .waitLine ∧ calm.line.owner = .none
      ∧ unsendable .dtmf [.star] = false ∧ (inCall .followOnClearing calm).call.state = .followOnClearing
      ∧ (onLine .seizing .seizedWaitTone).line.progress.dialTiming = true
      ∧ (onLine .sending .sending).line.state = .sending ∧ (onLine .sending .sending).line.reported = false
      ∧ listening (attemptIn .send calm).line = true ∧ (attemptIn .send calm).rpt.state = .send
      ∧ (blockInHand (attemptIn .send calm).rpt).isSome = true
      ∧ (blockInHand { (attemptIn .send calm).rpt with index := 1 }).isNone = true ∧ alive calm = true := by decide

theorem witness_LineInputsAreWatched :
    watchRuns (onLine .connected .seized).line = true ∧ (onLine .connected .seized).line.absentSince = none
      ∧ (onLine .connected .seized).line.armed = true ∧ loopClosed calm.line.state = false
      ∧ calm.store.start.voltageRead = true ∧ calm.line.watch = .present
      ∧ (onLine .connected .seized).line.detectorTimer = some 1000003
      ∧ listening (onLine .connected .seized).line = true ∧ (onLine .connected .seized).line.progress.active = true
      ∧ ({ (onLine .seizing .seizedWaitTone).line.progress with run := ⟨true, 295⟩ } : ProgressChannel).run
          = ⟨true, 295⟩ := by decide

/-- A line in SEIZED whose three channels have just been given these runs. -/
def hearing (g : Run) (b : Option Burst) (gap : Option Nat) (r : Run) : State :=
  { onLine .connected .seized with line := { (onLine .connected .seized).line with
      progress := { active := true, busyWatch := true, run := g, runOk := true, cycles := 2 }
      meter := { active := true, burst := b, gap := gap }
      centre := { active := true, run := r, candidate := some .ack, latest := some .ack, count := 1 } } }

theorem witness_ToneChannels :
    listening (hearing ⟨false, 395⟩ none (some 95) ⟨false, 155⟩).line = true
      ∧ (hearing ⟨false, 395⟩ none (some 95) ⟨false, 155⟩).line.detectorTimer = some 1000003
      ∧ (hearing ⟨true, 595⟩ none (some 90) ⟨true, 995⟩).line.progress.busyWatch = true
      ∧ (hearing ⟨true, 600⟩ none none ⟨true, 635⟩).line.meter.gap = none
      ∧ (hearing ⟨true, 390⟩ (some ⟨495, 40, false⟩) none ⟨true, 155⟩).line.meter.broken = false
      ∧ (hearing ⟨true, 395⟩ (some ⟨500, 40, false⟩) none ⟨true, 150⟩).line.meter.burst = some ⟨500, 40, false⟩
      ∧ (hearing ⟨false, 600⟩ (some ⟨35, 40, false⟩) none ⟨false, 240⟩).line.centre.hold = false
      ∧ windowOf 160 = some .ack ∧ windowOf 155 = none ∧ windowOf 640 = some .ready ∧ windowOf 645 = none
      ∧ ({ active := true, hold := true, run := ⟨false, 395⟩ } : CentreChannel).run.ms + 5 = 400 := by decide

theorem witness_ReversalAnswersTheCall :
    alive (tariffed (onLine .ringing .seized)) = true ∧ callSeized (onLine .ringing .seized).line = true
      ∧ (onLine .ringing .seized).line.reversed = false ∧ (onLine .ringing .seized).line.answered = false
      ∧ calm.config.reversalAnswer = true ∧ (onLine .ringing .seized).call.state = .ringing
      ∧ (onLine .ringing .seized).call.openSlot = some slot ∧ slot.record.kind = .charged ∧ slot.record.cls = some 2
      ∧ activeBank (tariffed calm) = some .a ∧ priceIn (tariffed calm) .a 2 = some ⟨30, [60, 60, 60, 60]⟩
      ∧ calm.config.ratingMode = .localTiming ∧ calm.call.heldFollowOn = false
      ∧ 0 < rateIn (tariffed calm) .a 2 (resolveBand (tariffed calm) .a).1
      ∧ 30 + calm.config.chargeStep ≤ slot.record.carriedIn ∧ NumberKind.free ≠ .charged := by decide

theorem witness_AnswerWaitsForCoins :
    39 < 30 + calm.config.chargeStep ∧ (39 : Nat) + 1 = 30 + calm.config.chargeStep
      ∧ escrowElsewhere (onLine .ringing .seized) = false ∧ (onLine .ringing .seized).coin.mover = .idle
      ∧ (onLine .ringing .seized).coin.order = .inOrder ∧ (onLine .ringing .seized).coin.escrow = []
      ∧ (onLine .ringing .seized).coin.transit = none := by decide

/-- The settlements that the other clauses are about: a coin path busy with another stroke, and a held FOLLOW-ON press. -/
theorem witness_SettlementForms :
    ({ calm.coin with mover := .refunding } : CoinBlock).mover = .refunding
      ∧ ({ calm.coin with mover := .collecting, blind := true } : CoinBlock).blind = true
      ∧ escrowElsewhere { calm with call := { calm.call with closingSlot := some slot } } = true
      ∧ ({ (inCall .connected calm).call with heldFollowOn := true } : CallBlock).heldFollowOn = true
      ∧ (inCall .connected calm).call.openSlot = some slot ∧ calm.call.closingSlot = none ∧ calm.call.atStart = []
      ∧ calm.coin.run = .none ∧ calm.store.log.records.length < 64
      ∧ phaseTold .running .running 5 calm.call = calm.call ∧ calm.coin.order = .inOrder := by decide

theorem witness_AnswerIsRefusedOrIgnored :
    activeBank (onLine .ringing .seized) = none ∧ BareCall (onLine .ringing .seized) slot
      ∧ priceIn (tariffed calm) .a 3 = none ∧ (onLine .connected .seized).call.state ≠ .ringing
      ∧ callSeized (onLine .connected .seized).line = true
      ∧ ({ calm.config with reversalAnswer := false } : ConfigItems).reversalAnswer = false := by decide

/-- A rated call on the line, answered, the meter channel listening. -/
def metered (m : RatingMode) : State :=
  { rated m (onLine .connected .seized) with
    line := { (onLine .connected .seized).line with answered := true, meter := { active := true } } }

/-- A metered call whose loop current has been absent for 300 ms. -/
def absentMetered : State :=
  { metered .meter with line := { (metered .meter).line with absentSince := some 999700 } }

theorem witness_MeterPulsesAreCharged :
    alive (metered .meter) = true ∧ callSeized (metered .meter).line = true ∧ (metered .meter).line.meter.active = true
      ∧ (metered .meter).line.answered = true ∧ rating (metered .meter) = true
      ∧ (metered .meter).rate.mode = some .meter
      ∧ (metered .meter).rate.acct.due + (metered .meter).rate.step = 10
      ∧ (metered .meter).rate.step ≤ (metered .meter).rate.acct.unused ∧ (metered .meter).call.heldFollowOn = false
      ∧ (metered .localTiming).rate.mode = some .localTiming
      ∧ ({ calm.config with ratingMode := .meter } : ConfigItems).ratingMode = .meter
      ∧ (onLine .ringing .seized).line.answered = false
      ∧ rating (metered .meterFallback) = true ∧ (metered .meterFallback).rate.mode = some .meterFallback
      ∧ rating calm = false ∧ (∀ since, (metered .meter).line.absentSince = some since → (metered .meter).now ≤ since)
      ∧ absentMetered.line.absentSince = some 999700 ∧ 999700 < absentMetered.now ∧ alive absentMetered = true
      ∧ callSeized absentMetered.line = true ∧ absentMetered.line.meter.active = true := by
  refine ⟨by decide, by decide, by decide, by decide, by decide, by decide, by decide, by decide, by decide, by decide,
    by decide, by decide, by decide, by decide, by decide, nofun, by decide, by decide, by decide, by decide, by decide⟩

/-- The same part before its first reading of the line voltage has ended. -/
def unread (s : State) : State :=
  { s with store := { s.store with start := { s.store.start with voltageRead := false } } }

theorem witness_ReportAttemptRunsItsCourse :
    mayStart (reportable .readyToStart calm) = true ∧ mayStart calm = false
      ∧ mayStart (reportable .readyToStart (unread calm)) = true ∧ (unread calm).store.start.voltageRead = false
      ∧ unsendable calm.config.sendingMethod ([Symbol.digit 5].map Symbol.dtmf) = false
      ∧ calm.store.start.voltageRead = true ∧ listening (attemptIn .awaitReady calm).line = true
      ∧ (attemptIn .awaitReady calm).line.state = .seized ∧ (attemptIn .awaitReady calm).line.owner = .rpt
      ∧ (attemptIn .awaitReady calm).line.centre.active = true ∧ (attemptIn .awaitReady calm).line.centre.hold = false
      ∧ (attemptIn .awaitReady calm).line.sender = none ∧ (attemptIn .awaitReady calm).rpt.state = .awaitReady
      ∧ blocksFrom [] 1 (wantedEntries (reportable .awaitReady calm)) ≠ [] ∧ wantedEntries calm = []
      ∧ (attemptIn .awaitAck calm).rpt.state = .awaitAck ∧ (blockInHand (attemptIn .awaitAck calm).rpt).isSome = true
      ∧ (attemptIn .close calm).rpt.state = .close ∧ (attemptIn .awaitAck calm).rpt.sends < 3
      ∧ ((attemptIn .awaitAck calm).rpt.blocks.getD [])[(attemptIn .awaitAck calm).rpt.index + 1]? = none
      ∧ (blocksFrom [] 1 incidents)[0 + 1]? = some ⟨[], 2, .shock, false, 2, none, none⟩
      ∧ 3 ≤ ({ (attemptIn .awaitAck calm).rpt with sends := 3 } : RptBlock).sends
      ∧ Cadence.bye ≠ .ready ∧ Cadence.ready ≠ .ack ∧ Cadence.ready ≠ .again ∧ Cadence.ack ≠ .bye := by decide

theorem witness_ReportTimersFailCompleteAndWait :
    (attemptIn .awaitReady calm).rpt.readyTimer = some 1030000 ∧ (attemptIn .awaitReady calm).line.state = .seized
      ∧ (attemptIn .awaitAck calm).rpt.ackTimer = some 1004000 ∧ (blockInHand (attemptIn .awaitAck calm).rpt).isSome = true
      ∧ (attemptIn .awaitAck calm).rpt.sends < 3 ∧ 3 ≤ ({ (attemptIn .awaitAck calm).rpt with sends := 3 } : RptBlock).sends
      ∧ (attemptIn .close calm).rpt.closeTimer = some 1003000
      ∧ ({ calm.rpt with state := .wait, backoffTimer := some 1120000, minuteTimer := some 1060000 } : RptBlock).state = .wait
      ∧ alive (attemptIn .awaitAck calm) = true := by decide

theorem witness_ValidatorAcceptsOnElevenTests :
    alive calm = true
      ∧ rejectReason 8 { inCall .collecting calm with
          config := { calm.config with denomEnabled := List.replicate 8 true } } = none
      ∧ rejectReason 0 calm = some .unrecognised ∧ rejectReason 9 calm = some .unrecognised := by decide

/-- A coin in entry transit. -/
def transiting : State :=
  { inCall .collecting calm with coin := { calm.coin with transit := some ⟨1, 10, false, 999500, 1000500⟩ } }

theorem witness_EntryTransitEndsConfirmedOrNot :
    alive transiting = true ∧ transiting.coin.transit = some ⟨1, 10, false, 999500, 1000500⟩
      ∧ transiting.call.openSlot = some slot ∧ Undisturbed transiting ∧ rating transiting = false
      ∧ transiting.call.state ≠ .awaitDeposit := by decide

/-- A coin of 10 in entry transit in a call that awaits a deposit, and in a rated one. -/
def depositing (deposit : Nat) : State :=
  { transiting with call := { transiting.call with state := .awaitDeposit, deposit := deposit } }

def ratedTransit (due : Nat) : State :=
  { settling with
    coin := transiting.coin
    rate := { settling.rate with acct := { settling.rate.acct with due := due } } }

theorem witness_CoinsMeetDepositsAndSettlements :
    Undisturbed (depositing 110) ∧ rating (depositing 110) = false ∧ (depositing 110).call.state = .awaitDeposit
      ∧ (depositing 111).call.openSlot = some slot ∧ slot.record.carriedIn + callE (depositing 111) + 10 < 111
      ∧ 110 ≤ slot.record.carriedIn + callE (depositing 110) + 10
      ∧ unsendable (depositing 110).config.sendingMethod ((depositing 110).keys.buffer.map Symbol.dtmf) = false
      ∧ Undisturbed (ratedTransit 60) ∧ rating (ratedTransit 60) = true ∧ (ratedTransit 60).call.state ≠ .awaitDeposit
      ∧ (ratedTransit 60).coin.transit = some ⟨1, 10, false, 999500, 1000500⟩
      ∧ (ratedTransit 60).rate.acct.unused < (ratedTransit 60).rate.acct.due ∧ (ratedTransit 0).rate.acct.due = 0
      ∧ (ratedTransit 0).call.openSlot = some slot ∧ alive (ratedTransit 0) = true := by decide

theorem witness_StrayReportsChangeNothing :
    alive calm = true ∧ calm.coin.transit = none ∧ calm.coin.mover ≠ .collecting ∧ calm.coin.mover ≠ .refunding := by decide

theorem witness_InletFaultsAndLockouts :
    alive calm = true ∧ calm.pins.jam = false
      ∧ ({ calm.coin with jamTimer := some 1001000, lockoutTimer := some 1060000 } : CoinBlock).jamTimer = some 1001000
      ∧ ({ calm.coin with jamTimer := some 1001000, lockoutTimer := some 1060000 } : CoinBlock).lockoutTimer
          = some 1060000 := by decide

/-- The head of the escrow in a stroke. -/
def stroking (k : Stroke) (s : State) : State :=
  { s with coin := { s.coin with
      mover := moverOf k, exitTimer := some 1000800, strokeNo := 7
      escrow := [{ coinOf 50 with moving := some (k, 7) }, coinOf 20] } }

/-- A call whose escrow is being refunded. -/
def refunding : State :=
  { inCall .clearing (stroking .refund calm) with
    call := { (inCall .clearing calm).call with refundAsked := true }
    coin := { (stroking .refund calm).coin with run := .callEnd } }

/-- A blind stroke of the host's. -/
def blindStroke (k : Stroke) : State :=
  { served calm with
    coin := { calm.coin with mover := moverOf k, exitTimer := some 1000800, blind := true }
    link := { calm.link with outstanding := some 0x1A } }

theorem witness_StrokesEndAtTheirSensors :
    (stroking .collect settling).coin.mover = .collecting ∧ (stroking .collect settling).coin.blind = false
      ∧ (stroking .collect settling).coin.escrow = { coinOf 50 with moving := some (.collect, 7) } :: [coinOf 20]
      ∧ Undisturbed (stroking .collect settling)
      ∧ rating (stroking .collect settling) = true ∧ 0 < settling.rate.acct.due
      ∧ settling.rate.acct.due ≤ settling.rate.acct.unused + (coinOf 50).value ∧ settling.call.heldFollowOn = false
      ∧ refunding.coin.mover = .refunding ∧ refunding.coin.blind = false
      ∧ refunding.coin.escrow = { coinOf 50 with moving := some (.refund, 7) } :: coinOf 20 :: []
      ∧ refunding.coin.run = .callEnd ∧ refunding.coin.order = .inOrder ∧ refunding.coin.report = false
      ∧ refunding.call.openSlot = some slot ∧ slot.complete = false ∧ refunding.call.closingSlot = none
      ∧ refunding.call.atStart = [] ∧ refunding.rate = RateBlock.inactive ∧ refunding.call.refundAsked = true
      ∧ (blindStroke .refund).coin.blind = true ∧ (blindStroke .refund).coin.run = .none
      ∧ (blindStroke .refund).link.outstanding = some 0x1A ∧ Undisturbed (blindStroke .refund)
      ∧ (blindStroke .refund).coin.mover = .refunding ∧ (blindStroke .collect).coin.mover = .collecting
      ∧ (blindStroke .collect).coin.exitTimer = some 1000800 := by decide

/-- The last coin of a refund run, with the slots and the call state it meets. -/
def lastCoin (c : CallState) (asked : Bool) (closing : Option Slot) : State :=
  { refunding with
    call := { refunding.call with state := c, refundAsked := asked, closingSlot := closing }
    coin := { refunding.coin with escrow := [{ coinOf 50 with moving := some (.refund, 7) }] } }

/-- A purge at one of its strokes. -/
def purging (n : Nat) : State :=
  { starting with coin := { calm.coin with
      run := .purge, mover := .refunding, blind := true, exitTimer := some 1000800, purgeStrokes := n } }

theorem witness_StrokesEndRunsPurgesAndJams :
    ({ (stroking .collect settling).call with heldFollowOn := true } : CallBlock).state = .connected
      ∧ (stroking .collect settling).call.openSlot = some slot
      ∧ CallClearing (lastCoin .clearing true none) slot ∧ (lastCoin .clearing true none).coin.mover = .refunding
      ∧ (lastCoin .clearing true none).coin.escrow = [{ coinOf 50 with moving := some (.refund, 7) }]
      ∧ (lastCoin .collecting false (some slot)).call.closingSlot = some slot
      ∧ (lastCoin .collecting false (some slot)).call.state ≠ .clearing
      ∧ (lastCoin .clearing false (some slot)).call.state = .clearing
      ∧ (lastCoin .clearing false (some slot)).call.refundAsked = false
      ∧ (lastCoin .clearing false (some slot)).rate = RateBlock.inactive
      ∧ (lastCoin .clearing false (some slot)).store.log.records.length < 63
      ∧ (purging 12).coin.run = .purge ∧ (purging 12).call.atStart = [] ∧ (purging 12).call.state ≠ .clearing
      ∧ (purging 12).rate = RateBlock.inactive ∧ (purging 12).coin.purgeStrokes < 13
      ∧ 13 ≤ (purging 13).coin.purgeStrokes ∧ (purging 13).coin.exitTimer = some 1000800
      ∧ CallClearing refunding slot ∧ refunding.coin.exitTimer = some 1000800
      ∧ (stroking .collect settling).rate.acct.unused < (stroking .collect settling).rate.acct.due
      ∧ (stroking .collect settling).coin.transit = none ∧ (stroking .collect settling).coin.exitTimer = some 1000800
      ∧ (stroking .collect settling).store.log.records.length < 64 := by decide

/-- A rated call with its timers running. -/
def timed (m : RatingMode) : State :=
  { rated m calm with rate := { (rated m calm).rate with
      period := some ⟨0, 60, 0, 990000, 1000000⟩, superTimer := some 1000000, graceTimer := some 1010000 } }

/-- GRACE with a coin in transit, in an absence of loop current, at the end of a period. -/
def absentGrace : State :=
  { ratedTransit 60 with
    line := absentRated.line
    rate := { (ratedTransit 60).rate with
      phase := .grace, graceTimer := some 1010000, period := some ⟨0, 60, 0, 990000, 1000000⟩ } }

theorem witness_RatingTimersAndTheClock :
    alive (timed .localTiming) = true ∧ (timed .localTiming).rate.period = some ⟨0, 60, 0, 990000, 1000000⟩
      ∧ Rated (timed .localTiming) ∧ timesPeriods (timed .localTiming).rate.mode = true
      ∧ timesPeriods (some .meterFallback) = true ∧ (timed .localTiming).rate.bank = some .a
      ∧ (timed .localTiming).rate.cls = some 2 ∧ 0 < (timed .localTiming).rate.step
      ∧ (timed .localTiming).rate.step ≤ (timed .localTiming).rate.acct.unused
      ∧ 0 < rateIn (timed .localTiming) .a 2 (resolveBand (timed .localTiming) .a).1
      ∧ rateIn (timed .localTiming) .a 3 (resolveBand (timed .localTiming) .a).1 = 0
      ∧ absentRated.line.absentSince.isSome = true ∧ absentRated.rate.held ≠ [] ∧ watchRuns absentRated.line = true
      ∧ rating absentRated = true ∧ alive absentRated = true
      ∧ absentGrace.line.absentSince.isSome = true ∧ 0 < absentGrace.rate.acct.due ∧ rating absentGrace = true
      ∧ timesPeriods absentGrace.rate.mode = true ∧ absentGrace.rate.period = some ⟨0, 60, 0, 990000, 1000000⟩
      ∧ (timed .meter).rate.superTimer = some 1000000 ∧ Rated (timed .meter)
      ∧ ({ (timed .meter).rate with phase := .settling } : RateBlock).graceTimer = some 1010000
      ∧ ({ (timed .meter).rate with phase := .settling } : RateBlock).phase = .settling := by decide

/-- A rated call with a step to come that its unused amount does not cover by 1. -/
def short (s : State) : State := { s with rate := { s.rate with acct := { s.rate.acct with charged := 91, unused := 9 } } }

theorem witness_PeriodsWaitForCoins :
    Rated (short (timed .localTiming)) ∧ (short (timed .localTiming)).rate.acct.unused < (timed .localTiming).rate.step
      ∧ (stroking .collect settling).coin.mover = .collecting ∧ escrowElsewhere settling = false
      ∧ settling.coin.escrow = [] ∧ settling.coin.transit = none ∧ settling.rate.graceExpired = false
      ∧ settling.rate.phase ≠ .grace ∧ RatedCall settling slot
      ∧ RatedCall { settling with rate := { settling.rate with phase := .grace, graceTimer := some 1010000 } } slot
      ∧ RatedCall { settling with coin := { settling.coin with escrow := [coinOf 50] } } slot
      ∧ transiting.coin.transit.isSome = true := by decide

theorem witness_KeyAndDoorsMoveTheServiceState :
    alive calm = true ∧ calm.store.start.switchesRead = true ∧ calm.vault.keyOn = false ∧ (served calm).vault.keyOn = true
      ∧ calm.vault.vaultOpen = false ∧ calm.vault.housingOpen = false ∧ (served calm).vault.service = .service
      ∧ calm.vault.service ≠ .service ∧ urgentEnds calm.call.state (openKind calm) = false
      ∧ ({ calm.vault with vaultOpen := true, progress := some none } : VaultBlock).vaultOpen = true
      ∧ ({ calm.vault with housingOpen := true } : VaultBlock).housingOpen = true
      ∧ ({ calm.vault with service := .serviceGrace, graceTimer := some 1060000 } : VaultBlock).graceTimer
          = some 1060000 := by decide

theorem witness_DoorsEndCalls :
    urgentEnds (inCall .ringing calm).call.state (openKind (inCall .ringing calm)) = true
      ∧ BareCall (inCall .ringing calm) slot ∧ (inCall .ringing calm).vault.service ≠ .service
      ∧ ({ calm.vault with service := .serviceGrace, vaultGrace := true } : VaultBlock).vaultGrace = true
      ∧ ({ calm.vault with vaultGrace := true, housingGrace := true } : VaultBlock).housingGrace = true
      ∧ (inCall .ringing calm).store.start.switchesRead = true := by decide

/-- R166: a remaining wait of 2 min is kept, and one of a millisecond more is not. -/
theorem witness_UrgentOccurrencesShortenWaits :
    rptUrged 1000000 { calm.rpt with state := .wait, backoffTimer := some 1120000, savedWait := 1800 }
        = { calm.rpt with state := .wait, backoffTimer := some 1120000, savedWait := 1800, urgentFailures := 0 }
      ∧ (rptUrged 1000000 { calm.rpt with state := .wait, backoffTimer := some 1120001 }).backoffTimer = some 1120000 := by
  decide

theorem witness_OccurrencesAndConditionEnds :
    alive calm = true ∧ ({ calm.incd with cordOpen := some false } : IncdBlock).cordOpen = some false
      ∧ (([] : List Nat).filter (fun i => decide (calm.now - i ≤ 10000))).length < 2
      ∧ 2 ≤ ([990000, 1000000].filter (fun i => decide (calm.now - i ≤ 10000))).length
      ∧ findIncident .vaultFull incidents = none
      ∧ findIncident .cordCut incidents = some ⟨.cordCut, none, none, 1, 0, true⟩
      ∧ findIncident .shock incidents = some ⟨.shock, none, none, 2, 1, false⟩ := by decide

/-! ### Single steps -/

/-- R77: a call that ends during a purge does not wait for it. -/
theorem test_call_ends_in_a_purge :
    ∃ t, exec .hookOn { inCall .ringing calm with coin := { calm.coin with run := .purge, mover := .refunding, blind := true } }
        = .next t
      ∧ t.call.state = .idle ∧ t.store.log.records.length = 1 ∧ t.coin.run = .purge :=
  ⟨_, rfl, by decide, by decide, by decide⟩

/-- R57: with no loop current the reference is the polarity last judged. -/
theorem test_reference_in_an_absence :
    ∃ t, exec .sendingComplete { onLine .sending .sending with
          pins := { calm.pins with loopCurrent := false, polarity := false }
          line := { (onLine .sending .sending).line with sendTimer := some 1000000, polaritySeen := true } } = .next t
      ∧ t.line.reference = true ∧ t.line.state = .seized := ⟨_, rfl, by decide, by decide⟩

/-- R154, R139: a mixed cord reading that ends open leaves the input open, and the loop CLOSED. -/
theorem test_mixed_cord_reading :
    ∃ t, exec (.cordReadingEnd false) { starting with pins := { calm.pins with cordOpen := true } } = .next t
      ∧ t.pins.cordOpen = true ∧ t.incd.cordOpen = some false := ⟨_, rfl, by decide, by decide⟩

/-- R163: REPEAT to the third send fails the attempt. -/
theorem test_third_repeat :
    ∃ t, exec (.cadenceRecognised .again) { attemptIn .awaitAck calm with rpt := { (attemptIn .awaitAck calm).rpt with sends := 3 } }
        = .next t
      ∧ t.rpt.state = .wait ∧ t.rpt.failures = 1 ∧ t.line.state = .guard := ⟨_, rfl, by decide, by decide, by decide⟩

/-- R48, R51: the third cycle's silence reaches 400 ms, and the second ACK's 160 ms. -/
theorem test_busy_and_ack_recognised :
    ∃ t, exec (.toneDetectorInterval false false false) (hearing ⟨false, 395⟩ none none ⟨false, 155⟩) = .next t
      ∧ t.raised = [.busyRecognised, .cadenceRecognised .ack] := ⟨_, rfl, by decide⟩

/-- R49: a burst that passes 500 ms is a long pulse at that instant. -/
theorem test_long_pulse :
    ∃ t, exec (.toneDetectorInterval false true false) (hearing ⟨false, 0⟩ (some ⟨500, 40, false⟩) none ⟨false, 0⟩) = .next t
      ∧ t.raised = [.meterPulse true] := ⟨_, rfl, by decide⟩

/-- R96: a step held in an absence of loop current moves no phase: GRACE stays, though a coin is in transit. -/
theorem test_held_step_settles_nothing :
    ∃ t, exec .periodEnd absentGrace = .next t ∧ t.rate.phase = .grace ∧ t.rate.held = [⟨1000000, 10, true⟩]
      ∧ t.rate.acct.due = 60 := ⟨_, rfl, by decide, by decide, by decide⟩

/-- R112, R115: the minute of DEFAULT with drop is a minute of day. -/
theorem test_default_drop_minute :
    putSchedule 3 1440 255 BankContents.emptied = .error .range ∧ putSchedule 3 0 255 BankContents.emptied = .ok BankContents.emptied :=
  ⟨rfl, rfl⟩

/-- R77: the record takes the count and the value of what is refunded. -/
theorem test_refunded_count :
    ∃ t, exec .returnSensor refunding = .next t ∧ t.call.openSlot.map (fun sl => sl.record.refunded) = some ⟨1, 50⟩ :=
  ⟨_, rfl, by decide⟩

/-- R78: the record takes the count and the value of what is stranded. -/
theorem test_stranded_count :
    (strand { inCall .clearing calm with coin := { calm.coin with escrow := [coinOf 50, coinOf 20] } }).call.openSlot.map
        (fun sl => sl.record.stranded) = some ⟨2, 70⟩ := by decide

/-- R124: a loss of power in the write of an activation made at once finds the bank PENDING. -/
theorem test_activation_torn :
    ∃ t, exec (.bankActivate (1 :: le4 nowTime)) (bankA .ready calm) = .next t ∧ t.bank.a.state = .active
      ∧ (tearArea t.store.areas .bankA).bankA.newest.map (fun c => (c.contents.state, c.contents.due))
          = some (.pending, some .now) := ⟨_, rfl, by decide, by decide⟩

/-- R90, R96: with the answer in an absence of loop current nothing is due: the initial charge and the first period's step are
held, and a loss, whose end instant lies before them, takes neither. -/
theorem test_answer_in_an_absence :
    ∃ t, exec .reversalAccepted { tariffed (onLine .ringing .seized) with
          line := { (onLine .ringing .seized).line with absentSince := some 999700 } } = .next t
      ∧ t.rate.acct.due = 0 ∧ t.rate.held = [⟨1000000, 30, false⟩, ⟨1000000, 10, true⟩] ∧ heldUpTo 999700 t = [] :=
  ⟨_, rfl, by decide, by decide, by decide⟩

/-- R49, R96: no pulse arises in an absence of loop current. -/
theorem test_pulse_in_an_absence :
    ∃ t, exec (.meterPulse false) absentMetered = .next t ∧ t.rate = absentMetered.rate := ⟨_, rfl, by decide⟩

/-- The part without power, what it retains of a call's record and of the escrow being as given. -/
def unpowered (a : CallArea) (c : CoinArea) : State :=
  { calm with power := .off, store := { calm.store with
      areas := { calm.store.areas with call := Area.both a, coin := Area.both c } } }

/-- R19: a loss of power cuts off COIN's write of a confirmed REFUND alone: the record has counted the coin found MOVING, and
does not count it again. -/
theorem test_torn_refund_counts_once :
    ∃ t, exec (.powerUp true .both []) (unpowered
          { openSlot := some (slot.modify (fun r => { r with refunded := ⟨1, 50⟩ })), gone := 1 }
          { escrow := [{ coinOf 50 with moving := some (.refund, 0) }, coinOf 20] }) = .next t
      ∧ t.call.atStart.map (fun sl => (sl.record.refunded, sl.record.flags.powerMove)) = [(⟨1, 50⟩, true)]
      ∧ t.coin.escrow.map EscrowEntry.value = [20] ∧ t.coin.mover = .refunding :=
  ⟨_, rfl, by decide, by decide, by decide⟩

/-- R67, R83: a loss of power cuts off COIN's write of a confirmed coin alone: the coin was still in transit, and counts no
more. -/
theorem test_torn_confirmation_counts_nothing :
    ∃ t, exec (.powerUp true .both []) (unpowered
          { openSlot := some { slot.modify (fun r => { r with accepted := [2, 0, 0, 0, 0, 0, 0, 0] }) with lastCoin := some (2, 1) } }
          { escrow := [coinOf 50] }) = .next t
      ∧ t.call.atStart.map (fun sl => sl.record.accepted) = [[1, 0, 0, 0, 0, 0, 0, 0]] := ⟨_, rfl, by decide⟩

end Sys2Proof.Tests
end

section
/-! Stray sensor reports (R70): a step whose whole effect is one notice, and the three sensors outside what they confirm. -/

namespace Sys2Proof.Machine

/-! ### A step that posts one notice -/

theorem stepAlive_of_alive {s : State} (f : State → State) (ha : alive s = true) :
    stepAlive f s = finish s (f s) := by
  simp [stepAlive, ha]

/-- Neither the account nor what a CREDIT notice follows reads the link, so posting is no change for RATE (R88). -/
@[simp] theorem post_creditKey (k : NoticeKind) (p : List Byte) (s : State) : creditKey (post k p s) = creditKey s := by
  rw [post_eq, creditKey_link]

@[simp] theorem post_rate (k : NoticeKind) (p : List Byte) (s : State) : (post k p s).rate = s.rate := by rw [post_eq]

/-- R194: a step that posts a notice and does nothing else. The end of the step adds no notice of its own. -/
theorem finish_post (k : NoticeKind) (p : List Byte) (s : State) :
    LinkKept s (finish s (post k p s)) ∧ Posted [⟨k, p⟩] s (finish s (post k p s))
      ∧ (finish s (post k p s)).body = s.body := by
  have hkept : LinkKept s (finish s (post k p s)) := finish_linkKept _ _ _ (by simp) (by simp) (by simp) (by simp)
  have hposted : Posted [⟨k, p⟩] s (finish s (post k p s)) :=
    finish_posted _ _ _ _ (by simp) rfl rfl (by simp) (by simp)
  exact ⟨hkept, hposted, by simp⟩

/-! ### The sensors with nothing to confirm (R70) -/

/-- R70: no coin is in entry transit. -/
theorem exec_entrySensor_stray {s : State} (h : s.coin.transit = none) :
    exec .entrySensor s = .next (stepAlive (postCoin (.stray 0)) s) := by
  show execEntrySensor s = _
  simp only [execEntrySensor, stepAlive, h]

/-- R70: no COLLECT stroke is under way. -/
theorem exec_vaultSensor_stray {s : State} (h : s.coin.mover ≠ .collecting) :
    exec .vaultSensor s = .next (stepAlive (postCoin (.stray 1)) s) := by
  show execVaultSensor s = _
  simp only [execVaultSensor, stepAlive, if_neg h]

/-- R70: no REFUND stroke is under way. -/
theorem exec_returnSensor_stray {s : State} (h : s.coin.mover ≠ .refunding) :
    exec .returnSensor s = .next (stepAlive (postCoin (.stray 2)) s) := by
  show execReturnSensor s = _
  simp only [execReturnSensor, stepAlive, if_neg h]

/-- What a command does whose whole effect is a COIN notice: the notice, in its bytes of the state before, and nothing else. -/
theorem coinNotice_only {s : State} {c : Instr} (o : CoinOutcome) (ha : alive s = true)
    (hc : exec c s = .next (stepAlive (postCoin o) s)) :
    ∃ t, exec c s = .next t ∧ LinkKept s t ∧ Posted [⟨.coin, coinNotice o s⟩] s t ∧ t.body = s.body := by
  rw [stepAlive_of_alive _ ha] at hc
  exact ⟨_, hc, finish_post .coin (coinNotice o s) s⟩

/-- Settles O55: outside what it confirms, each sensor's step is the posting of its stray notice alone. -/
theorem strayReportsChangeNothing : Obligations.StrayReportsChangeNothing := by
  intro s ha
  refine ⟨fun htransit => ?_, fun hmover => ?_, fun hmover => ?_⟩
  · exact coinNotice_only (.stray 0) ha (exec_entrySensor_stray htransit)
  · exact coinNotice_only (.stray 1) ha (exec_vaultSensor_stray hmover)
  · exact coinNotice_only (.stray 2) ha (exec_returnSensor_stray hmover)

end Sys2Proof.Machine
end

section
/-! INCIDENT_LIST (R151, R197): the owner's rule is one reply, RANGE or the listing, and a reply leaves the map alone. -/

namespace Sys2Proof.Machine

/-- A byte is its own one-byte number: the cut at 255 never bites. -/
@[simp] theorem le1_toNat (b : Byte) : le1 b.toNat = [b] := by
  have hmin : min b.toNat 255 = b.toNat := Nat.min_eq_left (Nat.le_of_lt_succ b.isLt)
  rw [le1, hmin, byteOf, BitVec.ofNat_toNat, BitVec.setWidth_eq]

/-- R189: ready, LINK hands a listing's position to INCD. -/
theorem exec_incidentList_ready (b : Byte) {s : State} (h : Ready s) :
    exec (.incidentList [b]) s = .next (finish s (incidentListRule b (s.took 0x13))) := by
  show execIncidentList [b] s = _
  rw [execIncidentList, hostCommand_ready _ _ _ _ _ h]
  rfl

/-- R151: the first position past the twelve kinds, and every later one. -/
theorem incidentListRule_range {b : Byte} (hb : 12 ≤ b.toNat) (s : State) :
    incidentListRule b s = respond 0x13 .range [] s := by
  simp [incidentListRule, firstOf, decideReply, hb]

/-- R151: a position of 0 to 11 is answered in every state of the map. -/
theorem incidentListRule_ok {b : Byte} (hb : b.toNat < 12) (s : State) :
    incidentListRule b s = respond 0x13 .ok (incidentListBytes b.toNat s) s := by
  simp [incidentListRule, firstOf, decideReply, Nat.not_le.2 hb]

/-- The listing reads the map alone, so taking the command does not move it (R151: as the map stands when taken). -/
theorem incidentListBytes_took (k : Byte) (n : Nat) (s : State) :
    incidentListBytes n (s.took k) = incidentListBytes n s := rfl

/-- R197: the listing's head is the size of the map and the position's byte as it was sent. -/
theorem incidentListBytes_byte (b : Byte) (s : State) : incidentListBytes b.toNat s =
    le1 s.incd.map.length ++ [b] ++ (((reportingOrder s.incd.map).drop b.toNat).take 8).flatMap listEntry := by
  rw [incidentListBytes, le1_toNat]

/-- Settles O25: the test of the position decides between two replies, and a reply alone posts and changes nothing. -/
theorem incidentListReportsTheMap : Obligations.IncidentListReportsTheMap := by
  intro b s hready
  refine ⟨_, exec_incidentList_ready b hready, ?_⟩
  rcases Nat.lt_or_ge b.toNat 12 with hlt | hge
  · rw [incidentListRule_ok hlt, incidentListBytes_took, incidentListBytes_byte]
    obtain ⟨hanswered, hposted, hbody⟩ := finish_respond 0x13 .ok
      (le1 s.incd.map.length ++ [b] ++ (((reportingOrder s.incd.map).drop b.toNat).take 8).flatMap listEntry) s
    exact ⟨hposted, hbody, fun hge => absurd hge (Nat.not_le.2 hlt), fun _ => hanswered⟩
  · rw [incidentListRule_range hge]
    obtain ⟨hanswered, hposted, hbody⟩ := finish_respond 0x13 .range [] s
    exact ⟨hposted, hbody, fun _ => hanswered, fun hlt => absurd hge (Nat.not_le.2 hlt)⟩

end Sys2Proof.Machine
end

section
/-! The notice queue and the mask (R194, R195): the five rows as equations of the queue, posting by the mask, and the two
steps that meet a pending notice, CONFIG_SET (which leaves it) and the end of a frame (which sends it). -/

namespace Sys2Proof.Machine

/-! ### The five rows of the queue (R194) -/

/-- The first notice of the same kind is the one replaced, where it stands. -/
theorem replaceNotice_append {n old : Notice} {before : List Notice} (after : List Notice)
    (hold : old.kind = n.kind) (hbefore : ∀ m ∈ before, m.kind ≠ n.kind) :
    replaceNotice n (before ++ old :: after) = before ++ n :: after := by
  induction before with
  | nil => simp [replaceNotice, hold]
  | cons m ms ih =>
    obtain ⟨hm, hms⟩ := List.forall_mem_cons.1 hbefore
    simp [replaceNotice, hm, ih hms]

/-- The first coalescible notice, the oldest, is the one removed. -/
theorem dropCoalescible_append {old : Notice} {before : List Notice} (after : List Notice)
    (hold : old.kind.coalescible = true) (hbefore : ∀ m ∈ before, m.kind.coalescible = false) :
    dropCoalescible (before ++ old :: after) = some (before ++ after) := by
  induction before with
  | nil => simp [dropCoalescible, hold]
  | cons m ms ih =>
    obtain ⟨hm, hms⟩ := List.forall_mem_cons.1 hbefore
    simp [dropCoalescible, hm, ih hms]

theorem dropCoalescible_eq_none {q : List Notice} (h : ∀ m ∈ q, m.kind.coalescible = false) :
    dropCoalescible q = none := by
  induction q with
  | nil => rfl
  | cons m ms ih =>
    obtain ⟨hm, hms⟩ := List.forall_mem_cons.1 h
    simp [dropCoalescible, hm, ih hms]

/-- The notice replaces none that is pending: it is not coalescible, or none of its kind is pending. -/
def ReplacesNone (n : Notice) (q : List Notice) : Prop :=
  n.kind.coalescible = false ∨ ∀ m ∈ q, m.kind ≠ n.kind

/-- The test of the queue's first row. -/
theorem replacesNone_iff {n : Notice} {q : List Notice} : ReplacesNone n q ↔
    ¬ (n.kind.coalescible && q.any (fun m => decide (m.kind = n.kind))) = true := by
  simp only [ReplacesNone, Bool.and_eq_true, List.any_eq_true, decide_eq_true_eq, not_and, not_exists,
    ← Bool.not_eq_true, imp_iff_not_or, ne_eq]

/-- R194, first row. -/
theorem enqueueNotice_coalesces {n old : Notice} {before : List Notice} (after : List Notice)
    (hn : n.kind.coalescible = true) (hold : old.kind = n.kind) (hbefore : ∀ m ∈ before, m.kind ≠ n.kind) :
    enqueueNotice n (before ++ old :: after) = (before ++ n :: after, false) := by
  have hpending : (before ++ old :: after).any (fun m => decide (m.kind = n.kind)) = true := by simp [hold]
  rw [enqueueNotice, if_pos (by simp only [hn, hpending, Bool.and_self]), replaceNotice_append after hold hbefore]

/-- R194, second row. -/
theorem enqueueNotice_room {n : Notice} {q : List Notice} (hn : ReplacesNone n q) (hroom : q.length < 32) :
    enqueueNotice n q = (q ++ [n], false) := by
  rw [enqueueNotice, if_neg (replacesNone_iff.1 hn), if_pos hroom]

/-- R194, third row. -/
theorem enqueueNotice_full_coalescible {n : Notice} {q : List Notice} (hn : ReplacesNone n q) (hfull : 32 ≤ q.length)
    (hc : n.kind.coalescible = true) : enqueueNotice n q = (q, true) := by
  rw [enqueueNotice, if_neg (replacesNone_iff.1 hn), if_neg (Nat.not_lt.2 hfull), if_pos hc]

/-- R194, the last two rows: at 32 a notice that is not coalescible takes the room of one that is. -/
theorem enqueueNotice_full_other {n : Notice} {q : List Notice} (hfull : 32 ≤ q.length)
    (hc : n.kind.coalescible = false) :
    enqueueNotice n q = (((dropCoalescible q).map (· ++ [n])).getD q, true) := by
  rw [enqueueNotice, if_neg (replacesNone_iff.1 (.inl hc)), if_neg (Nat.not_lt.2 hfull), if_neg (by simp [hc])]
  cases dropCoalescible q <;> rfl

/-- R194: at 32 every notice but one that coalesces sets the notice-lost flag. -/
theorem enqueueNotice_full_lost {n : Notice} {q : List Notice} (hn : ReplacesNone n q) (hfull : 32 ≤ q.length) :
    (enqueueNotice n q).2 = true := by
  cases hc : n.kind.coalescible with
  | true => rw [enqueueNotice_full_coalescible hn hfull hc]
  | false => rw [enqueueNotice_full_other hfull hc]

/-- The notice table of R193. -/
theorem NoticeKind.coalescible_iff (k : NoticeKind) :
    k.coalescible = true ↔ k = .dialled ∨ k = .credit ∨ k = .vault ∨ k = .line := by
  cases k <;> decide

/-! ### Posting by the mask (R195) -/

/-- R195: a masked kind other than STARTED posts nothing. -/
theorem post_of_masked {k : NoticeKind} {s : State} (p : List Byte) (hmask : s.config.masked.contains k = true)
    (hk : k ≠ .started) : post k p s = s :=
  if_pos (by simp only [maskedKind, hmask, hk, ne_eq, not_false_eq_true, decide_true, Bool.and_self])

/-- A kind posts when it is not masked, and STARTED always. -/
theorem maskedKind_of_posts {k : NoticeKind} {s : State} (h : s.config.masked.contains k = false ∨ k = .started) :
    ¬ maskedKind s k = true := by
  obtain hmask | rfl := h
  · simp only [maskedKind, hmask, Bool.false_and, Bool.false_eq_true, not_false_eq_true]
  · simp [maskedKind]

/-- R194: a notice that is posted enters the queue, by the row that holds. -/
theorem post_enqueues {k : NoticeKind} {s : State} (p : List Byte)
    (h : s.config.masked.contains k = false ∨ k = .started) :
    (post k p s).link.notices = (enqueueNotice ⟨k, p⟩ s.link.notices).1
      ∧ (post k p s).link.noticeLost = (s.link.noticeLost || (enqueueNotice ⟨k, p⟩ s.link.notices).2) := by
  rw [post_eq]
  exact ⟨if_neg (maskedKind_of_posts h), if_neg (maskedKind_of_posts h)⟩

/-- R194: a posting that finds its row, and the queue and the flag it leaves. -/
theorem post_of_enqueue {k : NoticeKind} {p : List Byte} {s : State} {q : List Notice} {lost : Bool}
    (h : s.config.masked.contains k = false ∨ k = .started)
    (hrow : enqueueNotice ⟨k, p⟩ s.link.notices = (q, lost)) :
    (post k p s).link.notices = q ∧ (post k p s).link.noticeLost = (s.link.noticeLost || lost) := by
  have hpost := post_enqueues p h
  rwa [hrow] at hpost

/-! ### CONFIG_SET and what is pending (R193, R195) -/

/-- What is judged of a CONFIG_SET is not moved by its being taken. -/
theorem configAfter_took (k : Byte) (s : State) (items : List (Nat × List Byte)) :
    configAfter (s.took k) items = configAfter s items := rfl

/-- R193: a CONFIG_SET that is accepted and names no vault item puts the new values in place and answers. -/
theorem exec_configSet_accepted {p : List Byte} {items : List (Nat × List Byte)} {c : ConfigItems} {s : State}
    (hargs : configSetArgs? p = some items) (hready : Ready s) (hafter : configAfter s items = some c)
    (hvault : namesVault items = false) :
    exec (.configSet p) s = .next (finish s (respond 0x02 .ok [] { s.took 0x02 with config := c })) := by
  have hrule : configSetRule items (s.took 0x02) = respond 0x02 .ok [] { s.took 0x02 with config := c } := by
    rw [configSetRule, configAfter_took, hafter]
    simp only [applyConfig, hvault, Bool.false_eq_true, if_false]
  show execConfigSet p s = _
  rw [execConfigSet, hostCommand_ready _ _ _ _ _ hready, hargs]
  exact congrArg (fun u => Host.Outcome.next (finish s u)) hrule

/-- R195: such a CONFIG_SET posts nothing, so what is pending stays as it is, and the new values hold after it. -/
theorem configSet_keeps_pending (c : ConfigItems) (s : State) :
    let t := finish s (respond 0x02 .ok [] { s.took 0x02 with config := c })
    t.link.notices = s.link.notices ∧ t.link.noticeLost = s.link.noticeLost ∧ t.config = c := by
  obtain ⟨hanswered, hposted, -⟩ := finish_replied 0x02 .ok [] [] s { s.took 0x02 with config := c } rfl rfl rfl rfl rfl
  exact ⟨notices_of_answered hanswered hposted, hposted.1, finish_config _ _⟩

/-! ### The end of a frame (R196) -/

/-- R196: with the transmitter IDLE and no reply waiting, the head of the queue is sent. The mask is not asked. -/
theorem pump_sends_head {s : State} {n : Notice} {rest : List Notice} (htx : s.link.tx = none)
    (hreply : s.link.reply = none) (hq : s.link.notices = n :: rest) (hpower : s.power ≠ .halted) :
    pump s = { s with link := { s.link with
      tx := some (startSending s (byteOf n.kind.kind) n.payload false), notices := rest } } := by
  simp only [pump, htx, hreply, hq, if_neg hpower]

/-- R196: the head of the queue is sent at the end of a step that leaves the account as it was. -/
theorem finish_sends_head {s0 u : State} {n : Notice} {rest : List Notice} (htx : u.link.tx = none)
    (hreply : u.link.reply = none) (hq : u.link.notices = n :: rest) (hpower : u.power ≠ .halted)
    (hphase : s0.rate.phase = u.rate.phase) (hkey : creditKey s0 = creditKey u) :
    ∃ e, (finish s0 u).link.tx = some ⟨frameBytes (byteOf n.kind.kind) n.payload, e, false⟩
      ∧ (finish s0 u).link.notices = rest := by
  have hlink : (commit (guardFollow (rptFollow u))).link = u.link := by simp
  have hp : (commit (guardFollow (rptFollow u))).power = u.power := same_of_body (by simp) .power
  rw [finish, creditFollow_quiet _ _ hphase hkey,
    pump_sends_head (by rw [hlink, htx]) (by rw [hlink, hreply]) (by rw [hlink, hq]) (by rwa [hp])]
  exact ⟨_, rfl, rfl⟩

theorem alive_iff (s : State) : alive s = true ↔ s.power = .starting ∨ s.power = .running := by
  simp [alive]

/-- R196: the end of a frame in a part that runs: the transmitter is IDLE at the frame's end. -/
theorem exec_transmitDone_alive {s : State} {x : Sending} (ha : alive s = true) (htx : s.link.tx = some x) :
    exec .transmitDone s = .next (finish s (idleTx (reach (some x.endsAt) s))) := by
  show execTransmitDone s = _
  obtain hp | hp := (alive_iff s).1 ha <;> simp only [execTransmitDone, htx, hp]

/-- R196: the end of a frame with no reply waiting: the oldest pending notice is sent. -/
theorem transmitDone_sends_head {s : State} {x : Sending} {n : Notice} {rest : List Notice} (ha : alive s = true)
    (htx : s.link.tx = some x) (hreply : s.link.reply = none) (hq : s.link.notices = n :: rest) :
    ∃ t e, exec .transmitDone s = .next t
      ∧ t.link.tx = some ⟨frameBytes (byteOf n.kind.kind) n.payload, e, false⟩ ∧ t.link.notices = rest := by
  have hpower : s.power ≠ .halted := by
    obtain hp | hp := (alive_iff s).1 ha <;> simp [hp]
  obtain ⟨e, hsent, hrest⟩ := finish_sends_head (s0 := s) (u := idleTx (reach (some x.endsAt) s)) rfl hreply hq hpower
    rfl rfl
  exact ⟨_, e, exec_transmitDone_alive ha htx, hsent, hrest⟩

/-- Settles O22: the mask decides whether a notice enters the queue, and nothing else asks it; the rows of R194 then decide
how. CONFIG_SET leaves the queue, and the end of a frame sends its head. -/
theorem noticeMaskSilencesKinds : Obligations.NoticeMaskSilencesKinds := by
  refine ⟨fun k p s => ⟨post_of_masked p, post_enqueues p⟩, ?configSet,
    fun s x n rest => transmitDone_sends_head, fun k p s hposts => ⟨k.coalescible_iff, post_tx k p s, ?coalesces, ?others⟩⟩
  case configSet =>
    intro p items c s hargs hready hafter hvault
    obtain ⟨hnotices, hlost, hconfig⟩ := configSet_keeps_pending c s
    refine ⟨_, exec_configSet_accepted hargs hready hafter hvault, hnotices, hlost, fun k q hmask hk => ?_,
      fun k q hmask => ?_⟩
    · exact post_of_masked q (by rwa [hconfig]) hk
    · exact (post_enqueues q (.inl (by rwa [hconfig]))).1
  case coalesces =>
    intro before old after hq hc hold hbefore
    have hrow : enqueueNotice ⟨k, p⟩ s.link.notices = (before ++ ⟨k, p⟩ :: after, false) := by
      rw [hq, enqueueNotice_coalesces after hc hold hbefore]
    simpa using post_of_enqueue hposts hrow
  case others =>
    intro (hnone : ReplacesNone ⟨k, p⟩ s.link.notices)
    refine ⟨fun hroom => ?_, fun hfull => ⟨?_, fun hc => ?_, fun hc => ⟨fun hall => ?_, ?_⟩⟩⟩
    · simpa using post_of_enqueue hposts (enqueueNotice_room hnone hroom)
    · rw [(post_enqueues p hposts).2, enqueueNotice_full_lost hnone hfull, Bool.or_true]
    · exact (post_of_enqueue hposts (enqueueNotice_full_coalescible hnone hfull hc)).1
    · rw [(post_of_enqueue hposts (enqueueNotice_full_other hfull hc)).1, dropCoalescible_eq_none hall]; rfl
    · intro before old after hq hold hbefore
      rw [(post_of_enqueue hposts (enqueueNotice_full_other hfull hc)).1, hq, dropCoalescible_append after hold hbefore]
      rfl

end Sys2Proof.Machine
end

section
/-! What every effect keeps: the relation `Kept`, from a state to one that keeps each invariant the first one met, with one
lemma for each operation. The invariants that every step keeps are all derived from it. -/

namespace Sys2Proof.Machine

/-- LINK's block but for the notices that wait and the notice-lost flag: what posting leaves alone. -/
def LinkBlock.besideNotices (l : LinkBlock) : LinkBlock := { l with notices := [], noticeLost := false }

/-- The queue of commands is left as it is, no frame in turn appears, and each invariant that `s` meets `t` meets too. With `wired`,
LINK is left alone but for its notices, as every effect of a block other than LINK leaves it. -/
structure Kept (wired : Prop) (s t : State) : Prop where
  pending : t.pending = s.pending
  wires : wired → t.link.besideNotices = s.link.besideNotices
  turn : s.link.turn = false → t.link.turn = false
  notices : NoticesKept s → NoticesKept t
  oneAtATime : OneAtATime s → OneAtATime t
  account : AccountBalanced s → AccountBalanced t
  active : OneActive s → OneActive t
  log : LogKept s → LogKept t
  map : MapKept s → MapKept t
  escrow : EscrowFits s → EscrowFits t
  tables : TablesKept s → TablesKept t

variable {wired : Prop}

theorem Kept.refl {s : State} : Kept wired s s := ⟨rfl, fun _ => rfl, id, id, id, id, id, id, id, id, id⟩

theorem Kept.trans {s t u : State} (h : Kept wired s t) (g : Kept wired t u) : Kept wired s u :=
  ⟨g.pending.trans h.pending, fun hw => (g.wires hw).trans (h.wires hw), g.turn ∘ h.turn, g.notices ∘ h.notices, g.oneAtATime ∘ h.oneAtATime,
    g.account ∘ h.account, g.active ∘ h.active, g.log ∘ h.log, g.map ∘ h.map, g.escrow ∘ h.escrow, g.tables ∘ h.tables⟩

/-- The last of two effects first: `(f_kept).after (g_kept)` is `f (g s)`. -/
theorem Kept.after {s t u : State} (g : Kept wired t u) (h : Kept wired s t) : Kept wired s u := h.trans g

/-! ### What the invariants read -/

/-- The part of the state that the invariants of `Kept` read. -/
structure Core where
  pending : List Instr
  link : LinkBlock
  acct : Account
  bank : BankBlock
  log : LogArea
  areas : Areas
  map : List Incident
  coins : Nat
  config : ConfigItems
  cells : Nat
  keySamples : Nat
  crossings : Nat
  denoms : Nat

def State.core (s : State) : Core where
  pending := s.pending
  link := s.link
  acct := s.rate.acct
  bank := s.bank
  log := s.store.log
  areas := s.store.areas
  map := s.incd.map
  coins := s.coin.escrow.length + s.coin.transit.toList.length
  config := s.config
  cells := s.keys.cells.length
  keySamples := s.samplers.keys.length
  crossings := s.pins.crossings.length
  denoms := s.vault.counters.denoms.length

/-- An update of what no invariant reads keeps them all. -/
theorem Kept.of_core {s t : State} (h : t.core = s.core) : Kept wired s t := by
  have g : ∀ {α : Type} (f : Core → α), f t.core = f s.core := fun f => by rw [h]
  have hpending : t.pending = s.pending := g Core.pending
  have hlink : t.link = s.link := g Core.link
  have hacct : t.rate.acct = s.rate.acct := g Core.acct
  have hbank : t.bank = s.bank := g Core.bank
  have hlog : t.store.log = s.store.log := g Core.log
  have hareas : t.store.areas = s.store.areas := g Core.areas
  have hmap : t.incd.map = s.incd.map := g Core.map
  have hcoins : t.coin.escrow.length + t.coin.transit.toList.length
      = s.coin.escrow.length + s.coin.transit.toList.length := g Core.coins
  have hconfig : t.config = s.config := g Core.config
  have hcells : t.keys.cells.length = s.keys.cells.length := g Core.cells
  have hkeys : t.samplers.keys.length = s.samplers.keys.length := g Core.keySamples
  have hcross : t.pins.crossings.length = s.pins.crossings.length := g Core.crossings
  have hdenoms : t.vault.counters.denoms.length = s.vault.counters.denoms.length := g Core.denoms
  refine ⟨hpending, fun _ => by rw [hlink], ?_, ?_, ?_, ?_, ?_, ?_, ?_, ?_, ?_⟩
  · rw [hlink]; exact id
  · unfold NoticesKept; rw [hlink]; exact id
  · unfold OneAtATime; rw [hlink]; exact id
  · unfold AccountBalanced; rw [hacct]; exact id
  · unfold OneActive; rw [hbank]; exact id
  · unfold LogKept; rw [hlog, hareas]; exact id
  · unfold MapKept; rw [hmap, hareas]; exact id
  · unfold EscrowFits; rw [hcoins, hareas]; exact id
  · unfold TablesKept; rw [hcells, hkeys, hcross, hbank, hconfig, hdenoms, hareas]; exact id

theorem Kept.of_now {s : State} (n : Nat) : Kept wired s { s with now := n } := .of_core rfl
theorem Kept.of_call {s : State} (c : CallBlock) : Kept wired s { s with call := c } := .of_core rfl
theorem Kept.of_line {s : State} (l : LineBlock) : Kept wired s { s with line := l } := .of_core rfl
theorem Kept.of_rpt {s : State} (r : RptBlock) : Kept wired s { s with rpt := r } := .of_core rfl

/-! ### Updates of what the invariants read, one field at a time -/

/-- The account may change while U + H = K + C stays. -/
theorem Kept.of_rate {s : State} (r : RateBlock)
    (h : AccountBalanced s → AccountBalanced { s with rate := r }) : Kept wired s { s with rate := r } :=
  ⟨rfl, fun _ => rfl, id, id, id, h, id, id, id, id, id⟩

/-- RATE's block with the account as it was. -/
theorem Kept.of_same_acct {s : State} (r : RateBlock) (h : r.acct = s.rate.acct) : Kept wired s { s with rate := r } :=
  .of_rate r fun hb => by unfold AccountBalanced; dsimp only; rw [h]; exact hb

theorem Kept.of_bank {s : State} (b : BankBlock) (hactive : OneActive s → OneActive { s with bank := b })
    (ha : s.bank.a.contents.classes.length = 32 → b.a.contents.classes.length = 32)
    (hb : s.bank.b.contents.classes.length = 32 → b.b.contents.classes.length = 32) : Kept wired s { s with bank := b } := by
  refine ⟨rfl, fun _ => rfl, id, id, id, id, hactive, id, id, id, ?_⟩
  rintro ⟨h1, h2, h3, h4, h5, h6⟩
  exact ⟨h1, h2, h3, ha h4, hb h5, h6⟩

theorem Kept.of_log {s : State} (g : LogArea) (h : LogWf s.store.log → LogWf g) :
    Kept wired s { s with store := { s.store with log := g } } :=
  ⟨rfl, fun _ => rfl, id, id, id, id, id, fun hl => ⟨h hl.1, hl.2⟩, id, id, id⟩

theorem Kept.of_map {s : State} (m : List Incident) (h : MapWf s.incd.map → MapWf m) : Kept wired s (setMap m s) :=
  ⟨rfl, fun _ => rfl, id, id, id, id, id, id, fun hm => ⟨h hm.1, hm.2⟩, id, id⟩

theorem Kept.of_coin {s : State} (c : CoinBlock)
    (h : s.coin.escrow.length + s.coin.transit.toList.length ≤ 12 → c.escrow.length + c.transit.toList.length ≤ 12) :
    Kept wired s { s with coin := c } :=
  ⟨rfl, fun _ => rfl, id, id, id, id, id, id, id, fun he => ⟨h he.1, he.2⟩, id⟩

theorem Kept.of_vault {s : State} (v : VaultBlock)
    (h : s.vault.counters.denoms.length = 8 → v.counters.denoms.length = 8) : Kept wired s { s with vault := v } := by
  refine ⟨rfl, fun _ => rfl, id, id, id, id, id, id, id, id, ?_⟩
  rintro ⟨h1, h2, h3, h4, h5, h6, h7, h8, h9⟩
  exact ⟨h1, h2, h3, h4, h5, h6, h7, h h8, h9⟩

/-- VAULT's block with as many denominations counted. -/
theorem Kept.of_same_denoms {s : State} (v : VaultBlock) (h : v.counters.denoms = s.vault.counters.denoms) :
    Kept wired s { s with vault := v } := .of_vault v fun h8 => by rw [h]; exact h8

/-- COIN's block with the same coins in it. -/
theorem Kept.of_same_coins {s : State} (c : CoinBlock)
    (h : c.escrow.length + c.transit.toList.length = s.coin.escrow.length + s.coin.transit.toList.length) :
    Kept wired s { s with coin := c } := .of_coin c fun h12 => by rw [h]; exact h12

/-- KEYS' block with as many keys. -/
theorem Kept.of_same_cells {s : State} (k : KeysBlock) (h : k.cells.length = s.keys.cells.length) :
    Kept wired s { s with keys := k } := by
  refine ⟨rfl, fun _ => rfl, id, id, id, id, id, id, id, id, ?_⟩
  rintro ⟨h1, h2⟩
  exact ⟨h.trans h1, h2⟩

theorem Kept.of_config {s : State} (c : ConfigItems)
    (hv : s.config.denomValue.length = 8 → c.denomValue.length = 8)
    (he : s.config.denomEnabled.length = 8 → c.denomEnabled.length = 8) : Kept wired s { s with config := c } := by
  refine ⟨rfl, fun _ => rfl, id, id, id, id, id, id, id, id, ?_⟩
  rintro ⟨h1, h2, h3, h4, h5, h6, h7, h8⟩
  exact ⟨h1, h2, h3, h4, h5, hv h6, he h7, h8⟩

/-- LINK's block may change while no frame in turn appears, the queue stays well formed, and a command outstanding leaves no
reply in the slot. -/
theorem Kept.of_link {s : State} (l : LinkBlock) (hwires : wired → l.besideNotices = s.link.besideNotices) (hturn : s.link.turn = false → l.turn = false)
    (hqueue : QueueWf s.link.notices → QueueWf l.notices)
    (hone : s.link.outstanding = none ∨ s.link.reply = none → l.outstanding = none ∨ l.reply = none) :
    Kept wired s { s with link := l } :=
  ⟨rfl, hwires, hturn, hqueue, hone, id, id, id, id, id, id⟩

/-! ### Notices, replies and time -/

/-- A notice that replaces one of its kind leaves the kinds in the queue as they are. -/
theorem replaceNotice_kinds (n : Notice) (q : List Notice) :
    (replaceNotice n q).map Notice.kind = q.map Notice.kind := by
  induction q with
  | nil => rfl
  | cons m ms ih =>
    simp only [replaceNotice]; split
    · next h => simp [h]
    · simp [ih]

theorem dropCoalescible_sublist {q q' : List Notice} (h : dropCoalescible q = some q') : q'.Sublist q := by
  induction q generalizing q' with
  | nil => simp [dropCoalescible] at h
  | cons m ms ih =>
    simp only [dropCoalescible] at h
    split at h
    · cases h; exact List.sublist_cons_self m ms
    · obtain ⟨r, hr, rfl⟩ := Option.map_eq_some_iff.1 h
      exact (ih hr).cons_cons m

/-- R194: that a coalescible kind stands once is said of the kinds alone. -/
theorem pairwise_kinds {q : List Notice} : q.Pairwise (fun m n => m.kind = n.kind → m.kind.coalescible = false)
    ↔ (q.map Notice.kind).Pairwise (fun k j => k = j → k.coalescible = false) := by
  rw [List.pairwise_map]

/-- A notice that no other of the queue coalesces with may stand at the tail. -/
theorem pairwise_append_notice {q : List Notice} {n : Notice}
    (h : q.Pairwise (fun m n => m.kind = n.kind → m.kind.coalescible = false))
    (hn : n.kind.coalescible = false ∨ ∀ m ∈ q, m.kind ≠ n.kind) :
    (q ++ [n]).Pairwise (fun m n => m.kind = n.kind → m.kind.coalescible = false) := by
  rw [List.pairwise_append]
  refine ⟨h, List.pairwise_singleton _ _, fun m hm x hx heq => ?_⟩
  rw [List.mem_singleton] at hx
  subst hx
  obtain hc | hne := hn
  · rw [heq, hc]
  · exact absurd heq (hne m hm)

/-- R194: the queue stays well formed. -/
theorem enqueueNotice_wf (n : Notice) (q : List Notice) (h : QueueWf q) : QueueWf (enqueueNotice n q).1 := by
  refine ⟨enqueueNotice_length n q h.1, ?_⟩
  have hq := h.2
  unfold enqueueNotice
  split
  · rw [pairwise_kinds, replaceNotice_kinds, ← pairwise_kinds]; exact hq
  · next hno =>
    have hnew : n.kind.coalescible = false ∨ ∀ m ∈ q, m.kind ≠ n.kind := by
      simpa [or_iff_not_imp_left] using hno
    split
    · exact pairwise_append_notice hq hnew
    · split
      · exact hq
      · split
        · next q' hd =>
          have hsub := dropCoalescible_sublist hd
          exact pairwise_append_notice (hq.sublist hsub) (hnew.imp_right fun g m hm => g m (hsub.subset hm))
        · exact hq

theorem post_kept {s : State} {k : NoticeKind} {p : List Byte} : Kept wired s (post k p s) := by
  rw [post_eq]
  refine .of_link _ (fun _ => rfl) id (fun hq => ?_) id
  dsimp only
  split
  · exact hq
  · exact enqueueNotice_wf _ _ hq

/-- R189: a placed reply ends the command. -/
theorem placeReply_kept {s : State} {k : Byte} {p : List Byte} : Kept False s (placeReply k p s) :=
  .of_link _ False.elim id id fun _ => .inl rfl

theorem respond_kept {s : State} {k : Byte} {r : Result} {b : List Byte} : Kept False s (respond k r b s) := placeReply_kept

theorem reach_kept {s : State} {t : Option Nat} : Kept wired s (reach t s) := by rw [reach_eq]; exact .of_core rfl

end Sys2Proof.Machine
end

section
/-! The operations of INCD, LINE, BANK, VAULT, COIN and RATE keep the invariants (`Kept`). -/

namespace Sys2Proof.Machine

variable {wired : Prop} {s : State}

/-! ### INCD -/

/-- What `MapWf` says of one entry. -/
def EntryWf (e : Incident) : Prop :=
  1 ≤ e.count ∧ e.count ≤ 999 ∧ e.reported ≤ e.count ∧ (e.active = false → e.reported < e.count)
    ∧ (momentary e.kind = true → e.active = false)

theorem mem_insertIncident {e x : Incident} {m : List Incident} (h : x ∈ insertIncident e m) : x = e ∨ x ∈ m := by
  induction m with
  | nil => simpa [insertIncident] using h
  | cons y ys ih =>
    simp only [insertIncident] at h
    split at h
    · simpa using h
    · split at h <;> simp only [List.mem_cons] at h ⊢
      · exact h.imp_right .inr
      · obtain h | h := h
        · exact .inr (.inl h)
        · exact (ih h).imp_right .inr

/-- R142: the map keeps one entry a kind, in kind order, when an entry is put at its place. -/
theorem insertIncident_sorted (e : Incident) {m : List Incident}
    (h : m.Pairwise (fun a b => a.kind.number < b.kind.number)) :
    (insertIncident e m).Pairwise (fun a b => a.kind.number < b.kind.number) := by
  induction m with
  | nil => exact List.pairwise_singleton _ _
  | cons y ys ih =>
    rw [List.pairwise_cons] at h
    obtain ⟨hy, hys⟩ := h
    simp only [insertIncident]
    split
    · next hlt =>
      refine List.pairwise_cons.2 ⟨fun x hx => ?_, List.pairwise_cons.2 ⟨hy, hys⟩⟩
      obtain rfl | hx := List.mem_cons.1 hx
      · exact hlt
      · exact hlt.trans (hy x hx)
    · split
      · next heq => exact List.pairwise_cons.2 ⟨fun x hx => heq ▸ hy x hx, hys⟩
      · next hnlt hne =>
        refine List.pairwise_cons.2 ⟨fun x hx => ?_, ih hys⟩
        obtain rfl | hx := mem_insertIncident hx
        · omega
        · exact hy x hx

theorem insertIncident_wf {e : Incident} {m : List Incident} (he : EntryWf e) (h : MapWf m) :
    MapWf (insertIncident e m) := by
  refine ⟨insertIncident_sorted e h.1, fun x hx => ?_⟩
  obtain rfl | hx := mem_insertIncident hx
  · exact he
  · exact h.2 x hx

theorem filter_wf {m : List Incident} (p : Incident → Bool) (h : MapWf m) : MapWf (m.filter p) :=
  ⟨h.1.sublist List.filter_sublist, fun e he => h.2 e (List.mem_filter.1 he).1⟩

theorem findIncident_mem {k : IncidentKind} {m : List Incident} {e : Incident} (h : findIncident k m = some e) :
    e ∈ m ∧ e.kind = k :=
  ⟨List.mem_of_find?_eq_some h, by simpa using List.find?_some h⟩

theorem setMap_kept {m : List Incident} (h : MapWf s.incd.map → MapWf m) : Kept wired s (setMap m s) := .of_map m h

/-- R143, R144: the entry an occurrence leaves is well formed. -/
theorem occurrenceEntry_wf (t : Option Time) (k : IncidentKind) {m : List Incident} (h : MapWf m) :
    EntryWf (occurrenceEntry t k (findIncident k m)).1 := by
  cases hf : findIncident k m with
  | none =>
    refine ⟨by simp [occurrenceEntry], by simp [occurrenceEntry], by simp [occurrenceEntry], ?_, ?_⟩ <;>
      simp [occurrenceEntry]
  | some e =>
    obtain ⟨hmem, rfl⟩ := findIncident_mem hf
    obtain ⟨h1, h2, h3, h4, h5⟩ := h.2 e hmem
    simp only [occurrenceEntry]
    split
    · refine ⟨by dsimp; omega, by dsimp; omega, by dsimp; omega, fun _ => by dsimp; omega, fun hm => ?_⟩
      simp [hm, h5 hm]
    · refine ⟨h1, h2, by dsimp; split <;> omega, fun _ => by dsimp; split <;> omega, fun hm => ?_⟩
      simp [hm, h5 hm]

theorem countOccurrence_kept {k : IncidentKind} : Kept wired s (countOccurrence k s) :=
  post_kept.after (setMap_kept fun h => insertIncident_wf (occurrenceEntry_wf _ k h) h)

/-- R146: an entry that is not removable is well formed when its numbers are. -/
theorem settleEntry_kept {e : Incident} {c : IncidentCause}
    (h : MapWf s.incd.map → 1 ≤ e.count ∧ e.count ≤ 999 ∧ e.reported ≤ e.count
      ∧ (momentary e.kind = true → e.active = false)) : Kept wired s (settleEntry e c s) := by
  unfold settleEntry
  split
  · exact post_kept.after (setMap_kept (filter_wf _))
  · next hr =>
    refine (setMap_kept fun hm => insertIncident_wf ?_ hm).trans post_kept
    obtain ⟨h1, h2, h3, h5⟩ := h hm
    refine ⟨h1, h2, h3, fun ha => ?_, h5⟩
    simpa [removable, Incident.unreported, ha] using hr

theorem clearActive_kept {k : IncidentKind} {c : IncidentCause} : Kept wired s (clearActive k c s) := by
  unfold clearActive
  split
  · exact .refl
  · next e he =>
    split
    · refine settleEntry_kept fun h => ?_
      obtain ⟨h1, h2, h3, -, -⟩ := h.2 e (findIncident_mem he).1
      exact ⟨h1, h2, h3, fun _ => rfl⟩
    · exact .refl

theorem endCondition_kept {k : IncidentKind} : Kept wired s (endCondition k s) := clearActive_kept
theorem readAbsent_kept {k : IncidentKind} : Kept wired s (readAbsent k s) := clearActive_kept

theorem acknowledge_kept {k : IncidentKind} {n : Nat} : Kept wired s (acknowledge k n s) := by
  unfold acknowledge
  split
  · exact .refl
  · next e he =>
    refine settleEntry_kept fun h => ?_
    obtain ⟨h1, h2, h3, -, h5⟩ := h.2 e (findIncident_mem he).1
    exact ⟨h1, h2, by dsimp; omega, h5⟩

theorem clearEntry_kept {e : Incident} : Kept wired s (clearEntry e s) := post_kept.after (setMap_kept (filter_wf _))

/-! ### LINE -/

theorem setWatch_kept {w : Watch} : Kept wired s (setWatch w s) := post_kept.after (.of_line _)

theorem abandonVoltageReading_kept : Kept wired s (abandonVoltageReading s) := by
  unfold abandonVoltageReading; split
  · exact .refl
  · exact readAbsent_kept.after (.of_core rfl)

theorem seize_kept {o : Owner} {d : List Dtmf} : Kept wired s (seize o d s) :=
  (Kept.of_line _).after abandonVoltageReading_kept

theorem requestSeizure_kept {o : Owner} {d : List Dtmf} : Kept wired s (requestSeizure o d s).1 := by
  unfold requestSeizure; split
  · split
    · exact .refl
    · exact seize_kept
  · exact .refl
  · exact .refl

theorem release_kept : Kept wired s (release s) := by
  unfold release; split
  · exact .of_core rfl
  · exact .refl

theorem endingReport_kept : Kept wired s (endingReport s) := .of_core rfl
theorem beginSending_kept : Kept wired s (beginSending s) := .of_core rfl
theorem enterSeized_kept : Kept wired s (enterSeized s) := .of_core rfl

theorem sendInBand_kept {d : List Dtmf} : Kept wired s (sendInBand d s) := by
  unfold sendInBand; split
  · exact .of_core rfl
  · exact .refl

/-! ### BANK -/

/-- R110: a bank that is not made ACTIVE, or while the other is not ACTIVE, leaves at most one ACTIVE. -/
theorem setBank_kept {n : BankName} {b : Bank}
    (hstate : b.state = .active → (s.bank.get n).state = .active ∨ (s.bank.get (otherBank n)).state ≠ .active)
    (hclasses : (s.bank.get n).contents.classes.length = 32 → b.contents.classes.length = 32) :
    Kept wired s (setBank n b s) := by
  cases n with
  | a =>
    refine .of_bank _ (fun h hb => h ⟨?_, hb.2⟩) hclasses id
    exact (hstate hb.1).resolve_right (fun hn => hn hb.2)
  | b =>
    refine .of_bank _ (fun h hb => h ⟨hb.1, ?_⟩) id hclasses
    exact (hstate hb.2).resolve_right (fun hn => hn hb.1)

/-- A bank keeps the classes' number, and enters ACTIVE only beside one that is not. -/
theorem moveBank_kept {n : BankName} {b : BankState} {c : BankCause}
    (h : b = .active → (s.bank.get (otherBank n)).state ≠ .active) : Kept wired s (moveBank n b c s) :=
  post_kept.after (setBank_kept (fun hb => .inr (h hb)) id)

theorem openBank_kept {n : BankName} {l : List Byte} : Kept wired s (openBank n l s) := by
  have h : Kept wired s (setBank n { s.bank.get n with
      contents := { BankContents.emptied with label := l }, due := none } s) :=
    setBank_kept (fun hb => .inl hb) (fun _ => rfl)
  unfold openBank; dsimp only; split
  · exact h
  · exact (moveBank_kept (by simp)).after h

theorem displace_kept {n : BankName} : Kept wired s (displace n s) := by
  unfold displace; split
  · exact moveBank_kept (by split <;> simp)
  · exact .refl

@[simp] theorem otherBank_otherBank (n : BankName) : otherBank (otherBank n) = n := by cases n <;> rfl

@[simp] theorem BankBlock.get_other_set (b : BankBlock) (n : BankName) (x : Bank) :
    (b.set (otherBank n) x).get n = b.get n := by cases n <;> rfl

@[simp] theorem post_bank (k : NoticeKind) (p : List Byte) (s : State) : (post k p s).bank = s.bank := by rw [post_eq]

theorem moveBank_bank (n : BankName) (b : BankState) (c : BankCause) (s : State) :
    (moveBank n b c s).bank = s.bank.set n { s.bank.get n with state := b } := by
  unfold moveBank; rw [post_bank]; rfl

/-- R119 step 1: a displaced bank is not ACTIVE any more. -/
theorem displace_not_active (n : BankName) (s : State) : ((displace n s).bank.get n).state ≠ .active := by
  unfold displace; split
  · rw [moveBank_bank, BankBlock.get_set]; dsimp only; split <;> simp
  · assumption

theorem activate_kept {n : BankName} : Kept wired s (activate n s) := by
  have hd := displace_not_active (otherBank n) s
  have hset : Kept wired s (setBank n { (displace (otherBank n) s).bank.get n with
      serial := max (displace (otherBank n) s).bank.a.serial (displace (otherBank n) s).bank.b.serial + 1
      due := none } (displace (otherBank n) s)) := .after (setBank_kept (fun hb => .inl hb) id) displace_kept
  exact (moveBank_kept fun _ => by simpa using hd).after hset

theorem judgeActivation_kept : Kept wired s (judgeActivation s) := by
  unfold judgeActivation; split
  · exact .refl
  · split
    · exact .refl
    · split
      · exact activate_kept
      · exact .refl

/-- R124: a bank's area is written as the bank stands. -/
theorem writeBank_kept {n : BankName} : Kept wired s (writeBank n s) := by
  refine ⟨rfl, fun _ => by cases n <;> rfl, id, id, id, id, id, ?_, ?_, ?_, ?_⟩
  · cases n <;> exact id
  · cases n <;> exact id
  · cases n <;> exact id
  · rintro ⟨h1, h2, h3, h4, h5, h6, h7, h8, h9, h10, h11, h12⟩
    cases n with
    | a => exact ⟨h1, h2, h3, h4, h5, h6, h7, h8, Area.write_all _ _ _ h9 h4, h10, h11, h12⟩
    | b => exact ⟨h1, h2, h3, h4, h5, h6, h7, h8, h9, Area.write_all _ _ _ h10 h5, h11, h12⟩

theorem scheduleBank_kept {n : BankName} {w : When} : Kept wired s (scheduleBank n w s) :=
  judgeActivation_kept.after (writeBank_kept.after ((moveBank_kept (by simp)).after
    (setBank_kept (fun hb => .inl hb) id)))

theorem setInUse_kept {n : BankName} {v : Bool} : Kept wired s (setInUse n v s) := by
  cases n <;> exact .of_bank _ id id id

theorem clearInUse_kept {n : BankName} : Kept wired s (clearInUse n s) := by
  unfold clearInUse; dsimp only; split
  · exact (moveBank_kept (by simp)).after setInUse_kept
  · exact setInUse_kept

/-! ### VAULT -/

theorem fullFollow_kept : Kept wired s (fullFollow s) := by
  unfold fullFollow; dsimp only; split
  · exact .refl
  · split
    · split
      · exact countOccurrence_kept.after (.of_core rfl)
      · exact endCondition_kept.after (.of_core rfl)
    · exact .of_core rfl

theorem nearFollow_kept : Kept wired s (nearFollow s) := by
  unfold nearFollow; dsimp only; split
  · exact .refl
  · exact post_kept.after (.of_core rfl)

theorem vaultRefresh_kept : Kept wired s (vaultRefresh s) := nearFollow_kept.after fullFollow_kept

@[simp] theorem bumpNth_length (n : Nat) (l : List Nat) : (bumpNth n l).length = l.length := by
  induction l generalizing n with
  | nil => rfl
  | cons x xs ih => simp only [bumpNth]; split <;> simp [ih]

theorem setCounters_kept {c : Counters}
    (h : s.vault.counters.denoms.length = 8 → c.denoms.length = 8) : Kept wired s (setCounters c s) := .of_vault _ h

theorem startCollection_kept : Kept wired s (startCollection s) := by
  unfold startCollection; split
  · exact .refl
  · exact post_kept.after (.of_core rfl)

theorem completeCollection_kept {c : Closing} : Kept wired s (completeCollection c s) := by
  unfold completeCollection; split
  · exact .refl
  · exact post_kept.after (post_kept.after (vaultRefresh_kept.after (Kept.of_vault _ fun _ => rfl)))

/-! ### COIN -/

theorem setOpen_kept {o : Option Slot} : Kept wired s (setOpen o s) := .of_core rfl
theorem modifyOpen_kept {f : CallRecord → CallRecord} : Kept wired s (modifyOpen f s) := .of_core rfl

theorem modifyOwnerSlot_kept {g : Slot → Slot} : Kept wired s (modifyOwnerSlot g s) := by
  unfold modifyOwnerSlot; split
  · exact .of_core rfl
  · split
    · split
      · exact .refl
      · exact .of_core rfl
    · exact .of_core rfl

theorem modifyOwner_kept {f : CallRecord → CallRecord} : Kept wired s (modifyOwner f s) := modifyOwnerSlot_kept

@[simp] theorem markMoving_length (k : Stroke) (n : Nat) (l : List EscrowEntry) :
    (markMoving k n l).length = l.length := by
  cases l <;> rfl

theorem beginStroke_kept {k : Stroke} : Kept wired s (beginStroke k s) :=
  .of_coin _ fun h => by simpa using h
theorem beginBlind_kept {k : Stroke} : Kept wired s (beginBlind k s) := .of_core rfl
theorem restMover_kept : Kept wired s (restMover s) := .of_core rfl
theorem dropHead_kept : Kept wired s (dropHead s) := .of_coin _ fun h => by simp; omega
theorem emptyList_kept : Kept wired s (emptyList s) := .of_coin _ fun h => by simp; omega
theorem endRun_kept : Kept wired s (endRun s) := .of_core rfl

theorem tallies_kept {t : RunTally} {n : CoinSum} :
    Kept wired s { s with coin := { s.coin with strandedTally := n, tally := t } } := .of_core rfl

theorem strand_kept : Kept wired s (strand s) := by
  unfold strand; split
  · exact .refl
  · exact post_kept.after (vaultRefresh_kept.after (tallies_kept.after (emptyList_kept.after modifyOwner_kept)))

theorem runStep_kept : Kept wired s (runStep s) := by
  have h : Kept wired s (if s.coin.order = .outOfOrder then endRun (strand s) else if s.coin.escrow.isEmpty then endRun s
      else if s.coin.mover ≠ .idle then s else beginStroke .refund s) := by
    split
    · exact endRun_kept.after strand_kept
    · split
      · exact endRun_kept
      · split
        · exact .refl
        · exact beginStroke_kept
  unfold runStep; split
  · exact h
  · exact h
  · exact .refl
  · exact .refl

theorem startRun_kept {r : RefundRun} : Kept wired s (startRun r s) := runStep_kept.after (.of_core rfl)
theorem escrowFails_kept : Kept wired s (escrowFails s) := countOccurrence_kept.after (.of_core rfl)
theorem startPurge_kept : Kept wired s (startPurge s) := beginBlind_kept.after (.of_core rfl)
theorem endPurge_kept : Kept wired s (endPurge s) := endRun_kept.after (restMover_kept.after emptyList_kept)

theorem refundHead_kept {e : EscrowEntry} : Kept wired s (refundHead e s) :=
  post_kept.after (vaultRefresh_kept.after (.after (.of_same_coins _ rfl) (modifyOwner_kept.after
    (dropHead_kept.after restMover_kept))))

theorem jamHead_kept {e : EscrowEntry} {k : Stroke} : Kept wired s (jamHead e k s) :=
  post_kept.after (escrowFails_kept.after (vaultRefresh_kept.after (.after (.of_same_coins _ rfl)
    (modifyOwner_kept.after (dropHead_kept.after restMover_kept)))))

theorem vaultCounts_kept {d v n : Nat} : Kept wired s (vaultCounts d v n s) :=
  .after (.of_same_denoms _ rfl) (setCounters_kept fun h => by simpa [Counters.coin] using h)

theorem collectHead_kept {e : EscrowEntry} {n : Nat} : Kept wired s (collectHead e n s) :=
  post_kept.after (vaultRefresh_kept.after (vaultCounts_kept.after (dropHead_kept.after restMover_kept)))

theorem markRecent_kept : Kept wired s (markRecent s) := by
  have h : Kept wired s { s with coin := { s.coin with
      escrow := s.coin.escrow.map (markEntry s.now)
      transit := s.coin.transit.map (fun t =>
        if recentCoin s.now (some t.acceptAt) then { t with suspect := true } else t) } } :=
    .of_coin _ fun h => by cases ht : s.coin.transit <;> simpa [ht] using h
  unfold markRecent; dsimp only; split
  · exact h
  · exact modifyOwner_kept.after h

/-! ### RATE -/

/-- R90: a step due touches neither side of U + H = K + C. -/
theorem charge_kept {v : Nat} : Kept wired s (charge v s) := .of_rate _ id

theorem setAcct_kept {a : Account}
    (h : s.rate.acct.unused + s.rate.acct.charged = s.rate.acct.carried + s.rate.acct.collected →
      a.unused + a.charged = a.carried + a.collected) : Kept wired s (setAcct a s) := .of_rate _ h

theorem tellPhase_kept {p : Phase} : Kept wired s (tellPhase p s) := by cases p <;> exact .of_core rfl

theorem setPhase_kept {p : Phase} : Kept wired s (setPhase p s) := by
  unfold setPhase; split
  · exact .refl
  · exact tellPhase_kept.after (.of_core rfl)

theorem warningTest_kept : Kept wired s (warningTest s) := setPhase_kept

/-- R91 test 1: what moves from U to H leaves their sum. -/
theorem completeSettlement_kept (h : s.rate.acct.due ≤ s.rate.acct.unused) : Kept wired s (completeSettlement s) :=
  warningTest_kept.after (Kept.of_rate _ fun hb => by unfold AccountBalanced Account.settle at *; dsimp at *; omega)

theorem enterGrace_kept : Kept wired s (enterGrace s).1 := by
  unfold enterGrace; split
  · exact .refl
  · exact setPhase_kept.after (.of_core rfl)

theorem settle_kept : Kept wired s (settle s).1 := by
  unfold settle; split
  · next h => exact completeSettlement_kept h
  · split
    · exact setPhase_kept
    · split
      · exact setPhase_kept.after beginStroke_kept
      · split
        · exact setPhase_kept
        · split
          · exact .refl
          · exact enterGrace_kept

theorem settleDue_kept : Kept wired s (settleDue s).1 := by
  unfold settleDue; split
  · exact settle_kept
  · exact .refl

theorem settleStep_kept : Kept wired s (settleStep s).1 := by
  unfold settleStep; split
  · exact .refl
  · exact settleDue_kept

theorem coinOutcome_kept : Kept wired s (coinOutcome s).1 := by
  unfold coinOutcome; split
  · split
    · exact settle_kept
    · exact warningTest_kept
  · exact .refl

theorem takeSteps_kept {d : List HeldStep} : Kept wired s (takeSteps d s) := charge_kept.after (.of_core rfl)

theorem takeOrHold_kept {h : HeldStep} : Kept wired s (takeOrHold h s) := by
  unfold takeOrHold; split
  · exact .of_core rfl
  · exact takeSteps_kept

theorem startPeriod_kept {p : Option Period} {t : Nat} : Kept wired s (startPeriod p t s) := by
  unfold startPeriod; split
  · exact takeOrHold_kept.after (.of_core rfl)
  · exact .of_core rfl

theorem armSupervision_kept : Kept wired s (armSupervision s) := .of_core rfl
theorem beginSupervision_kept {n : BankName} {c : Nat} : Kept wired s (beginSupervision n c s) := .of_core rfl

theorem openAccount_kept {c : Nat} {n : BankName} {p : Price} {k : Nat} {b : Bool} : Kept wired s (openAccount c n p k b s) :=
  takeOrHold_kept.after (setInUse_kept.after (.of_rate _ fun _ => show _ + 0 = _ + 0 from rfl))

theorem firstPulse_kept {b g : Bool} : Kept wired s (firstPulse b g s) := by
  unfold firstPulse; split
  · exact charge_kept.after (.of_core rfl)
  · exact .refl

theorem startAccount_kept {c : Nat} {n : BankName} {p : Price} {k : Nat} {b g : Bool} :
    Kept wired s (startAccount c n p k b g s).1 := by
  unfold startAccount; dsimp only; split
  · exact settle_kept.after (startPeriod_kept.after openAccount_kept)
  · exact settle_kept.after (firstPulse_kept.after (beginSupervision_kept.after openAccount_kept))

theorem countPulse_kept {g : Bool} : Kept wired s (countPulse g s) := .of_core rfl
theorem absorbPulse_kept : Kept wired s (absorbPulse s) := .of_core rfl

theorem takePulse_kept {g : Bool} : Kept wired s (takePulse g s).1 := by
  unfold takePulse; split
  · dsimp only; split
    · exact settleDue_kept.after (armSupervision_kept.after (charge_kept.after countPulse_kept))
    · exact absorbPulse_kept.after countPulse_kept
    · exact countPulse_kept
    · exact countPulse_kept
  · exact .refl

theorem fallBack_kept {t : Nat} : Kept wired s (fallBack t s).1 :=
  settleStep_kept.after (startPeriod_kept.after (.of_core rfl))

/-- R92: a coin's value joins both sides. -/
theorem creditCollected_kept {v n : Nat} : Kept wired s (creditCollected v n s).1 := by
  have h : Kept wired s (settleDue { setAcct (s.rate.acct.credit v) s with
      call := { (setAcct (s.rate.acct.credit v) s).call with lastCredited := some n } }).1 :=
    settleDue_kept.after ((Kept.of_call _).after (setAcct_kept fun hb => by simp only [Account.credit]; omega))
  unfold creditCollected
  split
  · exact .refl
  · exact .refl
  · exact h

theorem clearSteps_kept : Kept wired s (clearSteps s) := .of_core rfl

theorem takeHeld_kept : Kept wired s (takeHeld s).1 := by
  unfold takeHeld; split
  · exact .refl
  · exact settleDue_kept.after (takeSteps_kept.after clearSteps_kept)

theorem setPhase_acct (p : Phase) (s : State) : (setPhase p s).rate.acct = s.rate.acct := by
  unfold setPhase; split
  · rfl
  · cases p <;> rfl

/-- R105 step 4: what closes moves from U to H. -/
theorem accountEnded_kept : Kept wired s (accountEnded s) := by
  have h : Kept wired s { setPhase .ended s with rate := { s.rate with
      acct := s.rate.acct.close, phase := .ended, closing := false } } := by
    refine (Kept.of_rate (s := setPhase .ended s) _ fun hb => ?_).after setPhase_kept
    unfold AccountBalanced at *
    rw [setPhase_acct] at hb
    simp only [Account.close, Account.settle]
    split
    · dsimp only; omega
    · exact hb
  unfold accountEnded; dsimp only; split
  · exact clearInUse_kept.after h
  · exact h

theorem beginClose_kept {t : Nat} : Kept wired s (beginClose t s) := takeSteps_kept.after (.of_core rfl)

theorem tryClose_kept : Kept wired s (tryClose s) := by
  unfold tryClose; split
  · exact accountEnded_kept
  · exact .refl

theorem rateInactive_kept : Kept wired s (rateInactive s) := .of_rate _ fun _ => show 0 + 0 = 0 + 0 from rfl

theorem copyClosed_kept : Kept wired s (copyClosed s) := by
  unfold copyClosed; split
  · exact rateInactive_kept.after modifyOpen_kept
  · exact .refl

theorem closeForFollowOn_kept : Kept wired s (closeForFollowOn s) := accountEnded_kept.after (.of_core rfl)

end Sys2Proof.Machine
end

section
/-! The operations of RPT, CALL and KEYS, and those of a start, keep the invariants (`Kept`). -/

namespace Sys2Proof.Machine

variable {wired : Prop} {s : State}

/-! ### RPT -/

theorem leaveAttempt_kept : Kept wired s (leaveAttempt s) := .after (.of_rpt _) release_kept
theorem restState_kept : Kept wired s (restState s) := .of_rpt _

theorem completeAttempt_kept : Kept wired s (completeAttempt s) :=
  .after post_kept (.after restState_kept (.after (.of_rpt _) leaveAttempt_kept))

theorem startWait_kept {d : Nat} : Kept wired s (startWait d s) := .of_rpt _

theorem failAttempt_kept {f : ReportFailure} : Kept wired s (failAttempt f s) :=
  .after post_kept (.after startWait_kept (.after (.of_rpt _) leaveAttempt_kept))

theorem abortAttempt_kept {c : AbortCause} : Kept wired s (abortAttempt c s) := by
  unfold abortAttempt; split
  · exact .after post_kept (.after restState_kept leaveAttempt_kept)
  · exact .refl

theorem endWait_kept : Kept wired s (endWait s) := .after restState_kept (.of_rpt _)

theorem shortenWait_kept : Kept wired s (shortenWait s) := by
  unfold shortenWait; split
  · exact .of_rpt _
  · exact .refl

theorem urgentToReport_kept : Kept wired s (urgentToReport s) := .after shortenWait_kept (.of_rpt _)

theorem startAttempt_kept : Kept wired s (startAttempt s) := by
  have h : Kept wired s (requestSeizure .rpt (s.config.centreNumber.map Symbol.dtmf) s).1 := requestSeizure_kept
  unfold startAttempt
  split <;> (next x hx => rw [hx] at h; exact h.trans (.of_rpt _))

theorem sendInHand_kept {n : Nat} : Kept wired s (sendInHand n s) := by
  unfold sendInHand; split <;> exact .after sendInBand_kept (.of_rpt _)

theorem takeReady_kept : Kept wired s (takeReady s) := .after sendInHand_kept (.of_rpt _)

theorem takeAck_kept : Kept wired s (takeAck s) := by
  unfold takeAck; split
  · exact .after sendInHand_kept (.after (.of_rpt _) (.after acknowledge_kept (.of_rpt _)))
  · exact .refl

theorem sendFailed_kept : Kept wired s (sendFailed s) := by
  unfold sendFailed; dsimp only; split
  · exact .after sendInHand_kept (.of_rpt _)
  · exact .after failAttempt_kept (.of_rpt _)

theorem sendDone_kept : Kept wired s (sendDone s) := by
  unfold sendDone; split <;> exact .of_rpt _

theorem reportLineLost_kept : Kept wired s (reportLineLost s) := by
  unfold reportLineLost; split
  · exact completeAttempt_kept
  · exact failAttempt_kept

theorem reportCadence_kept {c : Cadence} : Kept wired s (reportCadence c s) := by
  unfold reportCadence; split
  · exact takeReady_kept
  · exact takeAck_kept
  · exact sendFailed_kept
  · exact completeAttempt_kept
  · exact .refl

/-! ### CALL -/

theorem setCallState_kept {c : CallState} : Kept wired s (setCallState c s) := .after post_kept (.of_call _)
theorem keysClear_kept : Kept wired s (keysClear s) := .of_same_cells _ rfl
theorem keysStart_kept : Kept wired s (keysStart s) := .of_same_cells _ rfl
theorem keysStop_kept : Kept wired s (keysStop s) := .of_same_cells _ rfl

theorem setLog_kept {g : LogArea} (h : LogWf s.store.log → LogWf g) : Kept wired s (setLog g s) := by
  unfold setLog; dsimp only; split
  · exact .of_log _ h
  · exact .after post_kept (.of_log _ h)

/-- R174: sequence numbers are 1..4294967295. -/
theorem nextSeq_range {n : Nat} (h : 1 ≤ n ∧ n ≤ 4294967295) : 1 ≤ nextSeq n ∧ nextSeq n ≤ 4294967295 := by
  unfold nextSeq; split <;> omega

/-- R174: a record with the next number goes on the chain. -/
theorem seqChain_append {n : Nat} {l : List CallRecord} {r : CallRecord} (h : SeqChain n l) (hr : r.seq = n) :
    SeqChain (nextSeq n) (l ++ [r]) := by
  induction l with
  | nil => exact congrArg nextSeq hr
  | cons x xs ih =>
    cases xs with
    | nil => exact ⟨h.trans hr.symm, congrArg nextSeq hr⟩
    | cons y ys => exact ⟨h.1, ih h.2⟩

theorem seqChain_tail {n : Nat} {r : CallRecord} {l : List CallRecord} (h : SeqChain n (r :: l)) : SeqChain n l := by
  cases l with
  | nil => trivial
  | cons x xs => exact h.2

/-- R174: with room, the log that takes a record with its next number stays well formed. -/
theorem logWf_append {g : LogArea} {r : CallRecord} (h : LogWf g) (hroom : g.records.length < 64)
    (hr : r.seq = g.nextSeq) : LogWf { g with records := g.records ++ [r], nextSeq := nextSeq g.nextSeq } := by
  obtain ⟨-, hchain, hrange⟩ := h
  refine ⟨?_, seqChain_append hchain hr, nextSeq_range hrange⟩
  rw [List.length_append]; exact hroom

theorem storeRecord_kept {r : CallRecord} : Kept wired s (storeRecord r s).1 := by
  unfold storeRecord; dsimp only; split
  · next hroom => exact .after post_kept (setLog_kept fun h => logWf_append h hroom rfl)
  · exact .after post_kept (.after post_kept (.of_log _ id))

theorem storeSlot_kept {x : Slot} : Kept wired s (storeSlot x s).1 := .after (.of_log _ id) storeRecord_kept

theorem beginCall_kept : Kept wired s (beginCall s) :=
  .after setCallState_kept (.after post_kept (.after keysStart_kept (.after keysClear_kept (.of_call _))))

theorem enterIdle_kept : Kept wired s (enterIdle s) := .after setCallState_kept (.of_call _)
theorem enterAbandoned_kept : Kept wired s (enterAbandoned s) := .after setCallState_kept (.of_call _)

theorem leaveClearing_kept : Kept wired s (leaveClearing s) := by
  unfold leaveClearing; split
  · exact enterIdle_kept
  · split
    · exact beginCall_kept
    · exact enterAbandoned_kept

theorem takeReport_kept : Kept wired s (takeReport s) := by
  unfold takeReport; split
  · exact .after modifyOwnerSlot_kept (.of_same_coins _ rfl)
  · exact .refl

theorem storeAll_kept (l : List Slot) : ∀ s : State, Kept wired s (storeAll l s) := by
  induction l with
  | nil => exact fun _ => .refl
  | cons x xs ih => exact fun s => .after (ih _) storeSlot_kept

theorem storeAtStart_kept : Kept wired s (storeAtStart s) := by
  unfold storeAtStart; split
  · exact .refl
  · split
    · exact .after (storeAll_kept _ _) (.of_call _)
    · exact .refl

theorem storeClosing_kept : Kept wired s (storeClosing s) := by
  unfold storeClosing; split
  · split
    · exact .after storeSlot_kept (.of_call _)
    · exact .refl
  · exact .refl

theorem clearAccount_kept : Kept wired s (clearAccount s) := by
  unfold clearAccount; dsimp only; split
  · exact .after copyClosed_kept tryClose_kept
  · exact tryClose_kept

theorem refundNothing_kept : Kept wired s (refundNothing s) := .of_core rfl

theorem askRefund_kept : Kept wired s (askRefund s) := by
  unfold askRefund; split
  · dsimp only; split
    · exact .after refundNothing_kept (.of_call _)
    · split
      · exact .after startRun_kept (.of_call _)
      · exact .refl
  · exact .refl

theorem storeOpen_kept : Kept wired s (storeOpen s) := by
  unfold storeOpen; split
  · exact .refl
  · split
    · exact .after leaveClearing_kept (.after storeSlot_kept setOpen_kept)
    · exact .refl

theorem progress_kept : Kept wired s (progress s) :=
  .after storeOpen_kept (.after takeReport_kept (.after askRefund_kept (.after clearAccount_kept
    (.after storeClosing_kept (.after storeAtStart_kept takeReport_kept)))))

theorem coinSettled_kept : Kept wired s (coinSettled s) := .after progress_kept runStep_kept

theorem fixEnd_kept {c : EndCause} {t : Nat} : Kept wired s (fixEnd c t s) := .of_call _

theorem releaseCallLine_kept : Kept wired s (releaseCallLine s) := by
  unfold releaseCallLine; split
  · exact release_kept
  · exact .refl

theorem tellRateEnd_kept {t : Nat} : Kept wired s (tellRateEnd t s) := by
  unfold tellRateEnd; split
  · exact .refl
  · exact beginClose_kept

theorem endCall_kept {c : EndCause} {t : Nat} : Kept wired s (endCall c t s) :=
  .after progress_kept (.after tellRateEnd_kept (.after releaseCallLine_kept (.after setCallState_kept
    (.after keysStop_kept fixEnd_kept))))

theorem lineRequest_kept : Kept wired s (lineRequest s) := by
  unfold lineRequest; split
  · exact .after setCallState_kept abortAttempt_kept
  · have h : Kept wired s (requestSeizure .call (s.keys.buffer.map Symbol.dtmf) s).1 := requestSeizure_kept
    split
    · next x hx => rw [hx] at h; exact h.trans setCallState_kept
    · next x hx => rw [hx] at h; exact h.trans endCall_kept
    · next x hx hy hz =>
      rw [hz] at h
      split
      · exact h
      · exact h.trans setCallState_kept

theorem depositCheck_kept : Kept wired s (depositCheck s) := by
  unfold depositCheck; dsimp only; split
  · exact .after lineRequest_kept (.of_call _)
  · exact .after setCallState_kept (.of_call _)

theorem depositAgain_kept : Kept wired s (depositAgain s) := by
  unfold depositAgain; split
  · exact .after lineRequest_kept (.of_call _)
  · exact .refl

theorem checkNumber_kept {k : NumberKind} {v : ServiceLevel} : Kept wired s (checkNumber k v s) := by
  unfold checkNumber; split
  · exact endCall_kept
  · split
    · exact endCall_kept
    · split
      · exact endCall_kept
      · split
        · exact depositCheck_kept
        · exact lineRequest_kept

theorem numberComplete_kept {k : NumberKind} {c : Option Nat} : Kept wired s (numberComplete k c s) := by
  unfold numberComplete; split
  · exact .after checkNumber_kept (.after modifyOpen_kept (.of_call _))
  · exact .refl

theorem numberFails_kept {c : EndCause} {k : NumberKind} : Kept wired s (numberFails c k s) := by
  unfold numberFails; split
  · exact .after endCall_kept modifyOpen_kept
  · exact .refl

theorem followOnEnd_kept : Kept wired s (followOnEnd s) := by
  unfold followOnEnd; split
  · exact .refl
  · exact .after setCallState_kept (.after keysClear_kept (.after (.of_call _) (.after setOpen_kept
      (.after storeSlot_kept (.after releaseCallLine_kept (.after copyClosed_kept (.after closeForFollowOn_kept
        (.after setOpen_kept (.of_call _)))))))))

theorem followOnPress_kept : Kept wired s (followOnPress s) := by
  unfold followOnPress; split
  · split
    · exact followOnEnd_kept
    · exact .of_call _
  · exact .refl

theorem followOnCollect_kept : Kept wired s (followOnCollect s) :=
  .after setCallState_kept (.after keysStart_kept (.of_call _))

/-- R14, R21: what RATE reports goes on from the state it leaves. -/
theorem actVerdict_kept {r : State × Verdict} (h : Kept wired s r.1) : Kept wired s (actVerdict r) := by
  refine h.trans ?_
  unfold actVerdict; dsimp only; split
  · exact .refl
  · split
    · exact followOnEnd_kept
    · exact .refl
  · exact endCall_kept
  · exact endCall_kept

theorem markAnswer_kept : Kept wired s (markAnswer s) := .after setOpen_kept (.of_call _)

theorem answerCharged_kept {b g : Bool} : Kept wired s (answerCharged b g s) := by
  unfold answerCharged; split
  · split
    · exact actVerdict_kept (.after startAccount_kept (.after setCallState_kept modifyOpen_kept))
    · exact endCall_kept
  · exact endCall_kept

theorem answerCall_kept {b g : Bool} : Kept wired s (answerCall b g s) := by
  unfold answerCall; split
  · dsimp only; split
    · exact .after answerCharged_kept markAnswer_kept
    · exact .after setCallState_kept markAnswer_kept
  · exact .refl

theorem urgentToCall_kept : Kept wired s (urgentToCall s) := by
  unfold urgentToCall; split
  · exact endCall_kept
  · exact .refl

theorem raiseIncident_kept {k : IncidentKind} : Kept wired s (raiseIncident k s) := by
  unfold raiseIncident; dsimp only; split
  · exact .after urgentToCall_kept (.after urgentToReport_kept countOccurrence_kept)
  · exact countOccurrence_kept

/-! ### KEYS -/

theorem complete_kept {k : NumberKind} {c : Option Nat} : Kept wired s (complete k c s) :=
  .after post_kept (.after numberComplete_kept keysStop_kept)

theorem analyseStored_kept : Kept wired s (analyseStored s) := by
  unfold analyseStored; dsimp only; split
  · exact .after complete_kept (.of_same_cells _ rfl)
  · split
    · split
      · exact .after complete_kept (.of_same_cells _ rfl)
      · exact .after post_kept (.of_same_cells _ rfl)
    · exact .after post_kept (.of_same_cells _ rfl)

theorem analyseTimeout_kept : Kept wired s (analyseTimeout s) := by
  unfold analyseTimeout; dsimp only; split
  · split
    · exact .after complete_kept (.of_same_cells _ rfl)
    · exact .after numberFails_kept (.after keysStop_kept (.of_same_cells _ rfl))
  · exact .after numberFails_kept (.after keysStop_kept (.of_same_cells _ rfl))

theorem hashPress_kept : Kept wired s (hashPress s) := by
  unfold hashPress; split
  · split
    · split
      · exact .after complete_kept (.of_same_cells _ rfl)
      · exact .refl
    · exact .refl
  · exact .refl

theorem symbolTold_kept : Kept wired s (symbolTold s) := by
  unfold symbolTold; split
  · exact .of_call _
  · exact .refl

theorem storeSymbol_kept {x : Symbol} : Kept wired s (storeSymbol x s) := by
  unfold storeSymbol; split
  · exact .after analyseStored_kept (.after symbolTold_kept (.of_same_cells _ rfl))
  · exact .refl

theorem deliverPress_kept {k : Key} : Kept wired s (deliverPress k s) := by
  unfold deliverPress; split
  · exact followOnPress_kept
  · split
    · exact hashPress_kept
    · exact .refl
  · split
    · exact storeSymbol_kept
    · exact .refl
  · split
    · exact storeSymbol_kept
    · exact .refl

theorem setCell_kept {k : Key} {c : KeyCell} : Kept wired s (setCell k c s) := .of_same_cells _ List.length_set

theorem settleCrossing_kept {k : Key} {b : Bool} : Kept wired s (settleCrossing k b s) := by
  refine ⟨rfl, fun _ => rfl, id, id, id, id, id, id, id, id, ?_⟩
  rintro ⟨h1, h2, h3, h4⟩
  exact ⟨h1, List.length_set.trans h2, h3.trans_eq List.length_set.symm, h4⟩

theorem pressKey_kept {k : Key} : Kept wired s (pressKey k s) := by
  unfold pressKey; split
  · split
    · exact setCell_kept
    · exact .after deliverPress_kept setCell_kept
  all_goals exact .refl

theorem releaseKey_kept {k : Key} : Kept wired s (releaseKey k s) := by
  unfold releaseKey; split
  · exact .refl
  all_goals
    dsimp only; split
    · exact .after endCondition_kept setCell_kept
    · exact setCell_kept

theorem stickKey_kept {k : Key} : Kept wired s (stickKey k s) := by
  unfold stickKey; dsimp only; split
  · exact .after countOccurrence_kept setCell_kept
  · exact .after countOccurrence_kept setCell_kept
  all_goals exact .refl

theorem detectorInterval_kept {a b c : Bool} : Kept wired s (detectorInterval a b c s) := .of_core rfl

end Sys2Proof.Machine
end

section
/-! A start keeps the invariants (`Kept`): each block takes what its area holds, which the invariants speak of too. -/

namespace Sys2Proof.Machine

variable {wired : Prop} {s : State}

/-! ### What the areas give (R179) -/

/-- What an area gives at a start satisfies what both its copies and the factory values satisfy. -/
theorem contentsOr_of_all {α : Type} {P : α → Prop} {x : Area α} {d : α} (hx : x.All P) (hd : P d) :
    P (contentsOr x d) := by
  unfold contentsOr
  split
  · next c hc =>
    obtain ⟨rfl, hs⟩ | ⟨rfl, hs⟩ := Area.newest_cases hc
    · exact hx.1 hs
    · exact hx.2 hs
  · exact hd

theorem repaired_all {α : Type} {P : α → Prop} {x : Area α} {v : α} (hx : x.All P) (hv : P v) : (repaired x v).All P := by
  unfold repaired
  split
  · exact ⟨fun _ => hv, fun _ => hv⟩
  · exact hx

theorem both_all {α : Type} {P : α → Prop} {v : α} (hv : P v) : (Area.both v).All P := ⟨fun _ => hv, fun _ => hv⟩

theorem logWf_empty : LogWf {} := ⟨by decide, trivial, by decide, by decide⟩

theorem mapWf_nil : MapWf [] := ⟨List.Pairwise.nil, fun _ h => absurd h (List.not_mem_nil)⟩

@[simp] theorem markCounted_length (n : Nat) (l : List EscrowEntry) : (markCounted n l).length = l.length := by
  induction l generalizing n with
  | nil => cases n <;> rfl
  | cons e es ih => cases n with
    | zero => rfl
    | succ n => simp [markCounted, ih]

/-! ### The blocks at their starting values -/

theorem judgedAt_factory (ar : Areas) : judgedAt .factory ar = factoryAreas := rfl
theorem judgedAt_other {k : StartKind} (hk : k ≠ .factory) (ar : Areas) : judgedAt k ar = judgeAreas ar := if_neg hk

theorem blocksAtStart_log (k : StartKind) (h : LogKept s) :
    LogKept (blocksAtStart k (judgedAt k s.store.areas) s) := by
  by_cases hk : k = .factory
  · subst hk; exact ⟨logWf_empty, both_all logWf_empty⟩
  · rw [judgedAt_other hk]
    have hj : LogWf (judgeAreas s.store.areas).log := contentsOr_of_all h.2 logWf_empty
    refine ⟨hj, ?_⟩
    simp only [blocksAtStart, repairedAreas, if_neg hk]
    exact repaired_all h.2 hj

theorem blocksAtStart_map (k : StartKind) (h : MapKept s) :
    MapKept (blocksAtStart k (judgedAt k s.store.areas) s) := by
  by_cases hk : k = .factory
  · subst hk; exact ⟨mapWf_nil, both_all mapWf_nil⟩
  · rw [judgedAt_other hk]
    have hj : MapWf (judgeAreas s.store.areas).incd := contentsOr_of_all h.2 mapWf_nil
    refine ⟨hj, ?_⟩
    simp only [blocksAtStart, repairedAreas, if_neg hk]
    exact repaired_all h.2 hj

theorem blocksAtStart_escrow (k : StartKind) (h : EscrowFits s) :
    EscrowFits (blocksAtStart k (judgedAt k s.store.areas) s) := by
  by_cases hk : k = .factory
  · subst hk; exact ⟨show 0 + 0 ≤ 12 by decide, both_all (by decide)⟩
  · rw [judgedAt_other hk]
    have hj : (judgeAreas s.store.areas).coin.escrow.length ≤ 12 :=
      contentsOr_of_all (P := fun a : CoinArea => a.escrow.length ≤ 12) h.2 (by decide)
    refine ⟨?_, ?_⟩
    · simpa [blocksAtStart, coinAtStart, coinFound] using hj
    · simpa only [blocksAtStart, repairedAreas, if_neg hk] using h.2

theorem blocksAtStart_tables (k : StartKind) (h : TablesKept s) :
    TablesKept (blocksAtStart k (judgedAt k s.store.areas) s) := by
  obtain ⟨-, -, hcross, -, -, -, -, -, ha, hb, hc, hv⟩ := h
  by_cases hk : k = .factory
  · subst hk
    exact ⟨rfl, rfl, hcross, rfl, rfl, rfl, rfl, rfl, both_all rfl, both_all rfl, both_all ⟨rfl, rfl⟩, both_all rfl⟩
  · rw [judgedAt_other hk]
    have hja : (judgeAreas s.store.areas).bankA.contents.classes.length = 32 :=
      contentsOr_of_all (P := fun b : Bank => b.contents.classes.length = 32) ha rfl
    have hjb : (judgeAreas s.store.areas).bankB.contents.classes.length = 32 :=
      contentsOr_of_all (P := fun b : Bank => b.contents.classes.length = 32) hb rfl
    have hjc : (judgeAreas s.store.areas).config.denomValue.length = 8
        ∧ (judgeAreas s.store.areas).config.denomEnabled.length = 8 := contentsOr_of_all hc ⟨rfl, rfl⟩
    have hjv : (judgeAreas s.store.areas).vault.counters.denoms.length = 8 :=
      contentsOr_of_all (P := fun a : VaultArea => a.counters.denoms.length = 8) hv rfl
    refine ⟨rfl, rfl, hcross, hja, hjb, hjc.1, hjc.2, hjv, ?_⟩
    simp only [blocksAtStart, repairedAreas, if_neg hk]
    exact ⟨repaired_all ha hja, repaired_all hb hjb, repaired_all hc hjc, repaired_all hv hjv⟩

/-! ### The readings, the banks and the escrow -/

theorem readPresent_kept {k : IncidentKind} : Kept wired s (readPresent k s) := by
  unfold readPresent; split
  · split
    · exact .refl
    · exact raiseIncident_kept
  · exact raiseIncident_kept

theorem reading_kept {p : Bool} {k : IncidentKind} : Kept wired s (reading p k s) := by
  unfold reading; split
  · exact readPresent_kept
  · exact readAbsent_kept

theorem powerLossAtStart_kept {k : StartKind} : Kept wired s (powerLossAtStart k s) := by
  unfold powerLossAtStart; split
  · exact countOccurrence_kept
  · exact .refl

theorem readingsAtStart_kept : Kept wired s (readingsAtStart s) :=
  .after reading_kept (.after reading_kept (.after readAbsent_kept readAbsent_kept))

/-- R124 step 3: of two ACTIVE banks one becomes READY. -/
theorem resolveDoubleActive_oneActive (s : State) : OneActive (resolveDoubleActive s) := by
  unfold resolveDoubleActive
  split
  · split
    · unfold OneActive; rw [moveBank_bank]; simp [BankBlock.set]
    · unfold OneActive; rw [moveBank_bank]; simp [BankBlock.set]
  · assumption

theorem resolveDoubleActive_kept : Kept wired s (resolveDoubleActive s) := by
  unfold resolveDoubleActive; split
  · split <;> exact moveBank_kept (by simp)
  · exact .refl

theorem retireAtStart_kept {n : BankName} : Kept wired s (retireAtStart n s) := by
  unfold retireAtStart; split
  · exact moveBank_kept (by simp)
  · exact .refl

theorem markPowerMove_kept : Kept wired s (markPowerMove s) := by
  unfold markPowerMove; split
  · exact modifyOwner_kept
  · exact .refl

theorem setCredited_kept {n : Nat} : Kept wired s (setCredited n s) := .of_call _

theorem resolveMoving_kept : Kept wired s (resolveMoving s) := by
  unfold resolveMoving; split
  · exact .refl
  · dsimp only
    split
    · split
      · exact .after vaultRefresh_kept (.after setCredited_kept (.after dropHead_kept markPowerMove_kept))
      · exact .after post_kept (.after vaultRefresh_kept (.after vaultCounts_kept
          (.after setCredited_kept (.after dropHead_kept markPowerMove_kept))))
    · exact .after vaultRefresh_kept (.after modifyOwner_kept (.after dropHead_kept markPowerMove_kept))

theorem escrowAtStart_kept {k : StartKind} {a b : Bool} : Kept wired s (escrowAtStart k a b s) := by
  unfold escrowAtStart; split
  · exact startPurge_kept
  · split
    · exact .after startPurge_kept modifyOwner_kept
    · split
      · split
        · exact strand_kept
        · exact .after startPurge_kept (.after vaultRefresh_kept emptyList_kept)
      · exact .after progress_kept (.after startRun_kept resolveMoving_kept)

/-! ### The start -/

/-- R179: a start. Whatever the banks were, R124 leaves at most one of them ACTIVE. -/
theorem startPart_kept (k : StartKind) : Kept False s (startPart k s) := by
  let b := blocksAtStart k (judgedAt k s.store.areas) s
  have hread : Kept False b (readingsAtStart (powerLossAtStart k b)) := .after readingsAtStart_kept powerLossAtStart_kept
  have hbanks : Kept False (resolveDoubleActive (readingsAtStart (powerLossAtStart k b))) (startPart k s) :=
    .after escrowAtStart_kept (.after judgeActivation_kept (.after retireAtStart_kept retireAtStart_kept))
  have hb : Kept False b (startPart k s) := hread.trans (resolveDoubleActive_kept.trans hbanks)
  exact
    { pending := hb.pending
      wires := False.elim
      turn := fun _ => hb.turn rfl
      notices := fun _ => hb.notices ⟨Nat.zero_le 32, List.Pairwise.nil⟩
      oneAtATime := fun _ => hb.oneAtATime (.inl rfl)
      account := fun _ => hb.account (show 0 + 0 = 0 + 0 from rfl)
      active := fun _ => hbanks.active (resolveDoubleActive_oneActive _)
      log := fun h => hb.log (blocksAtStart_log k h)
      map := fun h => hb.map (blocksAtStart_map k h)
      escrow := fun h => hb.escrow (blocksAtStart_escrow k h)
      tables := fun h => hb.tables (blocksAtStart_tables k h) }

/-! ### The end of a start, and the first readings -/

theorem completeStart_kept : Kept wired s (completeStart s) := .after post_kept (.of_core rfl)

theorem takeKeyReading_kept {l : List Key} : Kept wired s (takeKeyReading l s) := by
  refine .after reading_kept ⟨rfl, fun _ => rfl, id, id, id, id, id, id, id, id, ?_⟩
  rintro ⟨-, -, -, h4⟩
  exact ⟨by simp [allKeys], rfl, by simp [allKeys], h4⟩

theorem takeHookReading_kept {o : Bool} : Kept wired s (takeHookReading o s) := by
  unfold takeHookReading; dsimp only; split
  · exact .after enterAbandoned_kept (.of_core rfl)
  · exact .after enterIdle_kept (.of_core rfl)

theorem collectionAtStart_kept : Kept wired s (collectionAtStart s) := by
  unfold collectionAtStart; split
  · split
    · exact .refl
    · exact completeCollection_kept
  · split
    · exact startCollection_kept
    · exact .refl

theorem loadAtStart_kept : Kept wired s (loadAtStart s) := .after reading_kept (.of_core rfl)

theorem takeSwitchReading_kept {a b c : Bool} : Kept wired s (takeSwitchReading a b c s) :=
  .after post_kept (.after post_kept (.after loadAtStart_kept (.after reading_kept (.after reading_kept
    (.after collectionAtStart_kept (.of_core rfl))))))

theorem takeCordReading_kept {o : Bool} : Kept wired s (takeCordReading o s) := .after reading_kept (.of_core rfl)

theorem takeVoltageReading_kept {a : Bool} : Kept wired s (takeVoltageReading a s) := by
  unfold takeVoltageReading; dsimp only; split
  · exact .after setWatch_kept (.after readPresent_kept (.of_core rfl))
  · exact .after readAbsent_kept (.of_core rfl)

end Sys2Proof.Machine
end

section
/-! Every command keeps the invariants (`Kept`), and what a command can make of the part at all (`Taken`). -/

namespace Sys2Proof.Machine

variable {wired : Prop} {s : State}

/-! ### The end of a step -/

theorem pump_kept : Kept False s (pump s) := by
  unfold pump; split
  · exact .refl
  · split
    · exact .of_link _ False.elim id id fun _ => .inr rfl
    · split
      · exact .refl
      · next n rest hq =>
        split
        · exact .refl
        · refine .of_link _ False.elim id (fun h => ?_) id
          rw [hq] at h
          exact ⟨(Nat.le_succ _).trans h.1, h.2.of_cons⟩

theorem commit_kept : Kept wired s (commit s) := by
  refine ⟨rfl, fun _ => rfl, id, id, id, id, id, ?_, ?_, ?_, ?_⟩
  · exact fun h => ⟨h.1, Area.write_all _ _ _ h.2 h.1⟩
  · exact fun h => ⟨h.1, Area.write_all _ _ _ h.2 h.1⟩
  · refine fun h => ⟨h.1, Area.write_all _ _ _ h.2 ?_⟩
    have := h.1
    show s.coin.escrow.length ≤ 12
    omega
  · rintro ⟨h1, h2, h3, h4, h5, h6, h7, h8, ha, hb, hc, hv⟩
    exact ⟨h1, h2, h3, h4, h5, h6, h7, h8, Area.write_all _ _ _ ha h4, Area.write_all _ _ _ hb h5,
      Area.write_all _ _ _ hc ⟨h6, h7⟩, Area.write_all _ _ _ hv h8⟩

theorem creditFollow_kept {s0 : State} : Kept wired s (creditFollow s0 s) := by
  unfold creditFollow; split
  · exact post_kept
  · exact .refl

theorem rptFollow_kept : Kept wired s (rptFollow s) := by
  unfold rptFollow; split
  · split
    · exact .of_rpt _
    · exact .refl
  · split
    · exact .refl
    · exact .of_rpt _
  · exact .refl

theorem finish_kept {s0 : State} : Kept False s (finish s0 s) :=
  .after pump_kept (.after commit_kept (.after creditFollow_kept (.after (.of_rpt _) rptFollow_kept)))

/-- R189, R196: an effect that leaves LINK alone but for its notices leaves the host's command and the frame being sent. -/
theorem linkKept_of_kept {s0 u : State} (h : Kept True s u) : LinkKept s (finish s0 u) := by
  have hl := h.wires trivial
  exact finish_linkKept _ _ _ (congrArg LinkBlock.outstanding hl :) (congrArg LinkBlock.turn hl :)
    (congrArg LinkBlock.tx hl :) (congrArg LinkBlock.reply hl :)

/-! ### What a command can make of the part -/

/-- R196 at the end of a command: with the transmitter IDLE nothing waits, but for a restart's notices. -/
theorem pump_senderBusy (s : State) : SenderBusy (pump s) := by
  intro htx
  unfold pump at htx ⊢
  split at htx <;> rename_i h1
  · simp [h1] at htx
  · split at htx <;> rename_i h2
    · simp at htx
    · split at htx <;> rename_i h3
      · exact ⟨h2, .inr h3⟩
      · split at htx <;> rename_i h4
        · simp only [h4, if_true]; exact ⟨h2, .inl trivial⟩
        · simp at htx

theorem finish_senderBusy (s0 s : State) : SenderBusy (finish s0 s) := pump_senderBusy _

/-- What a command makes of the part: nothing; an effect that keeps the invariants, with the end of a step; a frame of the
queue of those that wait; or a change of a part that does not run its blocks. -/
inductive Taken (s : State) : State → Prop where
  | unchanged : Taken s s
  | ended {s0 u : State} (hk : Kept False s u) : Taken s (finish s0 u)
  | waits (e : List Ended) : Taken s { s with link := { s.link with ended := e } }
  | dark {u : State} (hk : Kept False s u) (hdead : alive u = false) (hsend : SenderBusy s → SenderBusy u) : Taken s u

theorem stepAlive_taken {f : State → State} (hf : ∀ u, Kept False u (f u)) : Taken s (stepAlive f s) := by
  unfold stepAlive; split
  · exact .ended (hf s)
  · exact .unchanged

/-- LINK is ready for a command it takes, so that no reply waits in the slot. -/
theorem took_kept {k : Byte} (h : linkTakes s.link = true) : Kept False s (s.took k) :=
  .of_link _ False.elim (fun _ => rfl) id fun _ => .inr ((linkTakes_iff s).1 h).2.1

theorem takeCommand_taken {k : Byte} {p : List Byte} {f : State → State} (hf : ∀ u, Kept False u (f u)) :
    Taken s (takeCommand k p f s) := by
  unfold takeCommand; split
  · split
    · next h => exact .ended (.after (hf _) (took_kept h))
    · exact .waits _
  · exact .unchanged

/-! ### What the owner of a host command makes of it -/

/-- What an owner's rule makes of a command it decides: a refusal, with nothing changed; BANK_CLOSE's CHECK; an effect that
leaves LINK alone, with its reply OK; or a blind stroke, whose command stays outstanding. -/
inductive Replied (k : Byte) (u : State) : State → Prop where
  | refused {r : Result} (hr : r ≠ .ok) : Replied k u (respond k r [] u)
  | checked (f : CloseFault) : Replied k u (placeReply (replyKind k) (checkBytes f) u)
  | done (b : List Byte) {v : State} (hv : Kept True u v) : Replied k u (respond k .ok b v)
  | blind (st : Stroke) (hk : k = 0x1A) : Replied k u (beginBlind st u)

theorem Kept.weaken {t : State} (h : Kept True s t) : Kept False s t := { h with wires := False.elim }

theorem Replied.kept {k : Byte} {u v : State} (h : Replied k u v) : Kept False u v := by
  cases h with
  | refused _ => exact respond_kept
  | checked f => exact placeReply_kept
  | done b hv => exact .after respond_kept hv.weaken
  | blind st _ => exact beginBlind_kept

variable {k : Byte}

theorem ownerRule_replied {α : Type} {a : Option α} {f : α → State → State} (hf : ∀ x u, Replied k u (f x u)) :
    Replied k s (ownerRule k a f s) := by
  unfold ownerRule; split
  · exact .refused (by decide)
  · split
    · exact .refused (by decide)
    · exact hf _ _

theorem decideReply_replied {r : Option Result} {ok : State → State × List Byte} (hr : r ≠ some .ok)
    (h : Kept True s (ok s).1) : Replied k s (decideReply k r ok s) := by
  unfold decideReply; split
  · exact .refused fun h => hr (congrArg some h)
  · exact .done _ h

/-- A list of tests none of which gives OK. -/
theorem firstOf_ne_ok {l : List (Bool × Result)} (h : ∀ x ∈ l, x.2 ≠ .ok) : firstOf l ≠ some .ok := by
  induction l with
  | nil => exact nofun
  | cons x l ih =>
    obtain ⟨hx, hl⟩ := List.forall_mem_cons.1 h
    simp only [firstOf]; split
    · exact fun h => hx (Option.some.inj h)
    · exact ih hl

/-! ### The host's commands -/

theorem statusRule_replied : Replied 0x01 s (statusRule s) := .done _ (.of_link _ (fun _ => rfl) id id id)

/-- R193: a CONFIG_SET keeps the number of denominations. -/
theorem setItem_lengths {c d : ConfigItems} {iv : Nat × List Byte} (h : setItem? c iv = some d) :
    d.denomValue.length = c.denomValue.length ∧ d.denomEnabled.length = c.denomEnabled.length := by
  grind [setItem?, List.length_set, Option.map_eq_some_iff]

theorem setItems_lengths {c d : ConfigItems} {items : List (Nat × List Byte)} (h : setItems? c items = some d) :
    d.denomValue.length = c.denomValue.length ∧ d.denomEnabled.length = c.denomEnabled.length := by
  induction items generalizing c with
  | nil => cases h; exact ⟨rfl, rfl⟩
  | cons iv rest ih =>
    obtain ⟨e, he, hd⟩ := Option.bind_eq_some_iff.1 h
    obtain ⟨h1, h2⟩ := setItem_lengths he
    obtain ⟨h3, h4⟩ := ih hd
    exact ⟨h3.trans h1, h4.trans h2⟩

theorem configAfter_lengths {items : List (Nat × List Byte)} {c : ConfigItems} (h : configAfter s items = some c) :
    c.denomValue.length = s.config.denomValue.length ∧ c.denomEnabled.length = s.config.denomEnabled.length := by
  unfold configAfter at h
  split at h
  · split at h
    · cases h
    · next hc =>
      split at h
      · cases h; exact setItems_lengths hc
      · cases h
  · cases h

theorem configSetRule_replied {items : List (Nat × List Byte)} : Replied 0x02 s (configSetRule items s) := by
  unfold configSetRule; split
  · next c hc =>
    obtain ⟨hv, he⟩ := configAfter_lengths hc
    have hconf : Kept True s { s with config := c } := .of_config c hv.trans he.trans
    refine .done _ ?_
    unfold applyConfig; dsimp only; split
    · exact .after post_kept (.after vaultRefresh_kept hconf)
    · exact hconf
  · exact .refused (by decide)

theorem clockSetRule_replied {t : Nat} : Replied 0x04 s (clockSetRule t s) :=
  decideReply_replied (firstOf_ne_ok (by simp)) (.after judgeActivation_kept (.of_core rfl))

theorem openRefusal_ne_ok (b : BankState) : openRefusal b ≠ some .ok := by cases b <;> decide

theorem bankOpenRule_replied {a : Byte × List Byte} : Replied 0x06 s (bankOpenRule a s) := by
  unfold bankOpenRule; split
  · exact .refused (by decide)
  · split
    · exact .refused (by decide)
    · exact decideReply_replied (openRefusal_ne_ok _) openBank_kept

/-- R112: a loading command's item refuses, or gives contents with as many classes. -/
def Loaded (c : BankContents) : Except Result BankContents → Prop
  | .error r => r ≠ .ok
  | .ok d => d.classes.length = c.classes.length

theorem loadingRule_replied {b : Byte} {item : BankContents → Except Result BankContents}
    (h : ∀ c, Loaded c (item c)) : Replied k s (loadingRule k b item s) := by
  unfold loadingRule; split
  · exact .refused (by decide)
  · next n _ =>
    split
    · exact .refused (by decide)
    · have hc := h (s.bank.get n).contents
      split
      · next r hr => rw [hr] at hc; exact .refused hc
      · next d hd => rw [hd] at hc; exact .done _ (setBank_kept (fun hb => .inl hb) hc.trans)

theorem putClass_loaded {n : Nat} {m : Byte} {b : List Byte} (c : BankContents) : Loaded c (putClass n m b c) := by
  unfold putClass; split
  · exact nofun
  · split
    · exact List.length_set
    · split
      · exact List.length_set
      · exact nofun

theorem putTableEntry_loaded {e : Option TableEntry} (c : BankContents) : Loaded c (putTableEntry e c) := by
  unfold putTableEntry; split
  · exact nofun
  · split
    · exact nofun
    · exact rfl

theorem dropTableEntry_loaded {ds : Option (List Symbol)} (c : BankContents) : Loaded c (dropTableEntry ds c) := by
  unfold dropTableEntry; split
  · exact nofun
  · split
    · exact rfl
    · exact nofun

theorem setPoints_classes (c : BankContents) (d : DayType) (l : List SwitchPoint) :
    (c.setPoints d l).classes = c.classes := by cases d <;> rfl

theorem putDayPoint_loaded {d : DayType} {m b : Nat} (c : BankContents) : Loaded c (putDayPoint d m b c) := by
  have hset : ∀ l, Loaded c (.ok (c.setPoints d l)) := fun l => congrArg List.length (setPoints_classes c d l)
  unfold putDayPoint; dsimp only; split
  · exact nofun
  · split
    · split
      · exact hset _
      · exact nofun
    · split
      · exact nofun
      · split
        · exact nofun
        · exact hset _

theorem putDefault_loaded {m b : Nat} (c : BankContents) : Loaded c (putDefault m b c) := by
  unfold putDefault; split
  · exact nofun
  · split
    · exact rfl
    · split
      · exact nofun
      · exact rfl

theorem putSchedule_loaded {t m b : Nat} (c : BankContents) : Loaded c (putSchedule t m b c) := by
  unfold putSchedule; split
  · exact putDayPoint_loaded c
  · split
    · exact putDefault_loaded c
    · exact nofun

theorem putHolidayEntry_loaded {m n : Nat} {b : Byte} {y : Option Nat} (c : BankContents) :
    Loaded c (putHolidayEntry m n b y c) := by
  unfold putHolidayEntry; split
  · exact nofun
  · split
    · exact nofun
    · split
      · exact nofun
      · exact rfl

theorem bankCloseRule_replied {b : Byte} : Replied 0x0C s (bankCloseRule b s) := by
  unfold bankCloseRule; split
  · exact .refused (by decide)
  · split
    · exact .refused (by decide)
    · split
      · exact .checked _
      · exact .done _ (moveBank_kept (by simp))

theorem activateRefusal_ne_ok (b c : BankState) : activateRefusal b c ≠ some .ok := by cases b <;> cases c <;> decide

theorem bankActivateRule_replied {a : Byte × Nat} : Replied 0x0D s (bankActivateRule a s) := by
  unfold bankActivateRule; split
  · exact decideReply_replied (activateRefusal_ne_ok _ _) scheduleBank_kept
  · exact .refused (by decide)

theorem cancelBank_kept {n : BankName} : Kept wired s (cancelBank n s) := by
  unfold cancelBank; dsimp only; split
  · exact .after (moveBank_kept (by simp)) (setBank_kept (fun hb => .inl hb) id)
  · exact .after (moveBank_kept (by simp)) (setBank_kept (fun hb => .inl hb) fun _ => rfl)

theorem cancelRefusal_ne_ok (b : BankState) : cancelRefusal b ≠ some .ok := by cases b <;> decide

theorem bankCancelRule_replied {b : Byte} : Replied 0x0E s (bankCancelRule b s) := by
  unfold bankCancelRule; split
  · exact .refused (by decide)
  · exact decideReply_replied (cancelRefusal_ne_ok _) cancelBank_kept

theorem bankInfoRule_replied {b : Byte} : Replied 0x0F s (bankInfoRule b s) := by
  unfold bankInfoRule; split
  · exact .refused (by decide)
  · exact .done _ .refl

theorem recordsFrom_suffix (n : Nat) (l : List CallRecord) : recordsFrom n l <:+ l := by
  induction l with
  | nil => exact List.suffix_refl _
  | cons r rs ih =>
    simp only [recordsFrom]; split
    · exact List.suffix_refl _
    · exact ih.trans (List.suffix_cons _ _)

theorem recordsAfter_suffix (n : Nat) (l : List CallRecord) : recordsAfter n l <:+ l :=
  (List.drop_suffix _ _).trans (recordsFrom_suffix n l)

theorem seqChain_suffix {n : Nat} {l m : List CallRecord} (h : SeqChain n l) (hs : m <:+ l) : SeqChain n m := by
  induction l with
  | nil => rw [List.suffix_nil.1 hs]; trivial
  | cons r rs ih =>
    obtain rfl | hs := List.suffix_cons_iff.1 hs
    · exact h
    · exact ih (seqChain_tail h) hs

theorem logReleaseRule_replied {n : Nat} : Replied 0x12 s (logReleaseRule n s) := by
  refine decideReply_replied (firstOf_ne_ok (by simp)) (setLog_kept ?_)
  rintro ⟨h64, hchain, hrange⟩
  have hs := recordsAfter_suffix n s.store.log.records
  exact ⟨hs.length_le.trans h64, seqChain_suffix hchain hs, hrange⟩

theorem clearEntries_kept (l : List Incident) :
    ∀ s : State, Kept wired s (l.foldl (fun t e => clearEntry e t) s) := by
  induction l with
  | nil => exact fun _ => .refl
  | cons e l ih => exact fun s => .after (ih _) clearEntry_kept

theorem clearOne_replied {i : IncidentKind} : Replied 0x14 s (clearOne i s) := by
  unfold clearOne; split
  · exact .refused (by decide)
  · split
    · exact .refused (by decide)
    · exact .done _ clearEntry_kept

theorem incidentClearRule_replied {b : Byte} : Replied 0x14 s (incidentClearRule b s) := by
  unfold incidentClearRule; split
  · exact .refused (by decide)
  · split
    · exact .refused (by decide)
    · split
      · exact clearOne_replied
      · exact decideReply_replied nofun (clearEntries_kept _ s)

theorem collectionReadRule_replied : Replied 0x16 s (collectionReadRule s) := by
  unfold collectionReadRule; split
  · exact .done _ .refl
  · exact .refused (by decide)

theorem setBlocked_kept {v : Bool} : Kept wired s (setBlocked v s) := .of_config _ id id

theorem reportNow_kept : Kept wired s (reportNow s) := by
  unfold reportNow; split
  · exact endWait_kept
  · exact .refl

theorem reportNowRefusal_ne_ok (s : State) : reportNowRefusal s ≠ some .ok := firstOf_ne_ok (by simp)

theorem actuateRule_replied {a b : Byte} {f : State → State} (hf : Replied 0x1A s (f s)) :
    Replied 0x1A s (actuateRule a f b s) := by
  unfold actuateRule; split
  · exact .refused (by decide)
  · split
    · exact .refused (by decide)
    · exact hf

theorem blindRefusal_ne_ok (x : Stroke) (s : State) : blindRefusal x s ≠ some .ok := by
  unfold blindRefusal; split_ifs <;> decide

theorem blindRule_replied {x : Stroke} : Replied 0x1A s (blindRule x s) := by
  unfold blindRule; split
  · exact .refused (by decide)
  · split
    · next r hr => exact .refused fun h => blindRefusal_ne_ok x s (h ▸ hr)
    · exact .blind x rfl

theorem restoreInletRule_replied : Replied 0x1A s (restoreInletRule s) :=
  decideReply_replied (firstOf_ne_ok (by simp)) (.after endCondition_kept (.of_same_coins _ rfl))

theorem restoreEscrowRule_replied : Replied 0x1A s (decideReply 0x1A none restoreEscrow s) :=
  decideReply_replied nofun (.after endCondition_kept (.of_same_coins _ rfl))

theorem awaitStart_kept {m : Marker} : Kept wired s (awaitStart m s) := .of_core rfl

theorem restartRule_replied : Replied 0x1B s (restartRule s) := .done _ (.after awaitStart_kept (.of_call _))

end Sys2Proof.Machine
end

section
/-! Each command by what it makes of the part (`Taken`): the host's commands, and the events of each block. -/

namespace Sys2Proof.Machine

variable {wired : Prop} {s t : State}

/-! ### CALL, KEYS and the hook -/

theorem execDepositTimeout_taken (h : execDepositTimeout s = .next t) : Taken s t := by
  cases h; refine stepAlive_taken fun u => ?_; split
  · split
    · exact .after endCall_kept reach_kept
    · exact .refl
  · exact .refl

theorem execAnswerTimeout_taken (h : execAnswerTimeout s = .next t) : Taken s t := by
  cases h; refine stepAlive_taken fun u => ?_; split
  · split
    · exact .after endCall_kept reach_kept
    · exact .refl
  · exact .refl

theorem execAbandonedTimeout_taken (h : execAbandonedTimeout s = .next t) : Taken s t := by
  cases h; refine stepAlive_taken fun u => ?_; split
  · split
    · exact .after countOccurrence_kept (.after (.of_call _) reach_kept)
    · exact .refl
  · exact .refl

theorem execRejectToneEnd_taken (h : execRejectToneEnd s = .next t) : Taken s t := by
  cases h; refine stepAlive_taken fun u => ?_; split
  · split
    · exact .after (.of_call _) reach_kept
    · exact .refl
  · exact .refl

theorem execWarningRepeat_taken (h : execWarningRepeat s = .next t) : Taken s t := by
  cases h; refine stepAlive_taken fun u => ?_; split
  · split
    · exact .after (.of_call _) reach_kept
    · exact .refl
  · exact .refl

theorem execLastAliveWrite_taken (h : execLastAliveWrite s = .next t) : Taken s t := by
  cases h; refine stepAlive_taken fun u => ?_; split
  · split
    · exact .after (.of_call _) (.after setOpen_kept reach_kept)
    · exact .refl
  · exact .refl

theorem execKeyPress_taken {k : Key} (h : execKeyPress k s = .next t) : Taken s t := by
  cases h; refine stepAlive_taken fun u => ?_; dsimp only; split
  · exact .after pressKey_kept settleCrossing_kept
  · exact settleCrossing_kept

theorem execKeyRelease_taken {k : Key} (h : execKeyRelease k s = .next t) : Taken s t := by
  cases h; refine stepAlive_taken fun u => ?_; dsimp only; split
  · exact .after releaseKey_kept settleCrossing_kept
  · exact settleCrossing_kept

theorem execStuckTimerExpiry_taken {k : Key} (h : execStuckTimerExpiry k s = .next t) : Taken s t := by
  cases h; refine stepAlive_taken fun u => ?_; split
  · exact .after stickKey_kept reach_kept
  · exact .refl

theorem execFirstDigitTimeout_taken (h : execFirstDigitTimeout s = .next t) : Taken s t := by
  cases h; refine stepAlive_taken fun u => ?_; split
  · split
    · exact .after numberFails_kept (.after keysStop_kept reach_kept)
    · exact .refl
  · exact .refl

theorem execInterDigitTimeout_taken (h : execInterDigitTimeout s = .next t) : Taken s t := by
  cases h; refine stepAlive_taken fun u => ?_; split
  · split
    · exact .after analyseTimeout_kept reach_kept
    · exact .refl
  · exact .refl

theorem setHook_kept {h : Hook} : Kept wired s (setHook h s) := .of_core rfl
theorem clearingTone_kept : Kept wired s (clearingTone s) := .of_call _
theorem moveToClosing_kept : Kept wired s (moveToClosing s) := .after beginCall_kept (.of_call _)

theorem callHookOff_kept : Kept wired s (callHookOff s) := by
  unfold callHookOff; split
  · exact beginCall_kept
  · split
    · exact moveToClosing_kept
    · exact .after clearingTone_kept post_kept
  all_goals exact post_kept

theorem callHookOn_kept : Kept wired s (callHookOn s) := by
  unfold callHookOn; dsimp only; split
  · exact post_kept
  · exact .after clearingTone_kept (.after (.of_call _) post_kept)
  · exact .after endCondition_kept (.after enterIdle_kept post_kept)
  all_goals exact .after endCall_kept post_kept

theorem execHookOff_taken (h : execHookOff s = .next t) : Taken s t := by
  cases h; refine stepAlive_taken fun u => ?_; split
  · exact .after callHookOff_kept (.after abortAttempt_kept setHook_kept)
  · exact .refl

theorem execHookOn_taken (h : execHookOn s = .next t) : Taken s t := by
  cases h; refine stepAlive_taken fun u => ?_; split
  · exact .after callHookOn_kept setHook_kept
  · exact .refl

/-! ### LINE -/

theorem guardReport_kept : Kept wired s (guardReport s) := by
  unfold guardReport; split
  · exact lineRequest_kept
  · exact followOnCollect_kept
  all_goals exact .refl

theorem execGuardEnd_taken (h : execGuardEnd s = .next t) : Taken s t := by
  cases h; refine stepAlive_taken fun u => ?_; split
  · split
    · exact .after guardReport_kept (.after (.of_line _) reach_kept)
    · exact .refl
  · exact .refl

theorem callEnds_kept {p : CallState → Bool} {c : EndCause} {n : Nat} : Kept wired s (callEnds p c n s) := by
  unfold callEnds; split
  · exact endCall_kept
  · exact .refl

theorem reportFails_kept {l : List ReportState} {f : ReportFailure} : Kept wired s (reportFails l f s) := by
  unfold reportFails; split
  · exact failAttempt_kept
  · exact .refl

theorem noToneReport_kept : Kept wired s (noToneReport s) := by
  unfold noToneReport; split
  · exact callEnds_kept
  · exact reportFails_kept
  · exact .refl

theorem execDialToneTimeout_taken (h : execDialToneTimeout s = .next t) : Taken s t := by
  cases h; refine stepAlive_taken fun u => ?_; split
  · split
    · exact .after noToneReport_kept (.after endingReport_kept reach_kept)
    · exact .refl
  · exact .refl

theorem toneReport_kept : Kept wired s (toneReport s) := by
  unfold toneReport; split
  · split
    · exact setCallState_kept
    · exact .refl
  · exact .of_rpt _
  · exact .refl

theorem execDialToneRecognised_taken (h : execDialToneRecognised s = .next t) : Taken s t := by
  cases h; refine stepAlive_taken fun u => ?_; split
  · exact .after toneReport_kept beginSending_kept
  · exact .refl

theorem busyReport_kept : Kept wired s (busyReport s) := by
  unfold busyReport; split
  · exact callEnds_kept
  · exact reportFails_kept
  · exact .refl

theorem execBusyRecognised_taken (h : execBusyRecognised s = .next t) : Taken s t := by
  cases h; refine stepAlive_taken fun u => ?_; split
  · exact .after busyReport_kept endingReport_kept
  · exact .refl

theorem sentReport_kept : Kept wired s (sentReport s) := by
  unfold sentReport; split
  · split
    · exact .after setCallState_kept (.of_call _)
    · exact .refl
  · exact .of_rpt _
  · exact .refl

theorem execSendingComplete_taken (h : execSendingComplete s = .next t) : Taken s t := by
  cases h; refine stepAlive_taken fun u => ?_; split
  · split
    · exact .after sentReport_kept (.after enterSeized_kept reach_kept)
    · exact .refl
  · exact .refl

theorem execSendComplete_taken (h : execSendComplete s = .next t) : Taken s t := by
  cases h; refine stepAlive_taken fun u => ?_; split
  · split
    · dsimp only
      split
      · exact .after sendDone_kept (.after (.of_line _) reach_kept)
      · exact .after (.of_line _) reach_kept
    · exact .refl
  · exact .refl

theorem setCurrent_kept {v : Bool} : Kept wired s (setCurrent v s) := .of_core rfl

theorem currentReturns_kept : Kept wired s (currentReturns s) := by
  unfold currentReturns; dsimp only; split
  · exact actVerdict_kept (.after takeHeld_kept (.of_line _))
  · exact .of_line _

theorem execLoopCurrentPresent_taken (h : execLoopCurrentPresent s = .next t) : Taken s t := by
  cases h; refine stepAlive_taken fun u => ?_; dsimp only; split
  · exact .after currentReturns_kept setCurrent_kept
  · exact setCurrent_kept

theorem execLoopCurrentAbsent_taken (h : execLoopCurrentAbsent s = .next t) : Taken s t := by
  cases h; refine stepAlive_taken fun u => ?_; dsimp only; split
  · exact .after (.of_line _) setCurrent_kept
  · exact setCurrent_kept

theorem lossReport_kept {n : Nat} : Kept wired s (lossReport n s) := by
  unfold lossReport; split
  · exact callEnds_kept
  · exact reportLineLost_kept
  · exact .refl

theorem execLoopCurrentLost_taken (h : execLoopCurrentLost s = .next t) : Taken s t := by
  cases h; refine stepAlive_taken fun u => ?_; split
  · split
    · exact .after lossReport_kept (.after endingReport_kept (.after setCurrent_kept reach_kept))
    · exact .refl
  · exact .refl

theorem setAnswered_kept : Kept wired s (setAnswered s) := .of_line _

theorem disposePulse_kept {g : Bool} : Kept wired s (disposePulse g s) := by
  unfold disposePulse; split
  · exact actVerdict_kept takePulse_kept
  · split
    · exact .after answerCall_kept setAnswered_kept
    · exact .refl

theorem execMeterPulse_taken {g : Bool} (h : execMeterPulse g s = .next t) : Taken s t := by
  cases h; refine stepAlive_taken fun u => ?_; split
  · exact disposePulse_kept
  · exact .refl

theorem acceptReversal_kept : Kept wired s (acceptReversal s) := by
  have h : Kept wired s { s with
      pins := { s.pins with polarity := !s.line.reference }
      line := { s.line with reversed := true, holdSince := none, polaritySeen := !s.line.reference } } := .of_core rfl
  unfold acceptReversal; dsimp only; split
  · exact .after answerCall_kept (.after setAnswered_kept h)
  · exact h

theorem execReversalAccepted_taken (h : execReversalAccepted s = .next t) : Taken s t := by
  cases h; refine stepAlive_taken fun u => ?_; split
  · exact acceptReversal_kept
  · exact .refl

theorem acceptReturn_kept : Kept wired s (acceptReturn s) := by
  have h : Kept wired s { s with
      pins := { s.pins with polarity := s.line.reference }
      line := { s.line with reversed := false, holdSince := none, polaritySeen := s.line.reference } } := .of_core rfl
  unfold acceptReturn; dsimp only; split
  · exact .after callEnds_kept (.after endingReport_kept h)
  · exact h

theorem execReturnAccepted_taken (h : execReturnAccepted s = .next t) : Taken s t := by
  cases h; refine stepAlive_taken fun u => ?_; split
  · exact acceptReturn_kept
  · exact .refl

theorem execCadenceRecognised_taken {c : Cadence} (h : execCadenceRecognised c s = .next t) : Taken s t := by
  cases h; refine stepAlive_taken fun u => ?_; split
  · exact .after reportCadence_kept (.of_line _)
  · exact .refl

theorem voltageRunEnd_kept : Kept wired s (voltageRunEnd s) := by
  unfold voltageRunEnd; dsimp only; split
  · exact .after (.of_line _) reach_kept
  · exact .of_line _

theorem setVoltage_kept {v : Bool} : Kept wired s (setVoltage v s) := .of_core rfl

theorem execVoltageAbsent_taken (h : execVoltageAbsent s = .next t) : Taken s t := by
  cases h; refine stepAlive_taken fun u => ?_; split
  · exact .after countOccurrence_kept (.after setWatch_kept (.after setVoltage_kept voltageRunEnd_kept))
  · exact .refl

theorem execVoltagePresent_taken (h : execVoltagePresent s = .next t) : Taken s t := by
  cases h; refine stepAlive_taken fun u => ?_; split
  · exact .after endCondition_kept (.after setWatch_kept (.after setVoltage_kept voltageRunEnd_kept))
  · exact .refl

theorem execToneDetectorInterval_taken {a b c : Bool} (h : execToneDetectorInterval a b c s = .next t) : Taken s t := by
  cases h; refine stepAlive_taken fun u => ?_; split
  · split
    · exact .after detectorInterval_kept reach_kept
    · exact .refl
  · exact .refl

/-! ### COIN -/

theorem setLatch_kept {l : Latch} : Kept wired s (setLatch l s) := .of_same_coins _ rfl

/-- A chain of tests gives no result exactly when the first fails and the rest give none. -/
theorem ite_some_eq_none_iff {α : Type} {p : Prop} [Decidable p] {x : α} {o : Option α} :
    (if p then some x else o) = none ↔ ¬ p ∧ o = none := by
  split <;> simp [*]

/-- R63: an accepted coin finds no coin in transit and room in the escrow. -/
theorem rejectReason_none {code : Nat} (h : rejectReason code s = none) :
    s.coin.transit = none ∧ s.coin.escrow.length < 12 := by
  simp only [rejectReason, ite_some_eq_none_iff] at h
  obtain ⟨h1, -, -, -, -, -, -, -, -, -, h11, -⟩ := h
  exact ⟨by simpa using h1, by omega⟩

theorem answerStrobe_kept {n : Nat} {v : Bool} : Kept wired s (answerStrobe n v s) := by
  unfold answerStrobe; split
  · exact .after post_kept setLatch_kept
  · next h =>
    obtain ⟨hnone, hroom⟩ := rejectReason_none h
    exact .after (.of_coin _ fun _ => Nat.succ_le_of_lt hroom) setLatch_kept

theorem execValidatorStrobe_taken {c : BitVec 4} {v : Bool} (h : execValidatorStrobe c v s = .next t) : Taken s t := by
  cases h; exact stepAlive_taken fun _ => answerStrobe_kept

theorem execStrobeFall_taken (h : execStrobeFall s = .next t) : Taken s t := by
  cases h; exact stepAlive_taken fun _ => setLatch_kept

theorem confirmCoin_kept {x : Transit} (h : s.coin.transit = some x) : Kept wired s (confirmCoin x s) := by
  have happend : Kept wired s (appendCoin x s) := .after vaultRefresh_kept (.of_coin _ fun h12 => by
    rw [h] at h12; simpa using h12)
  exact .after coinSettled_kept (.after post_kept (.after depositAgain_kept
    (actVerdict_kept (.after coinOutcome_kept (.after setOpen_kept happend)))))

theorem execEntrySensor_taken (h : execEntrySensor s = .next t) : Taken s t := by
  cases h; refine stepAlive_taken fun u => ?_; split
  · next hx => exact confirmCoin_kept hx
  · exact post_kept

theorem setInletFault_kept : Kept wired s (setInletFault s) := by
  unfold setInletFault; split
  · exact .refl
  · exact .after countOccurrence_kept (.of_same_coins _ rfl)

theorem countUnconfirmed_kept : Kept wired s (countUnconfirmed s) := by
  unfold countUnconfirmed; dsimp only; split
  · exact .after setInletFault_kept (.of_same_coins _ rfl)
  · exact .of_same_coins _ rfl

theorem loseCoin_kept {x : Transit} : Kept wired s (loseCoin x s) :=
  .after coinSettled_kept (actVerdict_kept (.after coinOutcome_kept (.after countUnconfirmed_kept
    (.after modifyOpen_kept (.after post_kept (.of_coin _ fun h => by
      simp only [Option.toList_none, List.length_nil]; omega))))))

theorem execConfirmationWindowEnd_taken (h : execConfirmationWindowEnd s = .next t) : Taken s t := by
  cases h; refine stepAlive_taken fun u => ?_; split
  · exact .after loseCoin_kept reach_kept
  · exact .refl

theorem setJam_kept {v : Bool} : Kept wired s (setJam v s) := .of_core rfl
theorem setJamTimer_kept {n : Option Nat} : Kept wired s (setJamTimer n s) := .of_same_coins _ rfl

theorem execJamLineAsserted_taken (h : execJamLineAsserted s = .next t) : Taken s t := by
  cases h; split
  · exact .unchanged
  · split
    · exact stepAlive_taken fun _ => .after setJamTimer_kept setJam_kept
    · next hdead => exact .dark setJam_kept (Bool.eq_false_iff.2 hdead) id

theorem execJamLineReleased_taken (h : execJamLineReleased s = .next t) : Taken s t := by
  cases h; split
  · exact stepAlive_taken fun _ => .after setJamTimer_kept setJam_kept
  · next hdead => exact .dark setJam_kept (Bool.eq_false_iff.2 hdead) id

theorem execJamLineTimeout_taken (h : execJamLineTimeout s = .next t) : Taken s t := by
  cases h; refine stepAlive_taken fun u => ?_; split
  · exact .after setInletFault_kept (.after setJamTimer_kept reach_kept)
  · exact .refl

theorem replyBlind_kept {v : Bool} : Kept False s (replyBlind v s) := by
  unfold replyBlind; split
  · exact respond_kept
  · exact .refl

theorem blindCollected_kept : Kept False s (blindCollected s) :=
  .after replyBlind_kept (.after post_kept (.after post_kept (.after vaultRefresh_kept
    (.after (.of_same_denoms _ rfl) restMover_kept))))

theorem collectConfirmed_kept {e : EscrowEntry} {n : Nat} : Kept wired s (collectConfirmed e n s) :=
  .after post_kept (actVerdict_kept (.after creditCollected_kept collectHead_kept))

theorem execVaultSensor_taken (h : execVaultSensor s = .next t) : Taken s t := by
  cases h; refine stepAlive_taken fun u => ?_; split
  · split
    · exact .after coinSettled_kept blindCollected_kept
    · split
      · exact .after coinSettled_kept collectConfirmed_kept
      · exact post_kept
  · exact post_kept

theorem purgePassed_kept : Kept wired s (purgePassed s) := by
  unfold purgePassed; dsimp only; split
  · exact .after endPurge_kept (.after escrowFails_kept (.after post_kept (.of_same_coins _ rfl)))
  · exact .after beginBlind_kept (.after (.of_same_coins _ rfl) (.after post_kept (.of_same_coins _ rfl)))

theorem blindRefunded_kept : Kept False s (blindRefunded s) := .after replyBlind_kept (.after post_kept restMover_kept)

theorem execReturnSensor_taken (h : execReturnSensor s = .next t) : Taken s t := by
  cases h; refine stepAlive_taken fun u => ?_; split
  · split
    · refine .after coinSettled_kept ?_
      split
      · exact purgePassed_kept
      · exact blindRefunded_kept
    · split
      · exact .after coinSettled_kept refundHead_kept
      · exact post_kept
  · exact post_kept

theorem strokeEnds_kept : Kept False s (strokeEnds s) := by
  unfold strokeEnds; split
  · split
    · exact endPurge_kept
    · exact .after replyBlind_kept restMover_kept
  · split
    · split
      · exact actVerdict_kept (.after settleDue_kept jamHead_kept)
      · exact jamHead_kept
    · exact restMover_kept

theorem execExitTimerExpiry_taken (h : execExitTimerExpiry s = .next t) : Taken s t := by
  cases h; refine stepAlive_taken fun u => ?_; split
  · exact .after coinSettled_kept (.after strokeEnds_kept reach_kept)
  · exact .refl

theorem execReversalPulse_taken (h : execReversalPulse s = .next t) : Taken s t := by
  cases h
  exact stepAlive_taken fun _ => .after markRecent_kept (.after countOccurrence_kept (.of_same_coins _ rfl))

theorem execLockoutExpiry_taken (h : execLockoutExpiry s = .next t) : Taken s t := by
  cases h; refine stepAlive_taken fun u => ?_; split
  · exact .after endCondition_kept (.after (.of_same_coins _ rfl) reach_kept)
  · exact .refl

/-! ### INCD's sensors -/

theorem setCord_kept {v : Bool} : Kept wired s (setCord v s) := .of_core rfl
theorem setWindow_kept {w : List Nat} : Kept wired s (setWindow w s) := .of_core rfl

theorem execCordLoopOpen_taken (h : execCordLoopOpen s = .next t) : Taken s t := by
  cases h; refine stepAlive_taken fun u => ?_; split
  · exact .after countOccurrence_kept setCord_kept
  · exact .refl

theorem execCordLoopClosed_taken (h : execCordLoopClosed s = .next t) : Taken s t := by
  cases h; refine stepAlive_taken fun u => ?_; split
  · exact .after endCondition_kept setCord_kept
  · exact .refl

theorem execShockPulse_taken (h : execShockPulse s = .next t) : Taken s t := by
  cases h; refine stepAlive_taken fun u => ?_
  unfold shockPulseAct; dsimp only; split
  · exact .after countOccurrence_kept setWindow_kept
  · exact setWindow_kept

/-! ### RATE, BANK and the clock -/

theorem execPeriodEnd_taken (h : execPeriodEnd s = .next t) : Taken s t := by
  cases h; refine stepAlive_taken fun u => ?_; split
  · split
    · exact actVerdict_kept (.after settleStep_kept (.after startPeriod_kept reach_kept))
    · exact .refl
  · exact .refl

theorem execSupervisionTimeout_taken (h : execSupervisionTimeout s = .next t) : Taken s t := by
  cases h; refine stepAlive_taken fun u => ?_; split
  · split
    · exact actVerdict_kept (.after fallBack_kept reach_kept)
    · exact .refl
  · exact .refl

theorem graceExpiry_kept : Kept wired s (graceExpiry s) := by
  have h : Kept wired s { s with rate := { s.rate with graceTimer := none } } := .of_same_acct _ rfl
  unfold graceExpiry; dsimp only; split
  · exact actVerdict_kept h
  · exact .of_same_acct _ rfl
  all_goals exact h

theorem execGraceTimerExpiry_taken (h : execGraceTimerExpiry s = .next t) : Taken s t := by
  cases h; refine stepAlive_taken fun u => ?_; split
  · exact .after graceExpiry_kept reach_kept
  · exact .refl

theorem execActivationInstant_taken (h : execActivationInstant s = .next t) : Taken s t := by
  cases h; exact stepAlive_taken fun _ => judgeActivation_kept

theorem clockSecond_kept : Kept wired s (clockSecond s) := by
  unfold clockSecond; rw [reach_eq]; exact .of_core rfl

@[simp] theorem alive_clockSecond (s : State) : alive (clockSecond s) = alive s := by
  unfold clockSecond; rw [reach_eq]; rfl

theorem execClockTick_taken (h : execClockTick s = .next t) : Taken s t := by
  cases h; split
  · exact stepAlive_taken fun _ => clockSecond_kept
  · next hdead =>
    refine .dark clockSecond_kept (by simpa using hdead) ?_
    unfold clockSecond; rw [reach_eq]; exact id

/-! ### RPT -/

theorem execAttemptStart_taken (h : execAttemptStart s = .next t) : Taken s t := by
  cases h; refine stepAlive_taken fun u => ?_; split
  · exact startAttempt_kept
  · exact .refl

theorem execReadyTimeout_taken (h : execReadyTimeout s = .next t) : Taken s t := by
  cases h; refine stepAlive_taken fun u => ?_; split
  · split
    · exact .after failAttempt_kept reach_kept
    · exact .refl
  · exact .refl

theorem execAckTimeout_taken (h : execAckTimeout s = .next t) : Taken s t := by
  cases h; refine stepAlive_taken fun u => ?_; split
  · split
    · exact .after sendFailed_kept reach_kept
    · exact .refl
  · exact .refl

theorem execCloseTimeout_taken (h : execCloseTimeout s = .next t) : Taken s t := by
  cases h; refine stepAlive_taken fun u => ?_; split
  · split
    · exact .after completeAttempt_kept reach_kept
    · exact .refl
  · exact .refl

theorem execBackoffExpiry_taken (h : execBackoffExpiry s = .next t) : Taken s t := by
  cases h; refine stepAlive_taken fun u => ?_; split
  · split
    · exact .after endWait_kept reach_kept
    · exact .refl
  · exact .refl

theorem execWaitMinuteWrite_taken (h : execWaitMinuteWrite s = .next t) : Taken s t := by
  cases h; refine stepAlive_taken fun u => ?_; split
  · split
    · exact .after (.of_rpt _) reach_kept
    · exact .refl
  · exact .refl

/-! ### VAULT -/

theorem switchChange_taken {changed : State → Bool} {f : State → State} (hf : ∀ u, Kept False u (f u)) :
    Taken s (switchChange changed f s) := by
  refine stepAlive_taken fun u => ?_
  split
  · exact hf u
  · exact .refl

theorem setKey_kept {v : Bool} : Kept wired s (setKey v s) := .of_core rfl
theorem setVaultDoor_kept {v : Bool} : Kept wired s (setVaultDoor v s) := .of_core rfl
theorem setHousingDoor_kept {v : Bool} : Kept wired s (setHousingDoor v s) := .of_core rfl

theorem setService_kept {x : ServiceState} {n : Option Nat} {v w : Bool} : Kept wired s (setService x n v w s) :=
  .of_same_denoms _ rfl

theorem turnKeyOn_kept : Kept wired s (turnKeyOn s) := by
  have h : Kept wired s (postService .keyOn (setService .service none false false (setKey true s))) :=
    .after post_kept (.after setService_kept setKey_kept)
  unfold turnKeyOn; dsimp only; split
  · exact .after startCollection_kept h
  · exact h

theorem turnKeyOff_kept : Kept wired s (turnKeyOff s) := by
  refine .after post_kept ?_
  split <;> exact .after setService_kept setKey_kept

theorem graceClosing_kept {o v w : Bool} : Kept wired s (graceClosing o v w s) := by
  unfold graceClosing; split
  · split <;> exact setService_kept
  · exact .refl

theorem forceHeld_kept {v w : Bool} : Kept wired s (forceHeld v w s) := by
  have h : Kept wired s (if v then raiseIncident .vaultForced s else s) := by
    split
    · exact raiseIncident_kept
    · exact .refl
  unfold forceHeld; dsimp only; split
  · exact .after raiseIncident_kept h
  · exact h

theorem execKeyOn_taken (h : execKeyOn s = .next t) : Taken s t := by
  cases h; exact switchChange_taken fun _ => turnKeyOn_kept

theorem execKeyOff_taken (h : execKeyOff s = .next t) : Taken s t := by
  cases h; exact switchChange_taken fun _ => turnKeyOff_kept

theorem execVaultDoorOpened_taken (h : execVaultDoorOpened s = .next t) : Taken s t := by
  cases h; refine switchChange_taken fun u => ?_; dsimp only; split
  · exact .after startCollection_kept (.after post_kept setVaultDoor_kept)
  · exact .after raiseIncident_kept (.after post_kept setVaultDoor_kept)

theorem execVaultDoorClosed_taken (h : execVaultDoorClosed s = .next t) : Taken s t := by
  cases h
  exact switchChange_taken fun _ => .after completeCollection_kept (.after endCondition_kept
    (.after post_kept (.after graceClosing_kept setVaultDoor_kept)))

theorem execHousingDoorOpened_taken (h : execHousingDoorOpened s = .next t) : Taken s t := by
  cases h; refine switchChange_taken fun u => ?_; dsimp only; split
  · exact .after post_kept setHousingDoor_kept
  · exact .after raiseIncident_kept (.after post_kept setHousingDoor_kept)

theorem execHousingDoorClosed_taken (h : execHousingDoorClosed s = .next t) : Taken s t := by
  cases h
  exact switchChange_taken fun _ => .after endCondition_kept (.after post_kept (.after graceClosing_kept setHousingDoor_kept))

theorem execGraceExpired_taken (h : execGraceExpired s = .next t) : Taken s t := by
  cases h; refine stepAlive_taken fun u => ?_; split
  · split
    · exact .after forceHeld_kept (.after post_kept (.after setService_kept reach_kept))
    · exact .refl
  · exact .refl

end Sys2Proof.Machine
end

section
/-! The start, LINK's own events, and every command together: what any command makes of the part (`exec_taken`). -/

namespace Sys2Proof.Machine

variable {wired : Prop} {s t : State}

/-! ### The areas in an outage -/

theorem Area.tear_all {α : Type} {P : α → Prop} {x : Area α} [DecidableEq α] (h : x.All P) : x.tear.All P := by
  obtain ⟨h1, h2⟩ := h
  unfold Area.tear Area.All
  split
  · simp
  · split
    · exact ⟨h1, by simp⟩
    · exact ⟨by simp, h2⟩

theorem Area.lose_all {α : Type} {P : α → Prop} {x : Area α} : x.lose.All P := by simp [Area.lose, Area.All]

/-- What the retained areas may become: their sound copies still hold what the invariants say. -/
theorem Kept.of_areas {s : State} (a : Areas)
    (hlog : ∀ P, s.store.areas.log.All P → a.log.All P) (hincd : ∀ P, s.store.areas.incd.All P → a.incd.All P)
    (hcoin : ∀ P, s.store.areas.coin.All P → a.coin.All P) (ha : ∀ P, s.store.areas.bankA.All P → a.bankA.All P)
    (hb : ∀ P, s.store.areas.bankB.All P → a.bankB.All P) (hc : ∀ P, s.store.areas.config.All P → a.config.All P)
    (hv : ∀ P, s.store.areas.vault.All P → a.vault.All P) : Kept wired s { s with store := { s.store with areas := a } } := by
  refine ⟨rfl, fun _ => rfl, id, id, id, id, id, fun h => ⟨h.1, hlog _ h.2⟩, fun h => ⟨h.1, hincd _ h.2⟩,
    fun h => ⟨h.1, hcoin _ h.2⟩, ?_⟩
  rintro ⟨h1, h2, h3, h4, h5, h6, h7, h8, h9, h10, h11, h12⟩
  exact ⟨h1, h2, h3, h4, h5, h6, h7, h8, ha _ h9, hb _ h10, hc _ h11, hv _ h12⟩

theorem loseArea_kept (n : AreaName) : Kept wired s { s with store := { s.store with areas := loseArea s.store.areas n } } := by
  refine .of_areas _ ?_ ?_ ?_ ?_ ?_ ?_ ?_ <;> intro P h <;> cases n <;> simp [loseArea, h, Area.lose_all]

theorem tearArea_kept (n : AreaName) : Kept wired s { s with store := { s.store with areas := tearArea s.store.areas n } } := by
  refine .of_areas _ ?_ ?_ ?_ ?_ ?_ ?_ ?_ <;> intro P h <;> cases n <;> simp [tearArea, h, Area.tear_all]

/-- What happens to the areas one after the other. -/
theorem areasFold_kept {f : Areas → AreaName → Areas}
    (hf : ∀ (u : State) (n : AreaName), Kept wired u { u with store := { u.store with areas := f u.store.areas n } })
    (l : List AreaName) : ∀ s : State, Kept wired s { s with store := { s.store with areas := l.foldl f s.store.areas } } := by
  induction l with
  | nil => exact fun _ => .refl
  | cons n l ih => exact fun s => .after (ih _) (hf s n)

theorem afterOutage_kept {b : Bool} {m : MarkerRead} {l : List AreaName} : Kept wired s (afterOutage b m l s) :=
  .after (s := s) (t := { s with store := { s.store with areas := l.foldl loseArea s.store.areas } })
    (.of_core rfl) (areasFold_kept (fun _ => loseArea_kept) l s)

/-! ### The start and the supply -/

theorem execPowerUp_taken {b : Bool} {m : MarkerRead} {l : List AreaName} (h : execPowerUp b m l s = .next t) :
    Taken s t := by
  unfold execPowerUp at h
  split at h <;> cases h
  · exact .ended (.after (startPart_kept _) afterOutage_kept)
  · exact .unchanged

/-- R178: an area holds what it held, or has lost its newest copy. -/
theorem tornAreas_kept (l : List AreaName) :
    Kept wired s { stopOutputs s with
      power := .off, store := { (stopOutputs s).store with areas := l.foldl tearArea (stopOutputs s).store.areas } } :=
  .after (t := { stopOutputs s with power := .off }) (areasFold_kept (fun _ => tearArea_kept) _ _) (.of_core rfl)

/-- LINK's block without power: no frame, no notice, no command. -/
theorem freshLink_kept : Kept False s { s with link := LinkBlock.fresh } :=
  .of_link _ False.elim (fun _ => rfl) (fun _ => ⟨Nat.zero_le 32, List.Pairwise.nil⟩) fun _ => .inl rfl

theorem execPowerFail_taken {l : List AreaName} (h : execPowerFail l s = .next t) : Taken s t := by
  unfold execPowerFail at h
  split at h <;> cases h
  · exact .unchanged
  · exact .dark ((tornAreas_kept (cutWrites l s)).trans freshLink_kept) rfl fun _ _ => ⟨rfl, .inr rfl⟩

theorem execStartComplete_taken (h : execStartComplete s = .next t) : Taken s t := by
  cases h; split
  · exact .ended completeStart_kept
  · exact .unchanged

theorem readingEnd_kept {n : Nat} : Kept wired s (readingEnd s n) := reach_kept

theorem execKeyReadingEnd_taken {l : List Key} (h : execKeyReadingEnd l s = .next t) : Taken s t := by
  cases h; split
  · exact .ended (.after takeKeyReading_kept readingEnd_kept)
  · exact .unchanged

theorem execHookReadingEnd_taken {b : Bool} (h : execHookReadingEnd b s = .next t) : Taken s t := by
  cases h; split
  · exact .ended (.after takeHookReading_kept readingEnd_kept)
  · exact .unchanged

theorem execSwitchReadingEnd_taken {a b c : Bool} (h : execSwitchReadingEnd a b c s = .next t) : Taken s t := by
  cases h; split
  · exact .ended (.after takeSwitchReading_kept readingEnd_kept)
  · exact .unchanged

theorem execCordReadingEnd_taken {b : Bool} (h : execCordReadingEnd b s = .next t) : Taken s t := by
  cases h; split
  · exact .ended (.after takeCordReading_kept readingEnd_kept)
  · exact .unchanged

theorem execVoltageReadingEnd_taken {b : Bool} (h : execVoltageReadingEnd b s = .next t) : Taken s t := by
  cases h; split
  · exact .ended (.after takeVoltageReading_kept readingEnd_kept)
  · exact .unchanged

/-! ### The frame assembler -/

/-- LINK's block but for what the assembler and its buffer hold. -/
def LinkBlock.besideInput (l : LinkBlock) : LinkBlock :=
  { l with assembler := .hunt, lost := false, lastByteAt := 0, input := [], ended := [] }

theorem completeFrame_besideInput (n : Nat) (b : List Byte) (l : LinkBlock) :
    (completeFrame n b l).besideInput = l.besideInput := by
  unfold completeFrame; dsimp only; split
  · rfl
  · split
    · split <;> rfl
    · rfl

theorem assemble_besideInput (b : Byte) (n : Nat) (l : LinkBlock) : (assemble b n l).besideInput = l.besideInput := by
  unfold assemble; dsimp only; split
  · split <;> rfl
  · split <;> rfl
  · split
    · exact completeFrame_besideInput ..
    · rfl

theorem takeItem_besideInput (i : InputItem) (l : LinkBlock) : (takeItem i l).besideInput = l.besideInput := by
  unfold takeItem; split
  · rfl
  · split
    · exact assemble_besideInput ..
    · exact assemble_besideInput ..

theorem drainItems_besideInput (is : List InputItem) : ∀ l : LinkBlock, (drainItems is l).besideInput = l.besideInput := by
  induction is with
  | nil => exact fun _ => rfl
  | cons i is ih =>
    intro l
    unfold drainItems; split
    · rw [ih, takeItem_besideInput]
    · rfl

theorem besideInput_kept {m : LinkBlock} (h : m.besideInput = s.link.besideInput) : Kept False s { s with link := m } := by
  have hturn : m.turn = s.link.turn := (congrArg LinkBlock.turn h :)
  have hnotices : m.notices = s.link.notices := (congrArg LinkBlock.notices h :)
  have hout : m.outstanding = s.link.outstanding := (congrArg LinkBlock.outstanding h :)
  have hreply : m.reply = s.link.reply := (congrArg LinkBlock.reply h :)
  exact .of_link m False.elim (by rw [hturn]; exact id) (by rw [hnotices]; exact id) (by rw [hout, hreply]; exact id)

theorem drain_kept : Kept False s (drain s) := besideInput_kept (drainItems_besideInput ..)

theorem execByteReceived_taken {b : Byte} (h : execByteReceived b s = .next t) : Taken s t := by
  cases h; exact stepAlive_taken fun _ => .after drain_kept (besideInput_kept rfl)

theorem execFrameTimeout_taken (h : execFrameTimeout s = .next t) : Taken s t := by
  cases h; refine stepAlive_taken fun u => ?_; split
  · exact .after (besideInput_kept rfl) reach_kept
  · exact .refl

theorem execFrameFault_taken {r : FrameReason} (h : execFrameFault r s = .next t) : Taken s t := by
  cases h; refine stepAlive_taken fun u => ?_; split
  · exact .after placeReply_kept (.of_link _ False.elim (fun _ => rfl) id id)
  · exact besideInput_kept rfl

theorem idleTx_kept : Kept False s (idleTx s) := .of_link _ False.elim id id id

theorem pump_power (s : State) : (pump s).power = s.power := by
  unfold pump; split
  · rfl
  · split
    · rfl
    · split
      · rfl
      · split <;> rfl

theorem execTransmitDone_taken (h : execTransmitDone s = .next t) : Taken s t := by
  cases h; split
  · exact .unchanged
  · next x hx =>
    have hidle : Kept False s (idleTx (reach (some x.endsAt) s)) := .after idleTx_kept reach_kept
    have hpump : s.power = .halted → Taken s (pump (idleTx (reach (some x.endsAt) s))) := fun hh =>
      .dark (.after pump_kept hidle) (by unfold alive; rw [pump_power, reach_eq]; simp [idleTx, hh])
        fun _ => pump_senderBusy _
    dsimp only; split
    · exact .unchanged
    · next hh =>
      split
      · unfold afterReply; split
        · exact .ended (.after (startPart_kept _) hidle)
        · exact hpump hh
      · exact hpump hh
    all_goals exact .ended hidle

/-! ### The host's commands -/

/-- A command that is not STATUS, with the rule of its owner. -/
theorem hostCommand_owned {α : Type} {k : Byte} {p : List Byte} {args : List Byte → Option α} {f : α → State → State}
    (hf : ∀ x u, Replied k u (f x u)) : ∃ g : State → State, (∀ u, Replied k u (g u))
      ∧ ∀ s, (.next (hostCommand k p args f s) : Host.Outcome State Fault Refusal) = .next (takeCommand k p g s) :=
  ⟨_, fun _ => ownerRule_replied hf, fun _ => rfl⟩

/-- Each host command that has a name is one that LINK takes, with its owner's rule. -/
theorem exec_named {c : Instr} {k : Byte} {p : List Byte} (h : hostFrame c = some (k, p))
    (hc : c ≠ .unknownCommand k p) :
    ∃ f : State → State, (∀ u, Replied k u (f u)) ∧ ∀ s, exec c s = .next (takeCommand k p f s) := by
  cases c with
  | status =>
    cases h
    refine ⟨_, fun u => ?_, fun _ => rfl⟩
    split
    · exact statusRule_replied
    · exact .refused (by decide)
  | configSet => cases h; exact hostCommand_owned fun _ _ => configSetRule_replied
  | configGet => cases h; exact hostCommand_owned fun _ _ => decideReply_replied (firstOf_ne_ok (by simp)) .refl
  | clockSet => cases h; exact hostCommand_owned fun _ _ => clockSetRule_replied
  | clockGet => cases h; exact hostCommand_owned fun _ _ => .done _ .refl
  | bankOpen => cases h; exact hostCommand_owned fun _ _ => bankOpenRule_replied
  | bankPutClass => cases h; exact hostCommand_owned fun _ _ => loadingRule_replied putClass_loaded
  | bankPutPrefix => cases h; exact hostCommand_owned fun _ _ => loadingRule_replied putTableEntry_loaded
  | bankDropPrefix => cases h; exact hostCommand_owned fun _ _ => loadingRule_replied dropTableEntry_loaded
  | bankPutSchedule => cases h; exact hostCommand_owned fun _ _ => loadingRule_replied putSchedule_loaded
  | bankPutHoliday => cases h; exact hostCommand_owned fun _ _ => loadingRule_replied putHolidayEntry_loaded
  | bankClose => cases h; exact hostCommand_owned fun _ _ => bankCloseRule_replied
  | bankActivate => cases h; exact hostCommand_owned fun _ _ => bankActivateRule_replied
  | bankCancel => cases h; exact hostCommand_owned fun _ _ => bankCancelRule_replied
  | bankInfo => cases h; exact hostCommand_owned fun _ _ => bankInfoRule_replied
  | snapshot => cases h; exact hostCommand_owned fun _ _ => decideReply_replied (firstOf_ne_ok (by simp)) .refl
  | logRead => cases h; exact hostCommand_owned fun _ _ => decideReply_replied (firstOf_ne_ok (by simp)) .refl
  | logRelease => cases h; exact hostCommand_owned fun _ _ => logReleaseRule_replied
  | incidentList => cases h; exact hostCommand_owned fun _ _ => decideReply_replied (firstOf_ne_ok (by simp)) .refl
  | incidentClear => cases h; exact hostCommand_owned fun _ _ => incidentClearRule_replied
  | vaultRead => cases h; exact hostCommand_owned fun _ _ => .done _ .refl
  | collectionRead => cases h; exact hostCommand_owned fun _ _ => collectionReadRule_replied
  | terminalBlock => cases h; exact hostCommand_owned fun _ _ => .done _ setBlocked_kept
  | terminalUnblock => cases h; exact hostCommand_owned fun _ _ => .done _ setBlocked_kept
  | reportNow =>
    cases h; exact hostCommand_owned fun _ u => decideReply_replied (reportNowRefusal_ne_ok u) reportNow_kept
  | refundOne => cases h; exact hostCommand_owned fun _ _ => actuateRule_replied blindRule_replied
  | collectTestOne => cases h; exact hostCommand_owned fun _ _ => actuateRule_replied blindRule_replied
  | restoreInlet => cases h; exact hostCommand_owned fun _ _ => actuateRule_replied restoreInletRule_replied
  | restoreEscrow => cases h; exact hostCommand_owned fun _ _ => actuateRule_replied restoreEscrowRule_replied
  | restart => cases h; exact hostCommand_owned fun _ _ => restartRule_replied
  | factoryClear =>
    cases h; exact hostCommand_owned fun _ _ => decideReply_replied (firstOf_ne_ok (by simp)) awaitStart_kept
  | unknownCommand => cases h; exact absurd rfl hc
  | _ => cases h

theorem exec_host {c : Instr} {k : Byte} {p : List Byte} (h : hostFrame c = some (k, p)) :
    ∃ f : State → State, (∀ u, Kept False u (f u)) ∧ ∀ s, exec c s = .next (takeCommand k p f s) := by
  by_cases hc : c = .unknownCommand k p
  · subst hc; exact ⟨_, fun _ => placeReply_kept, fun _ => rfl⟩
  · obtain ⟨f, hf, hexec⟩ := exec_named h hc
    exact ⟨f, fun u => (hf u).kept, hexec⟩

theorem exec_host_taken {c : Instr} {k : Byte} {p : List Byte} (hc : hostFrame c = some (k, p))
    (h : exec c s = .next t) : Taken s t := by
  obtain ⟨f, hf, hexec⟩ := exec_host hc
  cases (hexec s).symm.trans h
  exact takeCommand_taken hf

/-! ### Every command -/

/-- What any command makes of the part. -/
theorem exec_taken {c : Instr} (h : exec c s = .next t) : Taken s t := by
  cases c with
  | powerUp => exact execPowerUp_taken h
  | powerFail => exact execPowerFail_taken h
  | startComplete => exact execStartComplete_taken h
  | keyReadingEnd => exact execKeyReadingEnd_taken h
  | hookReadingEnd => exact execHookReadingEnd_taken h
  | switchReadingEnd => exact execSwitchReadingEnd_taken h
  | cordReadingEnd => exact execCordReadingEnd_taken h
  | voltageReadingEnd => exact execVoltageReadingEnd_taken h
  | status => exact exec_host_taken rfl h
  | configSet => exact exec_host_taken rfl h
  | configGet => exact exec_host_taken rfl h
  | clockSet => exact exec_host_taken rfl h
  | clockGet => exact exec_host_taken rfl h
  | bankOpen => exact exec_host_taken rfl h
  | bankPutClass => exact exec_host_taken rfl h
  | bankPutPrefix => exact exec_host_taken rfl h
  | bankDropPrefix => exact exec_host_taken rfl h
  | bankPutSchedule => exact exec_host_taken rfl h
  | bankPutHoliday => exact exec_host_taken rfl h
  | bankClose => exact exec_host_taken rfl h
  | bankActivate => exact exec_host_taken rfl h
  | bankCancel => exact exec_host_taken rfl h
  | bankInfo => exact exec_host_taken rfl h
  | snapshot => exact exec_host_taken rfl h
  | logRead => exact exec_host_taken rfl h
  | logRelease => exact exec_host_taken rfl h
  | incidentList => exact exec_host_taken rfl h
  | incidentClear => exact exec_host_taken rfl h
  | vaultRead => exact exec_host_taken rfl h
  | collectionRead => exact exec_host_taken rfl h
  | terminalBlock => exact exec_host_taken rfl h
  | terminalUnblock => exact exec_host_taken rfl h
  | reportNow => exact exec_host_taken rfl h
  | refundOne => exact exec_host_taken rfl h
  | collectTestOne => exact exec_host_taken rfl h
  | restoreInlet => exact exec_host_taken rfl h
  | restoreEscrow => exact exec_host_taken rfl h
  | restart => exact exec_host_taken rfl h
  | factoryClear => exact exec_host_taken rfl h
  | unknownCommand => exact exec_host_taken rfl h
  | byteReceived => exact execByteReceived_taken h
  | frameTimeout => exact execFrameTimeout_taken h
  | frameFault => exact execFrameFault_taken h
  | transmitDone => exact execTransmitDone_taken h
  | keyPress => exact execKeyPress_taken h
  | keyRelease => exact execKeyRelease_taken h
  | stuckTimerExpiry => exact execStuckTimerExpiry_taken h
  | firstDigitTimeout => exact execFirstDigitTimeout_taken h
  | interDigitTimeout => exact execInterDigitTimeout_taken h
  | hookOff => exact execHookOff_taken h
  | hookOn => exact execHookOn_taken h
  | depositTimeout => exact execDepositTimeout_taken h
  | answerTimeout => exact execAnswerTimeout_taken h
  | abandonedTimeout => exact execAbandonedTimeout_taken h
  | rejectToneEnd => exact execRejectToneEnd_taken h
  | warningRepeat => exact execWarningRepeat_taken h
  | lastAliveWrite => exact execLastAliveWrite_taken h
  | guardEnd => exact execGuardEnd_taken h
  | dialToneTimeout => exact execDialToneTimeout_taken h
  | dialToneRecognised => exact execDialToneRecognised_taken h
  | busyRecognised => exact execBusyRecognised_taken h
  | sendingComplete => exact execSendingComplete_taken h
  | sendComplete => exact execSendComplete_taken h
  | loopCurrentPresent => exact execLoopCurrentPresent_taken h
  | loopCurrentAbsent => exact execLoopCurrentAbsent_taken h
  | loopCurrentLost => exact execLoopCurrentLost_taken h
  | meterPulse => exact execMeterPulse_taken h
  | reversalAccepted => exact execReversalAccepted_taken h
  | returnAccepted => exact execReturnAccepted_taken h
  | cadenceRecognised => exact execCadenceRecognised_taken h
  | voltageAbsent => exact execVoltageAbsent_taken h
  | voltagePresent => exact execVoltagePresent_taken h
  | validatorStrobe => exact execValidatorStrobe_taken h
  | strobeFall => exact execStrobeFall_taken h
  | entrySensor => exact execEntrySensor_taken h
  | confirmationWindowEnd => exact execConfirmationWindowEnd_taken h
  | jamLineAsserted => exact execJamLineAsserted_taken h
  | jamLineReleased => exact execJamLineReleased_taken h
  | jamLineTimeout => exact execJamLineTimeout_taken h
  | vaultSensor => exact execVaultSensor_taken h
  | returnSensor => exact execReturnSensor_taken h
  | exitTimerExpiry => exact execExitTimerExpiry_taken h
  | reversalPulse => exact execReversalPulse_taken h
  | lockoutExpiry => exact execLockoutExpiry_taken h
  | periodEnd => exact execPeriodEnd_taken h
  | supervisionTimeout => exact execSupervisionTimeout_taken h
  | graceTimerExpiry => exact execGraceTimerExpiry_taken h
  | activationInstant => exact execActivationInstant_taken h
  | clockTick => exact execClockTick_taken h
  | keyOn => exact execKeyOn_taken h
  | keyOff => exact execKeyOff_taken h
  | vaultDoorOpened => exact execVaultDoorOpened_taken h
  | vaultDoorClosed => exact execVaultDoorClosed_taken h
  | housingDoorOpened => exact execHousingDoorOpened_taken h
  | housingDoorClosed => exact execHousingDoorClosed_taken h
  | graceExpired => exact execGraceExpired_taken h
  | cordLoopOpen => exact execCordLoopOpen_taken h
  | cordLoopClosed => exact execCordLoopClosed_taken h
  | shockPulse => exact execShockPulse_taken h
  | attemptStart => exact execAttemptStart_taken h
  | readyTimeout => exact execReadyTimeout_taken h
  | ackTimeout => exact execAckTimeout_taken h
  | closeTimeout => exact execCloseTimeout_taken h
  | backoffExpiry => exact execBackoffExpiry_taken h
  | waitMinuteWrite => exact execWaitMinuteWrite_taken h
  | toneDetectorInterval => exact execToneDetectorInterval_taken h

theorem Taken.kept (h : Taken s t) : Kept False s t := by
  cases h with
  | unchanged => exact .refl
  | ended hk => exact .after finish_kept hk
  | waits e => exact besideInput_kept rfl
  | dark hk => exact hk

/-- Every command keeps the invariants. -/
theorem exec_kept {c : Instr} (h : exec c s = .next t) : Kept False s t := (exec_taken h).kept

end Sys2Proof.Machine
end

section
/-! The idle step, and the invariants of every step: O1 to O6 and O8 to O12. -/

namespace Sys2Proof.Machine

variable {wired : Prop} {s t : State}

/-! ### The idle step -/

/-- The state but for what sampling the inputs may change. -/
def State.unsampled (s : State) : State :=
  { s with
    raised := [], samplers := State.reset.samplers
    line := { s.line with polaritySeen := false, holdSince := none, voltSince := none }
    store := { s.store with start := State.reset.store.start } }

/-- The state but for what an idle step may change: the inputs as sampled, the time, the queue, and the assembler's share of
LINK with the mark of the frame in turn. -/
def State.besideIdle (s : State) : State :=
  { s.unsampled with pending := [], now := 0, ties := 0, link := { s.link.besideInput with turn := false } }

theorem raiseIf_unsampled (b : Bool) (i : Instr) (s : State) : (raiseIf b i s).unsampled = s.unsampled := by
  unfold raiseIf; split <;> rfl

theorem sampleKey_unsampled (k : Key) (s : State) : (sampleKey k s).unsampled = s.unsampled := by
  unfold sampleKey; exact raiseIf_unsampled ..

theorem sampleKeysOf_unsampled (l : List Key) :
    ∀ s : State, (l.foldl (fun t k => sampleKey k t) s).unsampled = s.unsampled := by
  induction l with
  | nil => exact fun _ => rfl
  | cons k l ih => intro s; rw [List.foldl_cons, ih, sampleKey_unsampled]

theorem sampleKeys_unsampled (s : State) : (sampleKeys s).unsampled = s.unsampled := by
  unfold sampleKeys; split
  · exact sampleKeysOf_unsampled ..
  · rfl

theorem sampleHook_unsampled (s : State) : (sampleHook s).unsampled = s.unsampled := by
  unfold sampleHook; split
  · exact raiseIf_unsampled ..
  · rfl

theorem sampleSwitches_unsampled (s : State) : (sampleSwitches s).unsampled = s.unsampled := by
  unfold sampleSwitches; split
  · dsimp only; rw [raiseIf_unsampled, raiseIf_unsampled, raiseIf_unsampled]; rfl
  · rfl

theorem sampleCord_unsampled (s : State) : (sampleCord s).unsampled = s.unsampled := by
  unfold sampleCord; split
  · exact raiseIf_unsampled ..
  · rfl

theorem sampleFive_unsampled (s : State) : (sampleFive s).unsampled = s.unsampled := by
  unfold sampleFive; split
  · rw [sampleCord_unsampled, sampleSwitches_unsampled, sampleHook_unsampled, sampleKeys_unsampled]
  · rfl

theorem sampleShock_unsampled (s : State) : (sampleShock s).unsampled = s.unsampled := by
  unfold sampleShock; exact raiseIf_unsampled ..

theorem sampleBeam_unsampled (s : State) : (sampleBeam s).unsampled = s.unsampled := by
  unfold sampleBeam; exact raiseIf_unsampled ..

theorem sampleCurrent_unsampled (s : State) : (sampleCurrent s).unsampled = s.unsampled := by
  unfold sampleCurrent; split
  · rw [raiseIf_unsampled, raiseIf_unsampled]
  · rfl

theorem samplePolarity_unsampled (s : State) : (samplePolarity s).unsampled = s.unsampled := by
  unfold samplePolarity; split <;> rfl

theorem sampleVoltage_unsampled (s : State) : (sampleVoltage s).unsampled = s.unsampled := by
  unfold sampleVoltage; split <;> rfl

/-- A millisecond changes the time, what sampling keeps, and what it raises. -/
theorem advance_unsampled (s : State) : (advance s).unsampled = { s with now := s.now + 1 }.unsampled := by
  unfold advance; dsimp only; split
  · rw [sampleVoltage_unsampled, samplePolarity_unsampled, sampleCurrent_unsampled, sampleBeam_unsampled,
      sampleShock_unsampled, sampleFive_unsampled]
  · rfl

theorem advance_now (s : State) : (advance s).now = s.now + 1 := (congrArg State.now (advance_unsampled s) :)
theorem advance_link (s : State) : (advance s).link = s.link := (congrArg State.link (advance_unsampled s) :)
theorem advance_pending (s : State) : (advance s).pending = s.pending := (congrArg State.pending (advance_unsampled s) :)

theorem advance_only (s : State) : OnlyChanges [.now, .raised, .samplers, .line, .start] s (advance s) := by
  have h := advance_unsampled s
  have g : ∀ {α : Type} (f : State → α), f (advance s).unsampled = f { s with now := s.now + 1 }.unsampled :=
    fun f => by rw [h]
  intro p hp
  cases p
  case clock => exact ⟨g fun u => u.store.clock, g fun u => u.store.nextTick⟩
  case log => exact g fun u => u.store.log
  case marker => exact g fun u => u.store.marker
  case rpt => exact g fun u => u.body.rpt
  case input => exact g fun u => u.body.link
  case pending => exact g State.pending
  case ties => exact g State.ties
  case power => exact g State.power
  case pins => exact g State.pins
  case config => exact g State.config
  case call => exact g State.call
  case keys => exact g State.keys
  case coin => exact g State.coin
  case rate => exact g State.rate
  case bank => exact g State.bank
  case vault => exact g State.vault
  case incd => exact g State.incd
  all_goals exact absurd (by decide) hp

theorem drain_besideInput (s : State) : (drain s).link.besideInput = s.link.besideInput := drainItems_besideInput ..

theorem popFrame_link (s : State) : (popFrame s).link.besideInput = { s.link.besideInput with turn := true } :=
  drain_besideInput _

theorem takeDue_besideIdle (i : Nat) (s : State) : (takeDue i s).besideIdle = s.besideIdle := by
  unfold takeDue; dsimp only; split
  · rfl
  · split
    · rfl
    · split
      · unfold State.besideIdle
        rw [show ({ popFrame s with pending := _ } : State).link.besideInput = { s.link.besideInput with turn := true }
          from popFrame_link s]
        rfl
      · rfl

theorem idle_besideIdle (s : State) : (idle s).besideIdle = s.besideIdle := by
  unfold idle; dsimp only; split
  · unfold State.besideIdle; rw [advance_unsampled, advance_link]; rfl
  · rw [takeDue_besideIdle]; rfl

/-! #### What sampling leaves: the number of the key samples -/

@[simp] theorem raiseIf_samplers (b : Bool) (i : Instr) (s : State) : (raiseIf b i s).samplers = s.samplers := by
  unfold raiseIf; split <;> rfl

theorem sampleKeysOf_length (l : List Key) :
    ∀ s : State, (l.foldl (fun t k => sampleKey k t) s).samplers.keys.length = s.samplers.keys.length := by
  induction l with
  | nil => exact fun _ => rfl
  | cons k l ih => intro s; rw [List.foldl_cons, ih]; simp [sampleKey]

theorem sampleFive_length (s : State) : (sampleFive s).samplers.keys.length = s.samplers.keys.length := by
  have hk : (sampleKeys s).samplers.keys.length = s.samplers.keys.length := by
    unfold sampleKeys; split
    · exact sampleKeysOf_length ..
    · rfl
  have hh : ∀ u, (sampleHook u).samplers.keys = u.samplers.keys := by
    intro u; unfold sampleHook; split <;> simp
  have hw : ∀ u, (sampleSwitches u).samplers.keys = u.samplers.keys := by
    intro u; unfold sampleSwitches; split <;> simp
  have hc : ∀ u, (sampleCord u).samplers.keys = u.samplers.keys := by
    intro u; unfold sampleCord; split <;> simp
  unfold sampleFive; split
  · rw [hc, hw, hh, hk]
  · rfl

theorem takeDue_samplers (i : Nat) (s : State) : (takeDue i s).samplers = s.samplers := by
  unfold takeDue; dsimp only; split
  · rfl
  · split
    · rfl
    · split <;> rfl

theorem idle_samples (s : State) : (idle s).samplers.keys.length = s.samplers.keys.length := by
  have hb : ∀ u, (sampleBeam u).samplers.keys = u.samplers.keys := by intro u; simp [sampleBeam]
  have hs : ∀ u, (sampleShock u).samplers.keys = u.samplers.keys := by intro u; simp [sampleShock]
  have hcur : ∀ u, (sampleCurrent u).samplers = u.samplers := by intro u; unfold sampleCurrent; split <;> simp
  have hp : ∀ u, (samplePolarity u).samplers = u.samplers := by intro u; unfold samplePolarity; split <;> rfl
  have hv : ∀ u, (sampleVoltage u).samplers = u.samplers := by intro u; unfold sampleVoltage; split <;> rfl
  unfold idle; dsimp only; split
  · unfold advance; dsimp only; split
    · rw [hv, hp, hcur, hb, hs, sampleFive_length]
    · rfl
  · rw [takeDue_samplers]

/-! ### What a step is -/

theorem step_nil (h : s.pending = []) : step s = .next (idle s) := by unfold step; rw [h]

theorem step_cons {c : Instr} {rest : List Instr} (h : s.pending = c :: rest) :
    step s = exec c { s with pending := rest } := by unfold step; rw [h]

/-- What reads nothing of what sampling, the time and the queue may change, and what every command keeps, every step keeps. -/
theorem step_keeps {P : State → Prop} (hread : ∀ u, P u.besideIdle ↔ P u)
    (hexec : ∀ {c s t}, exec c s = .next t → P s → P t) (hs : P s) (h : step s = .next t) : P t := by
  cases hp : s.pending with
  | nil =>
    rw [step_nil hp] at h; cases h
    rw [← hread, idle_besideIdle, hread]; exact hs
  | cons c rest =>
    rw [step_cons hp] at h
    exact hexec h ((hread { s with pending := rest }).1 ((hread s).2 hs))

theorem idle_tablesKept (hs : TablesKept s) : TablesKept (idle s) := by
  have h := congrArg (fun u : State => { u with samplers := s.samplers }) (idle_besideIdle s)
  have ht : TablesKept { s.besideIdle with samplers := s.samplers } := hs
  rw [← h] at ht
  obtain ⟨hcells, hkeys, hrest⟩ := ht
  exact ⟨hcells, (idle_samples s).trans hkeys, hrest⟩

/-! ### The frame in turn -/

theorem actuateCommand_host (p : List Byte) : hostFrame (actuateCommand p) = some (0x1A, p) := by
  unfold actuateCommand; split_ifs <;> rfl

/-- R190: the command of a frame's KIND is that frame's. -/
theorem commandOf_host (k : Byte) (p : List Byte) : hostFrame (commandOf k p) = some (k, p) := by
  unfold commandOf
  split
  case h_26 hk => rw [actuateCommand_host, BitVec.eq_of_toNat_eq (y := 0x1A) hk]
  all_goals simp [hostFrame, ← BitVec.toNat_inj, *]

/-- R189: the frame whose turn it is, taken, leaves the turn. -/
theorem exec_frame_turn {e : Ended} (ha : alive s = true) (ht : linkTakes s.link = true)
    (h : exec (frameCommand e) s = .next t) : t.link.turn = false := by
  cases e with
  | sound k p =>
    obtain ⟨f, hf, hexec⟩ := exec_host (commandOf_host k p)
    cases (hexec s).symm.trans h
    unfold takeCommand
    rw [if_pos ha, if_pos ht]
    exact (Kept.after finish_kept (hf _)).turn rfl
  | fault r n =>
    cases h
    rw [stepAlive_of_alive _ ha, if_pos ht]
    exact (Kept.after finish_kept placeReply_kept).turn rfl

/-! ### What every command leaves or brings about -/

theorem Taken.senderBusy (h : Taken s t) (hs : SenderBusy s) : SenderBusy t := by
  cases h with
  | unchanged => exact hs
  | ended hk => exact finish_senderBusy _ _
  | waits e => exact hs
  | dark hk hdead hsend => exact hsend hs

theorem Taken.copiesCurrent (h : Taken s t) (hs : CopiesCurrent s) : CopiesCurrent t := by
  cases h with
  | unchanged => exact hs
  | ended hk => exact finish_copies _ _
  | waits e => exact hs
  | dark hk hdead hsend => intro ha; rw [hdead] at ha; cases ha

theorem reportWanted_of_same (hi : t.incd = s.incd) (hc : t.config = s.config) : reportWanted t = reportWanted s := by
  unfold reportWanted; rw [hi, hc]

theorem quiet_of_same (hc : t.call = s.call) (hl : t.line.state = s.line.state) (ho : t.line.owner = s.line.owner) :
    quiet t = quiet s := by
  unfold quiet; rw [hc, hl, ho]

/-- R156: RPT's state follows the wanted test. -/
theorem rptFollow_follows (s : State) : ((rptFollow s).rpt.state = .idle → reportWanted s = false)
    ∧ ((rptFollow s).rpt.state = .readyToStart → reportWanted s = true) := by
  unfold rptFollow
  split
  · split <;> simp_all
  · split <;> simp_all
  · simp_all

theorem creditFollow_rpt (s0 s : State) : (creditFollow s0 s).rpt = s.rpt := by
  unfold creditFollow; split
  · rw [post_eq]
  · rfl

theorem pump_rpt (s : State) : (pump s).rpt = s.rpt := by
  unfold pump; split
  · rfl
  · split
    · rfl
    · split
      · rfl
      · split <;> rfl

theorem finish_rpt (s0 s : State) : (finish s0 s).rpt = (guardFollow (rptFollow s)).rpt := by
  unfold finish; rw [pump_rpt]; exact creditFollow_rpt _ _

/-- R156, R157: RPT has followed when the end of a step has been made. -/
theorem finish_follows (s0 s : State) : ReportFollows (finish s0 s) := by
  obtain ⟨hidle, hready⟩ := rptFollow_follows s
  have hw : reportWanted (finish s0 s) = reportWanted s := reportWanted_of_same (finish_incd ..) (finish_config ..)
  have hq : quiet (finish s0 s) = quiet (rptFollow s) :=
    (quiet_of_same (finish_call ..) (by rw [finish_line]) (by rw [finish_line])).trans
      (quiet_of_same (same_of_body (rptFollow_body s) .call)
        (congrArg LineBlock.state (same_of_body (rptFollow_body s) .line))
        (congrArg LineBlock.owner (same_of_body (rptFollow_body s) .line))).symm
  intro _
  rw [finish_rpt, hw, hq]
  refine ⟨hidle, hready, ?_⟩
  unfold guardFollow; dsimp only
  split <;> simp [*]

theorem Taken.reportFollows (h : Taken s t) (hs : ReportFollows s) : ReportFollows t := by
  cases h with
  | unchanged => exact hs
  | ended hk => exact finish_follows _ _
  | waits e => exact hs
  | dark hk hdead hsend => intro ha; rw [hdead] at ha; cases ha

theorem readyFrame_some {e : Ended} (h : readyFrame s = some e) :
    alive s = true ∧ linkReady s.link = true ∧ s.link.ended.head? = some e := by
  unfold readyFrame at h
  split at h
  · next hc => exact ⟨by simp_all, by simp_all, h⟩
  · cases h

/-- R189: an idle part has no frame in turn; the step that takes a frame gives it the turn. -/
theorem idle_frameInTurn (hp : s.pending = []) (hs : FrameInTurn s) : FrameInTurn (idle s) := by
  have hturn : s.link.turn = false := by
    cases hb : s.link.turn with
    | false => rfl
    | true =>
      obtain ⟨-, -, e, he⟩ := hs hb
      rw [hp] at he; cases he
  have hnone : ∀ u : State, u.link = s.link → FrameInTurn u := fun u hu ht => by
    rw [hu, hturn] at ht; cases ht
  unfold idle; dsimp only; split
  · exact hnone _ (advance_link s)
  · generalize hu : ({ s with ties := if dueCount s ≤ 1 then s.ties else s.ties + 1 } : State) = u
    have hul : u.link = s.link := by rw [← hu]
    have hup : u.pending = [] := by rw [← hu]; exact hp
    unfold takeDue; dsimp only; split
    · exact hnone _ hul
    · split
      · exact hnone _ hul
      · split
        · next e he =>
          obtain ⟨ha, hready, -⟩ := readyFrame_some he
          have hout : (popFrame u).link.outstanding = u.link.outstanding := (congrArg LinkBlock.outstanding (popFrame_link u) :)
          have hrep : (popFrame u).link.reply = u.link.reply := (congrArg LinkBlock.reply (popFrame_link u) :)
          refine fun _ => ⟨ha, ?_, e, by rw [hup]; rfl⟩
          show linkReady (popFrame u).link = true
          unfold linkReady at hready ⊢
          rw [hout, hrep]; exact hready
        · exact hnone _ hul

end Sys2Proof.Machine

open Sys2Proof Sys2Proof.Machine

/-- Settles O1: a step with a command waiting is that command on the rest of the queue. -/
theorem stepRunsFrontCommand : Obligations.StepRunsFrontCommand := fun _ _ _ h => step_cons h

/-- Settles O3: every command keeps the queue (`Kept.pending`). -/
theorem commandsLeaveTheQueue : Obligations.CommandsLeaveTheQueue := fun _ _ _ h => (exec_kept h).pending

/-- Settles O5: a command ends with the areas written (`finish_copies`), or leaves a part that does not run. -/
theorem everyStepKeepsCopiesCurrent : Obligations.EveryStepKeepsCopiesCurrent := fun _ _ hs h =>
  step_keeps (fun _ => Iff.rfl) (fun h hs => (exec_taken h).copiesCurrent hs) hs h

/-- R189: the frame in turn is taken at the next step, and the idle step gives the turn to the frame it takes. -/
theorem step_frameInTurn {s t : State} (hs : FrameInTurn s) (h : step s = .next t) : FrameInTurn t := by
  cases hp : s.pending with
  | nil =>
    rw [step_nil hp] at h; cases h
    exact idle_frameInTurn hp hs
  | cons c rest =>
    rw [step_cons hp] at h
    have hturn : t.link.turn = false := by
      cases hb : s.link.turn with
      | false => exact (exec_kept h).turn hb
      | true =>
        obtain ⟨ha, hready, e, he⟩ := hs hb
        obtain ⟨rfl, -⟩ := List.cons.inj (hp.symm.trans he)
        have htakes : linkTakes s.link = true := by simp [linkTakes, hready, hb]
        exact exec_frame_turn (s := { s with pending := rest }) ha htakes h
    intro ht; rw [hturn] at ht; cases ht

/-- Settles O6, by what a command makes of the part (`exec_taken`). -/
theorem everyStepKeepsTheLinkInOrder : Obligations.EveryStepKeepsTheLinkInOrder := fun _ _ hbusy hnotices hone h =>
  ⟨step_keeps (fun _ => Iff.rfl) (fun h hs => (exec_taken h).senderBusy hs) hbusy h,
    step_keeps (fun _ => Iff.rfl) (fun h hs => (exec_kept h).notices hs) hnotices h,
    step_keeps (fun _ => Iff.rfl) (fun h hs => (exec_kept h).oneAtATime hs) hone h,
    fun hs => step_frameInTurn hs h⟩

/-- Settles O8: every command keeps the log in order (`Kept.log`). -/
theorem everyStepKeepsLogConsecutive : Obligations.EveryStepKeepsLogConsecutive := fun _ _ hs h =>
  step_keeps (fun _ => Iff.rfl) (fun h hs => (exec_kept h).log hs) hs h

/-- Settles O9: RPT follows at the end of each command (`finish_follows`). -/
theorem everyStepKeepsReportFollowing : Obligations.EveryStepKeepsReportFollowing := fun _ _ hs h =>
  step_keeps (fun _ => Iff.rfl) (fun h hs => (exec_taken h).reportFollows hs) hs h

/-- Settles O10: every command keeps the map well formed (`Kept.map`). -/
theorem everyStepKeepsIncidentMap : Obligations.EveryStepKeepsIncidentMap := fun _ _ hs h =>
  step_keeps (fun _ => Iff.rfl) (fun h hs => (exec_kept h).map hs) hs h

/-- Settles O11: every command keeps the escrow's room and the tables' sizes (`Kept.escrow`, `Kept.tables`). -/
theorem everyStepKeepsEscrowRoomAndTableSizes : Obligations.EveryStepKeepsEscrowRoomAndTableSizes := by
  intro s t hescrow htables h
  refine ⟨step_keeps (fun _ => Iff.rfl) (fun h hs => (exec_kept h).escrow hs) hescrow h, ?_⟩
  cases hp : s.pending with
  | nil => rw [step_nil hp] at h; cases h; exact idle_tablesKept htables
  | cons c rest => rw [step_cons hp] at h; exact (exec_kept h).tables htables

end

section
/-! The idle step in full (O2), the state after reset (O4), and the part that does not run its blocks (O12). -/

namespace Sys2Proof.Machine

variable {s t : State} {l : List Part}

theorem only_ties {c} (h : OnlyChanges l s t) (hl : .ties ∈ l) : OnlyChanges l s { t with ties := c } := by
  intro p hp; have h2 := h p hp; cases p <;> first | exact h2 | exact absurd hl hp

/-! ### What the idle step takes -/

theorem choose_lt {n : Nat} (h : n ≠ 0) : choose n s < n := by
  unfold choose; split
  · omega
  · exact Nat.mod_lt _ (by omega)

/-- One of the things due stands in the queue, and is gone from where it was. -/
def DueTaken (s t : State) : Prop :=
  ∃ c, t.pending = [c] ∧
    ((∃ i, s.raised[i]? = some c ∧ t.raised = s.raised.eraseIdx i ∧ t.link = s.link)
      ∨ (c ∈ dueTimers s ∧ t.raised = s.raised ∧ t.link = s.link)
      ∨ (∃ e, readyFrame s = some e ∧ c = frameCommand e ∧ t.raised = s.raised ∧ t.link = (popFrame s).link))

theorem takeDue_takes {i : Nat} (hp : s.pending = []) (hi : i < dueCount s) : DueTaken s (takeDue i s) := by
  unfold takeDue; dsimp only; split
  · next h => exact ⟨s.raised[i], by simp [hp, h], .inl ⟨i, List.getElem?_eq_getElem h, rfl, rfl⟩⟩
  · split
    · have h : i - s.raised.length < (dueTimers s).length := by omega
      exact ⟨(dueTimers s)[i - s.raised.length], by simp [hp, h], .inr (.inl ⟨List.getElem_mem h, rfl, rfl⟩)⟩
    · split
      · next e he => exact ⟨frameCommand e, by rw [hp]; rfl, .inr (.inr ⟨e, he, rfl, rfl, rfl⟩)⟩
      · next hnone =>
        unfold dueCount at hi
        rw [hnone] at hi
        simp at hi
        omega

theorem takeDue_now (i : Nat) (s : State) : (takeDue i s).now = s.now := by
  unfold takeDue; dsimp only; split
  · rfl
  · split
    · rfl
    · split <;> rfl

/-- An update of the queue, of what the detectors have raised and of LINK's input leaves the other parts. -/
theorem only_taken (p : List Instr) (r : List Instr) (k : LinkBlock) (s : State) :
    OnlyChanges [.pending, .ties, .raised, .input] s { s with pending := p, raised := r, link := k } := by
  intro p hp
  cases p
  case clock => exact ⟨rfl, rfl⟩
  case pending | ties | raised | input => exact absurd (by decide) hp
  all_goals rfl

theorem takeDue_only (i : Nat) (s : State) : OnlyChanges [.pending, .ties, .raised, .input] s (takeDue i s) := by
  unfold takeDue; dsimp only; split
  · exact only_taken _ _ s.link s
  · split
    · exact only_taken _ s.raised s.link s
    · split
      · exact only_taken _ s.raised (popFrame s).link s
      · exact .refl

/-! ### Without power, or while a restart is awaited -/

theorem dead_of_power (h : s.power = .off ∨ s.power = .halted) : alive s = false := by
  unfold alive; rcases h with h | h <;> rw [h] <;> rfl

theorem stepAlive_of_dead {f : State → State} (h : alive s = false) : stepAlive f s = s := by
  unfold stepAlive; rw [h]; rfl

theorem takeCommand_of_dead {k : Byte} {p : List Byte} {f : State → State} (h : alive s = false) :
    takeCommand k p f s = s := by
  unfold takeCommand; rw [h]; rfl

theorem not_starting_of_dead (h : alive s = false) : s.power ≠ .starting := by
  intro hs; unfold alive at h; rw [hs] at h; cases h

/-- R185: a reading of a start is given in a start alone. -/
theorem reading_of_dead {p : Prop} [Decidable p] {u : State} (h : alive s = false) :
    (if s.power = .starting ∧ p then u else s) = s := if_neg fun hc => not_starting_of_dead h hc.1

theorem startDone_of_dead (h : alive s = false) : startDone s = false := by
  unfold startDone; simp [not_starting_of_dead h]

end Sys2Proof.Machine

open Sys2Proof Sys2Proof.Machine

/-- Settles O2: with nothing due a millisecond passes (`advance_only`), else one thing due is taken (`takeDue_takes`). -/
theorem idlePartAdvancesOrTakesOneEvent : Obligations.IdlePartAdvancesOrTakesOneEvent := by
  intro s hp
  refine ⟨idle s, step_nil hp, fun h0 => ?_, fun h0 => ?_⟩
  · rw [show idle s = advance s from if_pos h0]
    exact ⟨advance_now s, (advance_pending s).trans hp, advance_only s, advance_link s⟩
  · let u : State := { s with ties := if dueCount s ≤ 1 then s.ties else s.ties + 1 }
    rw [show idle s = takeDue (choose (dueCount s) s) u from if_neg h0]
    have hu : OnlyChanges [.pending, .ties, .raised, .input] s u := only_ties .refl (by decide)
    exact ⟨takeDue_now _ u, hu.step (takeDue_only _ u) (by simp),
      takeDue_takes (s := u) hp (choose_lt h0 : choose (dueCount s) s < dueCount u)⟩

/-- Settles O12: a host command is not taken (`takeCommand_of_dead`), no event is (`stepAlive_of_dead`), and the readings are
those of a start. -/
theorem nothingActsWithoutPowerOrBeforeARestart : Obligations.NothingActsWithoutPowerOrBeforeARestart := by
  intro c s htick hdone hjam hfree hfail hup hpower
  have hd := dead_of_power hpower
  have host : ∀ {k p}, hostFrame c = some (k, p) → exec c s = .next s := fun hc => by
    obtain ⟨f, -, hexec⟩ := exec_host hc
    rw [hexec, takeCommand_of_dead hd]
  cases c with
  | powerUp b m l => exact absurd rfl (hup b m l)
  | powerFail l => exact absurd rfl (hfail l)
  | clockTick => exact absurd rfl htick
  | transmitDone => exact absurd rfl hdone
  | jamLineAsserted => exact absurd rfl hjam
  | jamLineReleased => exact absurd rfl hfree
  | startComplete =>
    exact congrArg Host.Outcome.next (if_neg (by rw [startDone_of_dead hd]; exact Bool.false_ne_true))
  | keyReadingEnd | hookReadingEnd | switchReadingEnd | cordReadingEnd | voltageReadingEnd =>
    exact congrArg Host.Outcome.next (reading_of_dead hd)
  | byteReceived | frameTimeout | frameFault | keyPress | keyRelease | stuckTimerExpiry | firstDigitTimeout
  | interDigitTimeout | hookOff | hookOn | depositTimeout | answerTimeout | abandonedTimeout | rejectToneEnd
  | warningRepeat | lastAliveWrite | guardEnd | dialToneTimeout | dialToneRecognised | busyRecognised | sendingComplete
  | sendComplete | loopCurrentPresent | loopCurrentAbsent | loopCurrentLost | meterPulse | reversalAccepted
  | returnAccepted | cadenceRecognised | voltageAbsent | voltagePresent | toneDetectorInterval | validatorStrobe
  | strobeFall | entrySensor | confirmationWindowEnd | jamLineTimeout | vaultSensor | returnSensor | exitTimerExpiry
  | reversalPulse | lockoutExpiry | periodEnd | supervisionTimeout | graceTimerExpiry | activationInstant | keyOn | keyOff
  | vaultDoorOpened | vaultDoorClosed | housingDoorOpened | housingDoorClosed | graceExpired | cordLoopOpen
  | cordLoopClosed | shockPulse | attemptStart | readyTimeout | ackTimeout | closeTimeout | backoffExpiry
  | waitMinuteWrite => exact congrArg Host.Outcome.next (stepAlive_of_dead hd)
  | _ => exact host rfl

namespace Sys2Proof.Machine

theorem reset_keys (k : Key) : (cellOf k State.reset.keys).state = .released := by
  cases k with
  | digit d => revert d; decide
  | star => rfl
  | hash => rfl
  | followOn => rfl

theorem reset_coinsOwned : CoinsOwned State.reset where
  denominations := rfl
  nothingToReport := rfl
  noneComplete := fun _ h => by cases h
  openComplete := fun _ h => by cases h
  noSlotBeforeHook := fun _ => rfl
  openExactlyInACall := rfl
  openCounts := fun _ h => by cases h
  unowned := fun _ => rfl
  transit := fun _ h => by cases h
  account := fun h => absurd rfl h
  unopened := fun _ => rfl
  collecting := fun h => by cases h
  closing := fun h => by cases h
  callEndRun := fun h => by cases h
  startRun := fun h => absurd rfl h
  purge := fun _ => rfl
  counted := fun h => by obtain ⟨_, h, -⟩ := h; cases h

theorem reset_coinsKept : CoinsKept State.reset := by
  refine ⟨reset_coinsOwned, ⟨?_, ⟨?_, ?_⟩⟩⟩
  · rintro sl ⟨⟩
  · rintro sl rest ⟨⟩
  · rintro sl ⟨⟩

theorem reset_copiesCurrent : CopiesCurrent State.reset := fun _ => ⟨rfl, rfl, rfl, rfl, rfl, rfl, rfl, rfl, rfl, rfl⟩

theorem reset_tablesKept : TablesKept State.reset :=
  ⟨rfl, rfl, by decide, rfl, rfl, rfl, rfl, rfl, ⟨fun _ => rfl, fun _ => rfl⟩, ⟨fun _ => rfl, fun _ => rfl⟩,
    ⟨fun _ => ⟨rfl, rfl⟩, fun _ => ⟨rfl, rfl⟩⟩, ⟨fun _ => rfl, fun _ => rfl⟩⟩

theorem reset_logKept : LogKept State.reset := ⟨logWf_empty, fun _ => logWf_empty, fun _ => logWf_empty⟩

theorem reset_mapKept : MapKept State.reset := ⟨mapWf_nil, fun _ => mapWf_nil, fun _ => mapWf_nil⟩

theorem reset_escrowFits : EscrowFits State.reset := ⟨by decide, fun _ => by decide, fun _ => by decide⟩

theorem reset_senderBusy : SenderBusy State.reset := fun _ => ⟨rfl, .inr rfl⟩

theorem reset_oneActive : OneActive State.reset := by rintro ⟨⟨⟩, -⟩

theorem reset_noticesKept : NoticesKept State.reset := ⟨by decide, .nil⟩

theorem reset_frameInTurn : FrameInTurn State.reset := by rintro ⟨⟩

theorem reset_reportFollows : ReportFollows State.reset :=
  fun _ => ⟨fun _ => rfl, ⟨fun h => (by cases h), rfl⟩⟩

end Sys2Proof.Machine

open Sys2Proof Sys2Proof.Machine

/-- Settles O4: the fields of the reset state by evaluation, and each invariant there by its lemma. -/
theorem resetTakesFactoryValues : Obligations.ResetTakesFactoryValues :=
  ⟨rfl, rfl, rfl, rfl, rfl, rfl, rfl, rfl, rfl, rfl, rfl, rfl, rfl, rfl,
    reset_keys, rfl, rfl, rfl, rfl, rfl, rfl, rfl, rfl,
    reset_copiesCurrent, reset_senderBusy, rfl, reset_oneActive, reset_logKept, reset_noticesKept, .inl rfl,
    reset_frameInTurn, reset_reportFollows, reset_escrowFits, reset_mapKept, reset_tablesKept, reset_coinsKept⟩

end

section
/-! LINK and the host's commands that read, or set one thing: what LINK answers itself, STATUS, the reading commands, and
CLOCK_SET (O16, O18, O20, O23, O24). -/

namespace Sys2Proof.Machine

variable {s : State}

/-! ### A command that LINK takes -/

theorem alive_of_ready (h : Ready s) : alive s = true := (alive_iff s).2 (.inr h.1)

/-- R189, R190: outside a start, a command whose payload has its length is its owner's rule. -/
theorem hostCommand_owner {α : Type} {k : Byte} {p : List Byte} {args : List Byte → Option α} {a : α}
    (f : α → State → State) (h : Ready s) (ha : args p = some a) :
    hostCommand k p args f s = finish s (f a (s.took k)) := by
  rw [hostCommand_ready _ _ _ _ _ h, ha]

/-- A command that is answered with what stands, and changes nothing. -/
def Reports (kind : Byte) (payload : List Byte) (s t : State) : Prop :=
  Answered kind payload s t ∧ Posted [] s t ∧ t.body = s.body

/-- R190: a rule that is one reply answers it and changes nothing else. -/
theorem reports_respond (k : Byte) (r : Result) (b : List Byte) (s : State) :
    Reports (replyKind k) (le1 r.code ++ b) s (finish s (respond k r b (s.took k))) := finish_respond k r b s

/-- An OK reply: the result's byte, then the contents. -/
theorem answered_ok {k : Byte} {b : List Byte} {t : State} (h : Answered k (le1 Result.ok.code ++ b) s t) :
    Answered k (0 :: b) s t := h

/-- A host command whose rule is one reply. -/
theorem hostCommand_reports {α : Type} {k : Byte} {p : List Byte} {args : List Byte → Option α} {a : α}
    {f : α → State → State} {r : Result} {b : List Byte} (h : Ready s) (ha : args p = some a)
    (hf : f a (s.took k) = respond k r b (s.took k)) :
    Reports (replyKind k) (le1 r.code ++ b) s (hostCommand k p args f s) := by
  rw [hostCommand_owner f h ha, hf]; exact reports_respond k r b s

theorem decideReply_refused {k : Byte} {refusal : Option Result} {r : Result} {ok : State → State × List Byte}
    (h : refusal = some r) : decideReply k refusal ok s = respond k r [] s := by rw [h]; rfl

theorem decideReply_ok {k : Byte} {refusal : Option Result} {ok : State → State × List Byte}
    (h : refusal = none) : decideReply k refusal ok s = respond k .ok (ok s).2 (ok s).1 := by rw [h]; rfl

/-! ### What LINK answers itself (R188, R190, R199) -/

/-- A frame's answer placed by LINK itself changes nothing else. -/
theorem finish_placeReply (k : Byte) (p : List Byte) {u : State} (htx : u.link.tx = s.link.tx)
    (hn : u.link.notices = s.link.notices) (hl : u.link.noticeLost = s.link.noticeLost) (hb : u.body = s.body)
    (hp : s.rate.phase = u.rate.phase) (hk : creditKey s = creditKey u) :
    Reports k p s (finish s (placeReply k p u)) :=
  ⟨finish_answered _ _ _ _ _ htx rfl rfl, finish_posted _ _ _ _ htx hn hl hp hk, (finish_body _ _).trans hb⟩

theorem exec_frameFault_takes (r : FrameReason) (ha : alive s = true) (ht : Takes s) :
    ∃ t, exec (.frameFault r) s = .next t ∧ Reports 0xFF (le1 Result.frame.code ++ le1 (reasonByte r)) s t := by
  refine ⟨_, rfl, ?_⟩
  rw [stepAlive_of_alive _ ha, if_pos ((linkTakes_iff s).2 ht)]
  exact finish_placeReply _ _ rfl rfl rfl rfl rfl rfl

theorem exec_unknownCommand_takes (k : Byte) (p : List Byte) (ha : alive s = true) (ht : Takes s) :
    ∃ t, exec (.unknownCommand k p) s = .next t ∧ Reports (unknownKind k) (le1 Result.unknown.code) s t := by
  refine ⟨_, rfl, ?_⟩
  rw [takeCommand_ready _ _ _ _ ha ht]
  exact finish_placeReply _ _ rfl rfl rfl rfl rfl rfl

/-- R199: in a start a command that is not STATUS is answered BUSY. -/
theorem hostCommand_starting {α : Type} {k : Byte} {p : List Byte} {args : List Byte → Option α}
    {f : α → State → State} (hs : s.power = .starting) (ht : Takes s) :
    Reports (replyKind k) [1] s (hostCommand k p args f s) := by
  have howner : ∀ a : Option α, ownerRule k a f (s.took k) = respond k .busy [] (s.took k) := fun _ => if_pos hs
  unfold hostCommand
  rw [takeCommand_ready _ _ _ _ ((alive_iff s).2 (.inl hs)) ht, howner]
  exact reports_respond k .busy [] s

end Sys2Proof.Machine

open Sys2Proof Sys2Proof.Machine

/-- Settles O16: LINK's own answers are one reply each (`exec_frameFault_takes`, `exec_unknownCommand_takes`). -/
theorem faultsAndUnknownKindsAreAnswered : Obligations.FaultsAndUnknownKindsAreAnswered := by
  intro s ha ht
  refine ⟨fun r => ?_, fun k p hwf => ?_⟩
  · obtain ⟨t, hexec, hreports⟩ := exec_frameFault_takes r ha ht
    exact ⟨t, hexec, by cases r <;> exact hreports⟩
  · exact exec_unknownCommand_takes k p ha ht

/-- Settles O18: each command but STATUS goes through `hostCommand`, which answers BUSY in a start. -/
theorem commandsAreBusyDuringAStart : Obligations.CommandsAreBusyDuringAStart := by
  intro c k p s hwf hc hnames hk hs ht
  cases c with
  | status => cases hc; exact absurd rfl hk
  | unknownCommand => cases hc; simp_all [Instr.wf]
  | _ => cases hc <;> exact ⟨_, rfl, hostCommand_starting hs ht⟩

namespace Sys2Proof.Machine

variable {s : State}

theorem pump_reply_none (h : s.link.reply = none) : (pump s).link.reply = none := by
  unfold pump; split
  · exact h
  · split
    · rfl
    · split
      · exact h
      · split <;> exact h

/-- With no reply in the slot, the end of a step places none. -/
theorem finish_reply_none {s0 : State} (h : s.link.reply = none) : (finish s0 s).link.reply = none := by
  refine pump_reply_none ?_
  rw [commit_link, creditFollow_reply, guardFollow_link, rptFollow_link]; exact h

/-- R189, R190: what an owner's rule makes of a command that is taken: its one reply, or a blind stroke. -/
theorem finish_of_replied {k : Byte} {v : State} (h : Replied k (s.took k) v) :
    (finish s v).link.turn = false ∧ (finish s v).link.ended = s.link.ended ∧
      ((∃ r b, Answered (replyKind k) (r :: b) s (finish s v)
          ∧ (r ≠ 0 → Posted [] s (finish s v) ∧ (finish s v).body = s.body))
        ∨ (k = 0x1A ∧ (finish s v).link.outstanding = some 0x1A
            ∧ (s.link.reply = none → (finish s v).link.reply = none) ∧ (finish s v).coin.blind = true
            ∧ (finish s v).coin.mover ≠ .idle)) := by
  have hended : (finish s v).link.ended = v.link.ended :=
    (congrArg (fun u : State => u.link.ended) (finish_body s v) :)
  rw [finish_turn, hended]
  cases h with
  | refused hr =>
    exact ⟨rfl, rfl, .inl ⟨_, _, (finish_respond k _ [] s).1, fun _ => (finish_respond k _ [] s).2⟩⟩
  | checked f =>
    exact ⟨rfl, rfl, .inl ⟨_, _, finish_answered _ _ _ _ _ rfl rfl rfl,
      fun _ => ⟨finish_posted _ _ _ _ rfl rfl rfl rfl rfl, finish_body _ _⟩⟩⟩
  | @done b v hv =>
    have hl := hv.wires trivial
    refine ⟨(congrArg LinkBlock.turn hl :), (congrArg LinkBlock.ended hl :), .inl ⟨0, b, ?_, fun h => absurd rfl h⟩⟩
    exact finish_answered _ _ _ _ _ (congrArg LinkBlock.tx hl :) rfl rfl
  | blind st hk =>
    refine ⟨rfl, rfl, .inr ⟨hk, ?_, fun hreply => ?_, ?_, ?_⟩⟩
    · rw [finish_outstanding, ← hk]; rfl
    · exact finish_reply_none hreply
    · rw [finish_coin]; rfl
    · rw [finish_coin]; cases st <;> exact nofun

theorem not_linkTakes (h : linkReady s.link = false ∨ (s.link.turn = false ∧ s.link.ended ≠ [])) :
    linkTakes s.link = false := by
  unfold linkTakes
  rcases h with h | ⟨h1, h2⟩
  · rw [h]; rfl
  · simp [h1, h2]

theorem only_link {l : List Part} {t : State} {c : LinkBlock} (h : OnlyChanges l s t) (hl : .input ∈ l) :
    OnlyChanges l s { t with link := c } := by
  intro p hp; have h2 := h p hp; cases p <;> first | exact h2 | exact absurd hl hp

/-- R189: a frame fault that may not be taken yet waits behind the frames that ended before it. -/
theorem exec_frameFault_waits (r : FrameReason) (ha : alive s = true) (ht : linkTakes s.link = false) :
    ∃ t, exec (.frameFault r) s = .next t ∧ LinkKept s t ∧ Posted [] s t ∧ OnlyChanges [.input] s t
      ∧ t.link.ended = s.link.ended ++ [.fault r 0] ∧ t.link.input = s.link.input := by
  let u : State := { s with link := { s.link with ended := s.link.ended ++ [.fault r 0] } }
  have hexec : exec (.frameFault r) s = .next (finish s u) := by
    refine congrArg Host.Outcome.next ?_
    rw [stepAlive_of_alive _ ha, ht]; rfl
  refine ⟨_, hexec, finish_linkKept _ _ _ rfl rfl rfl rfl, finish_posted _ _ _ _ rfl rfl rfl rfl rfl,
    only_finish (only_link .refl (by decide)), ?_, ?_⟩
  · exact (congrArg (fun x : State => x.link.ended) (finish_body s u) :)
  · exact (congrArg (fun x : State => x.link.input) (finish_body s u) :)

/-- R191: STATUS's reply, and the notice-lost flag it clears. -/
theorem exec_status_ok (ha : alive s = true) (ht : Takes s) :
    exec (.status []) s = .next (finish s (statusRule (s.took 0x01))) := by
  refine congrArg Host.Outcome.next ?_
  rw [takeCommand_ready _ _ _ _ ha ht]; rfl

theorem statusBytes_took (k : Byte) (s : State) : statusBytes (s.took k) = statusBytes s := rfl

/-- R191: the reply with the values as they stand; of the rest the notice-lost flag alone changes. -/
theorem finish_statusRule (s : State) :
    Answered 0x81 (0 :: statusBytes s) s (finish s (statusRule (s.took 0x01)))
      ∧ (finish s (statusRule (s.took 0x01))).link.notices = s.link.notices
      ∧ (finish s (statusRule (s.took 0x01))).link.noticeLost = false
      ∧ (finish s (statusRule (s.took 0x01))).body = s.body := by
  have hanswered : Answered 0x81 (0 :: statusBytes s) s (finish s (statusRule (s.took 0x01))) := by
    refine answered_ok ?_
    rw [statusRule, statusBytes_took]
    exact finish_answered _ _ _ _ _ rfl rfl rfl
  let cleared : State := { s with link := { s.link with noticeLost := false } }
  have hposted : Posted [] cleared (finish s (statusRule (s.took 0x01))) :=
    finish_posted _ _ _ _ rfl rfl rfl rfl rfl
  exact ⟨hanswered, notices_of_answered (s := cleared) hanswered hposted, hposted.1, finish_body _ _⟩

theorem exec_status_length {p : List Byte} (hp : p ≠ []) (ha : alive s = true) (ht : Takes s) :
    exec (.status p) s = .next (finish s (respond 0x01 .length [] (s.took 0x01))) := by
  refine congrArg Host.Outcome.next ?_
  rw [takeCommand_ready _ _ _ _ ha ht]
  cases p with
  | nil => exact absurd rfl hp
  | cons b p => rfl

end Sys2Proof.Machine

open Sys2Proof Sys2Proof.Machine

/-- Settles O19: a command that is taken is its owner's rule (`exec_named`, `finish_of_replied`); one that may not be taken
yet waits. -/
theorem everyCommandGetsOneReply : Obligations.EveryCommandGetsOneReply := by
  refine ⟨fun c k p s hwf hc hnames hready => ?_, fun s ha hwait => ⟨fun c k p hc => ?_, fun r => ?_⟩⟩
  · have hnamed : c ≠ .unknownCommand k p := by
      rintro rfl; simp [Instr.wf, hnames] at hwf
    obtain ⟨f, hf, hexec⟩ := exec_named hc hnamed
    obtain ⟨hturn, hended, hreply⟩ := finish_of_replied (hf (s.took k))
    have htaken : exec c s = .next (finish s (f (s.took k))) := by
      rw [hexec, takeCommand_ready _ _ _ _ (alive_of_ready hready) hready.2]
    refine ⟨_, htaken, hturn, hended, hreply.imp_right ?_⟩
    rintro ⟨hk, hout, hslot, hblind, hmover⟩
    exact ⟨hk, hout, hslot hready.2.2.1, hblind, hmover⟩
  · obtain ⟨f, -, hexec⟩ := exec_host hc
    rw [hexec]
    unfold takeCommand
    rw [if_pos ha, not_linkTakes hwait]; rfl
  · exact exec_frameFault_waits r ha (not_linkTakes hwait)

/-- Settles O20: STATUS without arguments is its rule; with arguments the length is refused. -/
theorem statusReportsAndClearsLoss : Obligations.StatusReportsAndClearsLoss := by
  intro p s ha ht
  by_cases hp : p = []
  · subst hp
    obtain ⟨hanswered, hnotices, hlost, hbody⟩ := finish_statusRule s
    exact ⟨_, exec_status_ok ha ht, hbody, hnotices, fun _ => ⟨hanswered, hlost⟩, fun h => absurd rfl h⟩
  · obtain ⟨hanswered, hposted, hbody⟩ := finish_respond 0x01 .length [] s
    exact ⟨_, exec_status_length hp ha ht, hbody, notices_of_answered hanswered hposted, fun h => absurd h hp,
      fun _ => ⟨hanswered, hposted.1⟩⟩

end

section
/-! The notices of an effect (`Tells`), what RATE's notice reads, and the host's commands that read, set the clock, a flag or
the map's report, or restart the part (O23, O24, O34, O35, O37). -/

namespace Sys2Proof.Machine

variable {s t u v : State} {ns ms : List Notice}

/-! ### The notices of an effect -/

/-- The notices posted one after the other. -/
def postAll (ns : List Notice) (s : State) : State := ns.foldl (fun x n => post n.kind n.payload x) s

/-- An effect posts these notices, in this order, and leaves the mask by which they are posted. -/
structure Tells (ns : List Notice) (s t : State) : Prop where
  masked : t.config.masked = s.config.masked
  notices : t.link.notices = (postAll ns s).link.notices
  lost : t.link.noticeLost = (postAll ns s).link.noticeLost

theorem postAll_config (ns : List Notice) : ∀ s : State, (postAll ns s).config = s.config := by
  induction ns with
  | nil => exact fun _ => rfl
  | cons n ns ih => exact fun s => (ih _).trans (post_config ..)

/-- What is posted reads the queue and the mask alone. -/
theorem tells_post_of_tells {k : NoticeKind} {p : List Byte} (h : Tells [] s t) : Tells [] (post k p s) (post k p t) := by
  obtain ⟨hm, hn, hl⟩ := h
  have hn : t.link.notices = s.link.notices := hn
  have hl : t.link.noticeLost = s.link.noticeLost := hl
  have hk : maskedKind t k = maskedKind s k := by unfold maskedKind; rw [hm]
  have hqueue : (post k p t).link.notices = (post k p s).link.notices := by
    rw [post_eq, post_eq]; dsimp only; rw [hk, hn]
  have hflag : (post k p t).link.noticeLost = (post k p s).link.noticeLost := by
    rw [post_eq, post_eq]; dsimp only; rw [hk, hn, hl]
  exact ⟨by rw [post_config, post_config, hm], hqueue, hflag⟩

theorem tells_postAll_of_tells (ns : List Notice) : ∀ {s t : State}, Tells [] s t →
    Tells [] (postAll ns s) (postAll ns t) := by
  induction ns with
  | nil => exact fun h => h
  | cons n ns ih => exact fun h => ih (tells_post_of_tells h)

theorem Tells.refl : Tells [] s s := ⟨rfl, rfl, rfl⟩

/-- An effect that leaves the queue and the mask tells nothing. -/
theorem Tells.of_same (hl : t.link = s.link) (hm : t.config = s.config) : Tells [] s t :=
  ⟨by rw [hm], by rw [hl]; rfl, by rw [hl]; rfl⟩

theorem Tells.trans (h : Tells ns s u) (g : Tells ms u t) : Tells (ns ++ ms) s t := by
  have h0 : Tells [] (postAll ns s) u := ⟨by rw [h.masked, postAll_config], h.notices, h.lost⟩
  have hpost := tells_postAll_of_tells ms h0
  have happ : postAll (ns ++ ms) s = postAll ms (postAll ns s) := List.foldl_append ..
  exact ⟨g.masked.trans h.masked, by rw [happ, g.notices]; exact hpost.notices, by rw [happ, g.lost]; exact hpost.lost⟩

/-- The last of two effects first. -/
theorem Tells.after (g : Tells ms u t) (h : Tells ns s u) : Tells (ns ++ ms) s t := h.trans g

theorem tells_post (k : NoticeKind) (p : List Byte) (s : State) : Tells [⟨k, p⟩] s (post k p s) :=
  ⟨by rw [post_config], rfl, rfl⟩

/-! ### What RATE's notice reads (R88) -/

theorem creditKey_of_same (hr : t.rate = s.rate) (hc : t.call = s.call) (hk : t.coin = s.coin) :
    creditKey s = creditKey t := by
  unfold creditKey openCarried callE ownEscrow escrowElsewhere
  rw [hr, hc, hk]

/-- A part of the state in none of RATE, CALL and COIN is none that a CREDIT notice follows. -/
theorem creditKey_of_only {l : List Part} (h : OnlyChanges l s t) (hl : ∀ p ∈ [Part.rate, .call, .coin], p ∉ l) :
    creditKey s = creditKey t :=
  creditKey_of_same (h .rate (hl _ (by decide))) (h .call (hl _ (by decide))) (h .coin (hl _ (by decide)))

/-- The end of a step that leaves RATE, CALL and COIN: the notices are the effect's. -/
theorem Tells.posted (h : Tells ns s u) (htx : u.link.tx = s.link.tx) (hr : s.rate.phase = u.rate.phase)
    (hk : creditKey s = creditKey u) : Posted ns s (finish s u) := finish_posted ns s s u htx h.notices h.lost hr hk

/-! ### A host command with an effect -/

theorem tells_took (k : Byte) (s : State) : Tells [] s (s.took k) := ⟨rfl, rfl, rfl⟩

/-- R189, R190: a taken command whose owner makes `v` and replies OK. -/
theorem finish_done {k : Byte} {b : List Byte} (hl : Kept True (s.took k) v) (hn : Tells ns (s.took k) v)
    (hr : s.rate.phase = v.rate.phase) (hk : creditKey s = creditKey v) :
    Answered (replyKind k) (0 :: b) s (finish s (respond k .ok b v)) ∧ Posted ns s (finish s (respond k .ok b v))
      ∧ (finish s (respond k .ok b v)).body = v.body := by
  have htx : v.link.tx = s.link.tx := (congrArg LinkBlock.tx (hl.wires trivial) :)
  have hns := hn.after (tells_took k s)
  exact finish_replied k .ok b ns s v htx hns.notices hns.lost hr hk

/-! ### The reading commands -/

theorem configGetRule_ok {items : List Nat} (hr : items.all (fun i => decide (1 ≤ i) && decide (i ≤ 37)) = true)
    (hl : (configGetBytes s.config items).length ≤ 118) :
    configGetRule items s = respond 0x03 .ok (configGetBytes s.config items) s := by
  have hrange : items.any (fun i => i == 0 || decide (37 < i)) = false := by
    rw [List.any_eq_false]
    intro i hi
    have := List.all_eq_true.1 hr i hi
    simp only [Bool.and_eq_true, decide_eq_true_eq] at this
    simp only [Bool.or_eq_true, beq_iff_eq, decide_eq_true_eq]
    omega
  have htests : firstOf [(items.any (fun i => i == 0 || decide (37 < i)), .range),
      (decide (118 < (configGetBytes s.config items).length), .length)] = none := by
    simp only [firstOf, hrange, Bool.false_eq_true, if_false, decide_eq_true_eq, if_neg (Nat.not_lt.2 hl)]
  exact decideReply_ok htests

theorem snapshotRule_ok {b : Byte} (hb : b.toNat < 16) :
    snapshotRule b s = respond 0x10 .ok (snapshotBytes b.toNat s) s := by
  refine decideReply_ok ?_
  simp only [firstOf, decide_eq_true_eq, if_neg (Nat.not_le.2 hb)]

theorem logReadRule_ok {n c : Nat} (h1 : 1 ≤ c) (h4 : c ≤ 4) (hn : readFrom n s.store.log ≠ []) :
    logReadRule (n, c) s = respond 0x11 .ok (logReadBytes c (readFrom n s.store.log)) s := by
  have hc : ¬ (c = 0 ∨ 4 < c) := by omega
  refine decideReply_ok ?_
  simp only [firstOf, Bool.or_eq_true, beq_iff_eq, decide_eq_true_eq, if_neg hc, List.isEmpty_iff, if_neg hn]

/-- R183: the clock's answer while it is SET: the state, and the time. -/
theorem clockBytes_set {c : Time} (h : s.store.clock = some c) : clockCode s ++ timeBytes s.store.clock = 0 :: le4 c := by
  rw [clockCode, h]; rfl

theorem clockBytes_unset (h : s.store.clock = none) :
    clockCode s ++ timeBytes s.store.clock = [1, 0xFF, 0xFF, 0xFF, 0xFF] := by
  rw [clockCode, h]; rfl

theorem bankInfoRule_ok {b : Byte} {n : BankName} (hb : bankOf? b = some n) :
    bankInfoRule b s = respond 0x0F .ok (bankInfoBytes n s) s := by unfold bankInfoRule; rw [hb]

theorem collectionReadRule_some {r : CollectionRecord} (h : s.vault.last = some r) :
    collectionReadRule s = respond 0x16 .ok (collectionBytes r) s := by unfold collectionReadRule; rw [h]

theorem collectionReadRule_none (h : s.vault.last = none) : collectionReadRule s = respond 0x16 .none [] s := by
  unfold collectionReadRule; rw [h]

/-- The answer of a command that only reads. -/
theorem exec_reports {c : Instr} {p : List Byte} {α : Type} (k : Byte) (args : List Byte → Option α) {a : α}
    (f : α → State → State) {r : Result} {b : List Byte} (hexec : exec c s = .next (hostCommand k p args f s)) (h : Ready s)
    (ha : args p = some a) (hf : f a (s.took k) = respond k r b (s.took k)) :
    ∃ t, exec c s = .next t ∧ Reports (replyKind k) (le1 r.code ++ b) s t :=
  ⟨_, hexec, hostCommand_reports h ha hf⟩

/-- R183: CLOCK_GET's answer. -/
theorem exec_clockGet (h : Ready s) : ∃ t, exec (.clockGet []) s = .next t
    ∧ Reports 0x85 (0 :: (clockCode s ++ timeBytes s.store.clock)) s t :=
  exec_reports 0x05 noArgs? (a := ()) (r := .ok) _ rfl h rfl rfl

theorem vaultReadBytes_took (k : Byte) (s : State) : vaultReadBytes (s.took k) = vaultReadBytes s := by
  unfold vaultReadBytes; rfl

/-- R147: VAULT_READ's answer. -/
theorem exec_vaultRead (h : Ready s) : ∃ t, exec (.vaultRead []) s = .next t
    ∧ Reports 0x95 (le1 Result.ok.code ++ vaultReadBytes s) s t :=
  exec_reports 0x15 noArgs? (a := ()) (fun _ t => respond 0x15 .ok (vaultReadBytes t) t) rfl h rfl
    (congrArg (respond 0x15 .ok · (s.took 0x15)) (vaultReadBytes_took 0x15 s))

end Sys2Proof.Machine

open Sys2Proof Sys2Proof.Machine

/-- Settles O23: each reading command's rule is one reply with what stands (`exec_reports`). -/
theorem readingCommandsChangeNothing : Obligations.ReadingCommandsChangeNothing := by
  intro s h
  refine ⟨fun p items ha hr hl => ?_, ?_, fun b n hb => ?_, fun b hb => ?_, fun p n c ha h1 h4 hn => ?_, ?_, ?_⟩
  · exact exec_reports 0x03 configGetArgs? configGetRule rfl h ha (configGetRule_ok hr hl)
  · obtain ⟨t, hexec, hanswered, hrest⟩ := exec_clockGet h
    refine ⟨t, hexec, ?_, hrest⟩
    cases hc : s.store.clock with
    | some c => rw [clockBytes_set hc] at hanswered; exact hanswered
    | none => rw [clockBytes_unset hc] at hanswered; exact hanswered
  · exact exec_reports 0x0F oneByte? bankInfoRule (a := b) rfl h rfl (bankInfoRule_ok hb)
  · exact exec_reports 0x10 oneByte? snapshotRule (a := b) rfl h rfl (snapshotRule_ok hb)
  · exact exec_reports 0x11 logReadArgs? logReadRule rfl h ha (logReadRule_ok h1 h4 hn)
  · obtain ⟨t, hexec, hanswered, hrest⟩ := exec_vaultRead h
    exact ⟨t, hexec, answered_ok hanswered, hrest⟩
  · cases hl : s.vault.last with
    | some r =>
      exact exec_reports 0x16 noArgs? (a := ()) (fun _ => collectionReadRule) rfl h rfl
        (collectionReadRule_some (s := s.took 0x16) hl)
    | none =>
      exact exec_reports 0x16 noArgs? (a := ()) (fun _ => collectionReadRule) rfl h rfl
        (collectionReadRule_none (s := s.took 0x16) hl)

end

section
/-! CLOCK_SET, TERMINAL_BLOCK, REPORT_NOW, RESTART and FACTORY_CLEAR (O24, O34, O35, O37). -/

namespace Sys2Proof.Machine

variable {s t u v : State} {ns ms : List Notice}

/-- R189, R190: what a ready LINK makes of a command: its owner's rule, and the end of the step. -/
theorem exec_owner {c : Instr} {p : List Byte} {α : Type} {a : α} (k : Byte) (args : List Byte → Option α)
    (f : α → State → State) (hexec : exec c s = .next (hostCommand k p args f s)) (h : Ready s) (ha : args p = some a) :
    exec c s = .next (finish s (f a (s.took k))) := by rw [hexec, hostCommand_owner f h ha]

/-- What a taken command changes is what its effect changes. -/
theorem only_replied {l : List Part} {k : Byte} {r : Result} {b : List Byte} (h : OnlyChanges l (s.took k) v) :
    OnlyChanges l s (finish s (respond k r b v)) :=
  only_finish (((only_of_body (s := s) (took_body k s)).step h (List.Subset.refl l)).step
    (only_of_body (l := []) (respond_body k r b v)) (List.nil_subset l))

/-! ### CLOCK_SET (R183) -/

theorem fourBytes_of_length {p : List Byte} (h : p.length = 4) : fourBytes? p = some (ofLe p) := if_pos h

theorem clockSetRule_range {n : Nat} (h : 3155760000 ≤ n) : clockSetRule n s = respond 0x04 .range [] s := by
  have hv : validTime n = false := by unfold validTime; exact decide_eq_false (by unfold clockEnd; omega)
  exact decideReply_refused (by rw [hv]; rfl)

theorem clockSetRule_ok {n : Nat} (h : n < 3155760000) : clockSetRule n s = respond 0x04 .ok [] (setClock n s) := by
  have hv : validTime n = true := by unfold validTime; exact decide_eq_true (by unfold clockEnd; omega)
  exact decideReply_ok (by rw [hv]; rfl)

theorem judgeActivation_none (h : pendingBank s = none) : judgeActivation s = s := by
  unfold judgeActivation; rw [h]

theorem judgeActivation_some {n : BankName} {w : When} (h : pendingBank s = some n) (hw : (s.bank.get n).due = some w) :
    judgeActivation s = if activationReached s w then activate n s else s := by
  unfold judgeActivation; rw [h]; dsimp only; rw [hw]

theorem pendingBank_state {n : BankName} (h : pendingBank s = some n) : (s.bank.get n).state = .pending := by
  unfold pendingBank at h
  split at h
  · next ha => cases h; exact ha
  · split at h
    · next hb => cases h; exact hb
    · cases h

theorem activate_state (n : BankName) (s : State) : ((activate n s).bank.get n).state = .active := by
  unfold activate; rw [moveBank_bank, BankBlock.get_set]

theorem only_clock {l : List Part} {t : State} {c : Option Time} {n : Nat} (h : OnlyChanges l s t) (hl : .clock ∈ l) :
    OnlyChanges l s { t with store := { t.store with clock := c, nextTick := n } } := by
  intro p hp; have h2 := h p hp; cases p <;> first | exact h2 | exact absurd hl hp

theorem setClock_only {n : Nat} : OnlyChanges [.clock, .bank] s (setClock n s) :=
  (only_clock .refl (by decide)).step judgeActivation_only (by decide)

/-- R183: the clock and its next second, which an activation leaves. -/
theorem setClock_clock (n : Nat) (s : State) :
    (setClock n s).store.clock = some n ∧ (setClock n s).store.nextTick = s.now + 1000 :=
  judgeActivation_only (s := { s with store := { s.store with clock := some n, nextTick := s.now + 1000 } }) .clock
    (by decide)

theorem setClock_kept {wired : Prop} {n : Nat} : Kept wired s (setClock n s) := .after judgeActivation_kept (.of_core rfl)

/-- R183, R119: the pending activation is judged against the time that has been set. -/
theorem setClock_state {m : Nat} {n : BankName} {w : When} (hn : pendingBank s = some n)
    (hw : (s.bank.get n).due = some w) : ((setClock m s).bank.get n).state =
      if activationReached { s with store := { s.store with clock := some m } } w then .active else .pending := by
  have hjudge : setClock m s = _ := judgeActivation_some
    (s := { s with store := { s.store with clock := some m, nextTick := s.now + 1000 } }) hn hw
  rw [hjudge, show activationReached { s with store := { s.store with clock := some m, nextTick := s.now + 1000 } } w
    = activationReached { s with store := { s.store with clock := some m } } w from by cases w <;> rfl]
  split
  · exact activate_state ..
  · exact pendingBank_state hn

theorem setClock_none {m : Nat} (hn : pendingBank s = none) : (setClock m s).bank = s.bank := by
  have hjudge : setClock m s = _ := judgeActivation_none
    (s := { s with store := { s.store with clock := some m, nextTick := s.now + 1000 } }) hn
  rw [hjudge]

/-! ### RESTART and FACTORY_CLEAR (R184) -/

theorem awaitStart_only {m : Marker} :
    OnlyChanges [.power, .marker, .call, .line, .coin, .raised] s (awaitStart m s) := by
  intro p hp
  cases p
  case clock => exact ⟨rfl, rfl⟩
  case power | marker | call | line | coin | raised => exact absurd (by decide) hp
  all_goals rfl

/-- R184, R40, R76: from the instant a RESTART or FACTORY_CLEAR is taken. -/
theorem finish_awaitStart (k : Byte) (m : Marker) {u : State} (htx : u.link.tx = s.link.tx) :
    let t := finish s (respond k .ok [] (awaitStart m u))
    Answered (replyKind k) [0] s t ∧ t.power = .halted ∧ t.store.marker = m ∧ lineDrive t = .open ∧ t.coin.mover = .idle
      ∧ t.coin.escrow = u.coin.escrow ∧ t.call.openSlot = u.call.openSlot ∧ t.call.restartEnd = u.call.restartEnd := by
  intro t
  refine ⟨finish_answered _ _ _ _ _ htx rfl rfl, finish_power _ _, same_of_body (finish_body _ _) .marker, ?_, ?_, ?_, ?_,
    ?_⟩
  · unfold lineDrive; rw [finish_line]; rfl
  · rw [finish_coin]; rfl
  · rw [finish_coin]; rfl
  · rw [finish_call]; rfl
  · rw [finish_call]; rfl

/-- R184, R135: FACTORY_CLEAR's rule. -/
def factoryClearRule (s : State) : State :=
  decideReply 0x1C (firstOf [(outsideService s, .service)]) (quietly (awaitStart .clearing)) s

theorem exec_factoryClear (h : Ready s) :
    exec (.factoryClear []) s = .next (finish s (factoryClearRule (s.took 0x1C))) :=
  exec_owner (c := .factoryClear []) 0x1C noArgs? (a := ()) (fun _ t => factoryClearRule t) rfl h rfl

theorem outsideService_eq (s : State) : outsideService s = decide (s.vault.service ≠ .service) := rfl

theorem factoryClearRule_service (h : s.vault.service ≠ .service) :
    factoryClearRule s = respond 0x1C .service [] s := by
  refine decideReply_refused ?_
  simp only [firstOf, outsideService_eq, h, ne_eq, not_false_eq_true, decide_true, if_true]

theorem factoryClearRule_ok (h : s.vault.service = .service) :
    factoryClearRule s = respond 0x1C .ok [] (awaitStart .clearing s) := by
  refine decideReply_ok ?_
  simp only [firstOf, outsideService_eq, h, ne_eq, not_true_eq_false, decide_false, Bool.false_eq_true, if_false]

/-! ### TERMINAL_BLOCK and TERMINAL_UNBLOCK (R4), REPORT_NOW (R169) -/

/-- R4: the flag, set or cleared, and nothing else. -/
theorem finish_setBlocked (k : Byte) (b : Bool) (s : State) :
    let t := finish s (respond k .ok [] (setBlocked b (s.took k)))
    Answered (replyKind k) [0] s t ∧ Posted [] s t
      ∧ t.body = { s with config := { s.config with terminalBlocked := b } }.body :=
  finish_replied k .ok [] [] s (setBlocked b (s.took k)) rfl rfl rfl rfl rfl

theorem reportNowRefusal_state (h : s.config.terminalId = [] ∨ s.config.centreNumber = []) :
    reportNowRefusal s = some .state := by
  rcases h with h | h <;> simp [reportNowRefusal, firstOf, h]

theorem reportNowRefusal_none (h1 : s.config.terminalId ≠ []) (h2 : s.config.centreNumber ≠ [])
    (h : s.incd.map.any Incident.unreported = false) : reportNowRefusal s = some .none := by
  simp only [reportNowRefusal, firstOf, List.isEmpty_iff, Bool.or_eq_true, h1, h2, or_self, if_false, h, Bool.not_false,
    if_true]

theorem reportNowRefusal_attempt (h1 : s.config.terminalId ≠ []) (h2 : s.config.centreNumber ≠ [])
    (h : s.incd.map.any Incident.unreported = true) :
    reportNowRefusal s = if attempting s.rpt.state then some .busy else none := by
  simp only [reportNowRefusal, firstOf, List.isEmpty_iff, Bool.or_eq_true, h1, h2, or_self, if_false, h, Bool.not_true,
    Bool.false_eq_true]

/-- R169: what REPORT_NOW does when it is taken. -/
def reportNowRule (s : State) : State := decideReply 0x19 (reportNowRefusal s) (quietly reportNow) s

theorem exec_reportNow (h : Ready s) : exec (.reportNow []) s = .next (finish s (reportNowRule (s.took 0x19))) :=
  exec_owner (c := .reportNow []) 0x19 noArgs? (a := ()) (fun _ t => reportNowRule t) rfl h rfl

theorem reportNow_refused {r : Result} (h : reportNowRefusal s = some r) :
    Reports 0x99 (le1 r.code) s (finish s (reportNowRule (s.took 0x19))) := by
  have hrule : reportNowRule (s.took 0x19) = respond 0x19 r [] (s.took 0x19) :=
    decideReply_refused (s := s.took 0x19) h
  have hreports := reports_respond 0x19 r [] s
  rw [hrule]
  rwa [List.append_nil] at hreports

theorem reportNow_accepted (h : reportNowRefusal s = none) :
    Answered 0x99 [0] s (finish s (reportNowRule (s.took 0x19)))
      ∧ Posted [] s (finish s (reportNowRule (s.took 0x19)))
      ∧ (finish s (reportNowRule (s.took 0x19))).body = (reportNow (s.took 0x19)).body := by
  have hrule : reportNowRule (s.took 0x19) = respond 0x19 .ok [] (reportNow (s.took 0x19)) :=
    decideReply_ok (s := s.took 0x19) h
  have htold : Tells [] (s.took 0x19) (reportNow (s.took 0x19)) := by
    unfold reportNow; split <;> exact .of_same rfl rfl
  have hrate : (reportNow (s.took 0x19)).rate = s.rate := by unfold reportNow; split <;> rfl
  have hkey : creditKey s = creditKey (reportNow (s.took 0x19)) := by unfold reportNow; split <;> rfl
  rw [hrule]
  exact finish_done reportNow_kept htold (by rw [hrate]) hkey

theorem reportNow_of_not_wait (h : s.rpt.state ≠ .wait) : reportNow s = s := if_neg h

/-- R156, R169: a report is wanted at the end of the wait, so RPT is ready to start. -/
theorem reportNow_of_wait (h : s.rpt.state = .wait) (hw : reportWanted s = true) :
    reportNow s = { s with rpt := { s.rpt with
      state := .readyToStart, backoffTimer := none, minuteTimer := none, savedWait := 0 } } := by
  have hstate : reportNow s = endWait s := if_pos h
  rw [hstate]
  have hwanted : reportWanted { s with rpt := { s.rpt with backoffTimer := none, minuteTimer := none, savedWait := 0 } }
      = true := hw
  unfold endWait restState
  rw [if_pos hwanted]

/-- R156: a ready RPT with a report wanted stays ready at the end of the step. -/
theorem finish_readyToStart {s0 : State} (h : s.rpt.state = .readyToStart) (hw : reportWanted s = true) :
    (finish s0 s).rpt.state = .readyToStart := by
  have hsame : rptFollow s = s := by unfold rptFollow; rw [h]; exact if_pos hw
  rw [finish_rpt, hsame]; exact h

end Sys2Proof.Machine

open Sys2Proof Sys2Proof.Machine

/-- Settles O24: the time decides between RANGE and the setting, after which the pending activation is judged. -/
theorem clockSetSetsTheClock : Obligations.ClockSetSetsTheClock := by
  refine ⟨fun p s hp h => ?_, 0, 1, by decide, fun s h => ?_⟩
  · have hexec := exec_owner (c := .clockSet p) 0x04 fourBytes? clockSetRule rfl h (fourBytes_of_length hp)
    refine ⟨_, hexec, fun hr => ?_, fun hlt => ?_⟩
    · rw [clockSetRule_range hr]; exact reports_respond 0x04 .range [] s
    · rw [clockSetRule_ok hlt]
      have honly := only_replied (s := s) (k := 0x04) (r := .ok) (b := []) (setClock_only (s := s.took 0x04) (n := ofLe p))
      obtain ⟨hclock, htick⟩ := setClock_clock (ofLe p) (s.took 0x04)
      have hlink := (setClock_kept (wired := True) (s := s.took 0x04) (n := ofLe p)).wires trivial
      refine ⟨finish_answered _ _ _ _ _ (congrArg LinkBlock.tx hlink :) rfl rfl, ?_, ?_, honly, ?_, ?_⟩
      · exact (same_of_body (finish_body _ _) .clock).1.trans hclock
      · exact (same_of_body (finish_body _ _) .clock).2.trans htick
      · intro n w hn hw
        rw [finish_bank]
        refine (setClock_state (s := s.took 0x04) hn hw).trans ?_
        cases w <;> simp [activationReached]
      · intro hn
        rw [finish_bank]
        exact setClock_none (s := s.took 0x04) hn
  · obtain ⟨t, hexec, hanswered, hposted, hbody⟩ := exec_clockGet h
    refine ⟨t, hexec, hposted, hbody, fun c hc => ?_, fun hc => ⟨[0xFF, 0xFF, 0xFF, 0xFF], ?_⟩⟩
    · rw [clockBytes_set hc] at hanswered; exact hanswered
    · rw [clockBytes_unset hc] at hanswered; exact hanswered

/-- Settles O34: each of the two commands writes the flag, which the service level asks first. -/
theorem terminalBlockSetsTheFlag : Obligations.TerminalBlockSetsTheFlag := by
  refine ⟨fun s h => ⟨?_, ?_⟩, fun s hb => ?_⟩
  · exact ⟨_, exec_owner (c := .terminalBlock []) 0x17 noArgs? (a := ()) _ rfl h rfl, finish_setBlocked 0x17 true s⟩
  · exact ⟨_, exec_owner (c := .terminalUnblock []) 0x18 noArgs? (a := ()) _ rfl h rfl, finish_setBlocked 0x18 false s⟩
  · simp [serviceLevel, emergencyOnly, hb]

/-- Settles O35: the tests of R169 in order; an attempt's wait alone is ended by an accepted REPORT_NOW. -/
theorem reportNowEndsAWait : Obligations.ReportNowEndsAWait := by
  intro s h
  refine ⟨_, exec_reportNow h, ?_, fun hempty => ?_, fun hid hnumber => ⟨fun hnone => ?_, fun hany => ?_⟩⟩
  · cases hr : reportNowRefusal s with
    | some r => exact (reportNow_refused hr).2.1
    | none => exact (reportNow_accepted hr).2.1
  · obtain ⟨hanswered, -, hbody⟩ := reportNow_refused (reportNowRefusal_state hempty)
    exact ⟨hanswered, hbody⟩
  · obtain ⟨hanswered, -, hbody⟩ := reportNow_refused (reportNowRefusal_none hid hnumber hnone)
    exact ⟨hanswered, hbody⟩
  · have hrefusal := reportNowRefusal_attempt hid hnumber hany
    refine ⟨fun hatt => ?_, fun hready => ?_, fun hwait hlen => ?_⟩
    · rw [hatt] at hrefusal
      obtain ⟨hanswered, -, hbody⟩ := reportNow_refused hrefusal
      exact ⟨hanswered, hbody⟩
    · rw [hready] at hrefusal
      obtain ⟨hanswered, -, hbody⟩ := reportNow_accepted hrefusal
      refine ⟨hanswered, hbody.trans ?_⟩
      rw [reportNow_of_not_wait (by rw [show (s.took 0x19).rpt.state = .readyToStart from hready]; decide)]; rfl
    · rw [hwait] at hrefusal
      obtain ⟨hanswered, -, hbody⟩ := reportNow_accepted hrefusal
      have hwanted : reportWanted (s.took 0x19) = true := by
        unfold reportWanted; simp [State.took, hany, hlen, hnumber]
      have hwaited := reportNow_of_wait (s := s.took 0x19) hwait hwanted
      refine ⟨hanswered, ?_, hbody.trans (by rw [hwaited]; rfl)⟩
      have hrule : reportNowRule (s.took 0x19) = respond 0x19 .ok [] (reportNow (s.took 0x19)) :=
        decideReply_ok (s := s.took 0x19) hrefusal
      rw [hrule, hwaited]
      exact finish_readyToStart rfl hwanted

/-- Settles O37: RESTART and an accepted FACTORY_CLEAR are their reply and `awaitStart`. -/
theorem restartAnswersThenWaits : Obligations.RestartAnswersThenWaits := by
  intro s h
  refine ⟨⟨_, exec_owner (c := .restart []) 0x1B noArgs? (a := ()) (fun _ => restartRule) rfl h rfl, ?_⟩, _,
    exec_factoryClear h, fun hout => ?_, fun hin => ?_⟩
  · let u : State := { s.took 0x1B with call := { s.call with restartEnd := some (s.now, s.store.clock) } }
    have hu : OnlyChanges [.power, .marker, .call, .line, .coin, .raised] (s.took 0x1B) u := only_call .refl (by decide)
    obtain ⟨hanswered, hpower, hmarker, hdrive, hmover, hescrow, hopen, hend⟩ :=
      finish_awaitStart (s := s) 0x1B .restarting (u := u) rfl
    exact ⟨hanswered, hpower, hmarker, hend, hdrive, hmover, hescrow, hopen,
      only_replied (hu.step awaitStart_only (List.Subset.refl _))⟩
  · rw [factoryClearRule_service (s := s.took 0x1C) hout]
    exact reports_respond 0x1C .service [] s
  · rw [factoryClearRule_ok (s := s.took 0x1C) hin]
    obtain ⟨hanswered, hpower, hmarker, hdrive, hmover, hescrow, -⟩ :=
      finish_awaitStart (s := s) 0x1C .clearing (u := s.took 0x1C) rfl
    exact ⟨hanswered, hpower, hmarker, hdrive, hmover, hescrow, only_replied awaitStart_only⟩

end

section
/-! Loading, opening, closing and cancelling a tariff bank (O26, O27, O29, O31). -/

namespace Sys2Proof.Machine

variable {s t u v : State} {ns ms : List Notice} {n : BankName}

/-! ### The notices and the frame of a bank's change (R123) -/

theorem setBank_tells {b : Bank} : Tells [] s (setBank n b s) := .of_same rfl rfl

theorem moveBank_tells {b : BankState} {c : BankCause} :
    Tells [⟨.bank, bankNotice n (s.bank.get n).state b (s.bank.get n).contents.label c (s.bank.get n).due⟩] s
      (moveBank n b c s) :=
  .after (ns := []) (tells_post .bank _ _) setBank_tells

theorem moveBank_body (b : BankState) (c : BankCause) (s : State) :
    (moveBank n b c s).body = (setBank n { s.bank.get n with state := b } s).body := post_body _ _ _

theorem creditKey_bank (h : OnlyChanges [.bank] s t) : creditKey s = creditKey t := creditKey_of_only h (by decide)

/-- R190: a command whose effect is on the banks alone. -/
theorem finish_bankDone {k : Byte} (hl : Kept True (s.took k) v) (hn : Tells ns (s.took k) v)
    (ho : OnlyChanges [.bank] (s.took k) v) :
    Answered (replyKind k) [0] s (finish s (respond k .ok [] v)) ∧ Posted ns s (finish s (respond k .ok [] v))
      ∧ (finish s (respond k .ok [] v)).body = v.body :=
  finish_done hl hn (congrArg RateBlock.phase (ho .rate (by decide))).symm (creditKey_bank ho)

/-! ### Loading (R112) -/

/-- R112: a loading command's rule is what `Loads` says of it. -/
theorem loads_loadingRule (k bank : Byte) (item : BankContents → Except Result BankContents) (s : State)
    (hitem : ∀ c, Loaded c (item c)) : Loads k bank item s (finish s (loadingRule k bank item (s.took k))) := by
  have hrefused : ∀ r, Reports (replyKind k) (le1 r.code) s (finish s (respond k r [] (s.took k))) := fun r => by
    have h := reports_respond k r [] s
    rwa [List.append_nil] at h
  unfold Loads loadingRule
  cases hb : bankOf? bank with
  | none =>
    obtain ⟨hanswered, hposted, hbody⟩ := hrefused .range
    exact ⟨hposted, hanswered, hbody⟩
  | some n =>
    dsimp only
    by_cases hs : (s.bank.get n).state = .loading
    · rw [if_pos hs, if_neg (fun h : bankState (s.took k) n ≠ .loading => h hs)]
      have hloaded := hitem (s.bank.get n).contents
      cases hi : item (s.bank.get n).contents with
      | error r =>
        rw [show item ((s.took k).bank.get n).contents = .error r from hi]
        obtain ⟨hanswered, hposted, hbody⟩ := hrefused r
        exact ⟨hposted, hanswered, hbody⟩
      | ok c =>
        rw [show item ((s.took k).bank.get n).contents = .ok c from hi]
        rw [hi] at hloaded
        obtain ⟨hanswered, hposted, hbody⟩ := finish_bankDone (s := s) (k := k) (v := setContents n c (s.took k))
          (setBank_kept (fun h => .inl h) hloaded.trans) setBank_tells setBank_only
        exact ⟨hposted, hanswered, hbody⟩
    · rw [if_neg hs, if_pos (fun h : bankState (s.took k) n = .loading => hs h)]
      obtain ⟨hanswered, hposted, hbody⟩ := hrefused .state
      exact ⟨hposted, hanswered, hbody⟩

end Sys2Proof.Machine

open Sys2Proof Sys2Proof.Machine

/-- Settles O27: the five loading commands share one rule (`loads_loadingRule`). -/
theorem loadingCommandsChangeOnlyTheirBank : Obligations.LoadingCommandsChangeOnlyTheirBank := by
  intro p s h
  refine ⟨fun a ha => ⟨_, exec_owner (c := .bankPutClass p) 0x07 putClassArgs? _ rfl h ha, ?_⟩,
    fun a ha => ⟨_, exec_owner (c := .bankPutPrefix p) 0x08 putEntryArgs? _ rfl h ha, ?_⟩,
    fun a ha => ⟨_, exec_owner (c := .bankDropPrefix p) 0x09 dropEntryArgs? _ rfl h ha, ?_⟩,
    fun a ha => ⟨_, exec_owner (c := .bankPutSchedule p) 0x0A scheduleArgs? _ rfl h ha, ?_⟩,
    fun a ha => ⟨_, exec_owner (c := .bankPutHoliday p) 0x0B holidayArgs? _ rfl h ha, ?_⟩⟩
  · exact loads_loadingRule _ _ _ s putClass_loaded
  · exact loads_loadingRule _ _ _ s putTableEntry_loaded
  · exact loads_loadingRule _ _ _ s dropTableEntry_loaded
  · exact loads_loadingRule _ _ _ s putSchedule_loaded
  · exact loads_loadingRule _ _ _ s putHolidayEntry_loaded

end

section
/-! Opening, closing and cancelling a tariff bank (O26, O29, O31). -/

namespace Sys2Proof.Machine

variable {s t u v : State} {ns ms : List Notice} {n : BankName}

/-! ### BANK_OPEN (R111) -/

/-- R111: of the retained state an opened bank alone changes; its serial number is kept. -/
theorem openBank_body (n : BankName) (label : List Byte) (s : State) : (openBank n label s).body =
    (setBank n ⟨.loading, { BankContents.emptied with label := label }, (s.bank.get n).serial, none⟩ s).body := by
  unfold openBank
  dsimp only
  split
  · next h =>
    refine congrArg (fun b => (setBank n b s).body) ?_
    rw [h]
  · rw [moveBank_body]
    simp only [setBank, BankBlock.get_set]
    cases n <;> rfl

theorem openBank_tells_loading {label : List Byte} (h : (s.bank.get n).state = .loading) :
    Tells [] s (openBank n label s) := by
  unfold openBank; rw [if_pos h]; exact setBank_tells

theorem openBank_tells {label : List Byte} (h : (s.bank.get n).state ≠ .loading) :
    ∃ p, Tells [⟨.bank, p⟩] s (openBank n label s) := by
  unfold openBank; rw [if_neg h]; exact ⟨_, .after moveBank_tells setBank_tells⟩

theorem openRefusal_none {b : BankState} (h1 : b ≠ .active) (h2 : b ≠ .retiring) : openRefusal b = none := by
  cases b <;> simp_all [openRefusal]

theorem printable_iff (label : List Byte) :
    label.all printable = true ↔ ∀ c ∈ label, 0x20 ≤ c.toNat ∧ c.toNat ≤ 0x7E := by
  simp only [List.all_eq_true, printable, Bool.and_eq_true, decide_eq_true_eq]

theorem bankOpenArgs_label {b : Byte} {label : List Byte} (h : label.length ≤ 117) :
    bankOpenArgs? (b :: byteOf label.length :: label) = some (b, label) := by
  have hbyte : label.length = (byteOf label.length).toNat := by
    rw [byteOf, BitVec.toNat_ofNat]; omega
  exact if_pos hbyte

/-- R111: the bank's name and its label are tested first. -/
theorem bankOpenRule_range {b : Byte} {label : List Byte}
    (h : bankOf? b = none ∨ 16 < label.length ∨ label.all printable = false) :
    bankOpenRule (b, label) s = respond 0x06 .range [] s := by
  unfold bankOpenRule
  cases hb : bankOf? b with
  | none => rfl
  | some n => exact if_pos (h.resolve_left (by rw [hb]; simp))

theorem bankOpenRule_label {b : Byte} {label : List Byte} (hb : bankOf? b = some n) (hl : label.length ≤ 16)
    (hp : label.all printable = true) :
    bankOpenRule (b, label) s = decideReply 0x06 (openRefusal (bankState s n)) (quietly (openBank n label)) s := by
  unfold bankOpenRule
  dsimp only
  rw [hb]
  exact if_neg (by rw [hp]; simp [hl])

/-! ### BANK_CANCEL (R121) -/

theorem cancelBank_pending (h : (s.bank.get n).state = .pending) :
    (cancelBank n s).body = (setBank n { s.bank.get n with state := .ready, due := none } s).body := by
  unfold cancelBank
  rw [if_pos h, moveBank_body]
  cases n <;> rfl

theorem cancelBank_loading (h : (s.bank.get n).state = .loading) : (cancelBank n s).body =
    (setBank n { s.bank.get n with state := .empty, contents := BankContents.emptied } s).body := by
  unfold cancelBank
  rw [if_neg (by rw [h]; decide), moveBank_body]
  cases n <;> rfl

theorem cancelBank_tells : ∃ ns, Tells ns s (cancelBank n s) := by
  unfold cancelBank
  dsimp only
  split
  · exact ⟨_, .after moveBank_tells setBank_tells⟩
  · exact ⟨_, .after moveBank_tells setBank_tells⟩

theorem cancelBank_only : OnlyChanges [.bank] s (cancelBank n s) := by
  unfold cancelBank
  dsimp only
  split
  · exact setBank_only.step moveBank_only (List.Subset.refl _)
  · exact (setBank_only (s := s)).step moveBank_only (List.Subset.refl _)

theorem cancelRefusal_state {b : BankState} (h1 : b ≠ .pending) (h2 : b ≠ .loading) : cancelRefusal b = some .state := by
  cases b <;> simp_all [cancelRefusal]

theorem bankCancelRule_named {b : Byte} (hb : bankOf? b = some n) :
    bankCancelRule b s = decideReply 0x0E (cancelRefusal (bankState s n)) (quietly (cancelBank n)) s := by
  unfold bankCancelRule; rw [hb]

/-- R121: the end of an accepted cancellation. -/
theorem finish_bankCancelRule {b : Byte} (hb : bankOf? b = some n) (h : cancelRefusal (s.bank.get n).state = none) :
    Answered 0x8E [0] s (finish s (bankCancelRule b (s.took 0x0E)))
      ∧ (finish s (bankCancelRule b (s.took 0x0E))).body = (cancelBank n (s.took 0x0E)).body := by
  rw [bankCancelRule_named hb, decideReply_ok (refusal := cancelRefusal (bankState (s.took 0x0E) n)) h]
  obtain ⟨ns, htells⟩ := cancelBank_tells (n := n) (s := s.took 0x0E)
  obtain ⟨hanswered, -, hbody⟩ := finish_bankDone cancelBank_kept htells cancelBank_only
  exact ⟨hanswered, hbody⟩

/-! ### BANK_CLOSE (R117) -/

theorem hasMidnight_iff (l : List SwitchPoint) : hasMidnight l = true ↔ ∃ p ∈ l, p.minute = 0 := by
  simp only [hasMidnight, List.any_eq_true, beq_iff_eq]

theorem isSome_of_not_isNone {α : Type} {o : Option α} (h : ¬ o.isNone = true) : o.isSome = true := by
  cases o with
  | none => exact absurd rfl h
  | some _ => rfl

/-- R117: no entry of the table has an absent class. -/
theorem absentClassFrom_none (classes : List (Option Price)) (l : List TableEntry) (i : Nat) :
    absentClassFrom classes i l = none ↔ ∀ e ∈ l, (classes.getD e.cls none).isSome = true := by
  induction l generalizing i with
  | nil => simp [absentClassFrom]
  | cons e l ih =>
    rw [absentClassFrom, List.forall_mem_cons]
    split
    · next h =>
      rw [Option.isNone_iff_eq_none] at h
      exact ⟨nofun, fun hall => by rw [h] at hall; cases hall.1⟩
    · next h => rw [ih, and_iff_right (isSome_of_not_isNone h)]

/-- R117: the entry named is the first one whose class is absent. -/
theorem absentClassFrom_some {classes : List (Option Price)} {l : List TableEntry} {i : Nat} {f : CloseFault}
    (h : absentClassFrom classes i l = some f) : ∃ k e, f = ⟨1, i + k, some e.cls⟩ ∧ l[k]? = some e
      ∧ (classes.getD e.cls none).isNone = true
      ∧ ∀ j < k, ∀ x, l[j]? = some x → (classes.getD x.cls none).isSome = true := by
  induction l generalizing i with
  | nil => cases h
  | cons e l ih =>
    rw [absentClassFrom] at h
    split at h
    · next hnone =>
      cases h
      exact ⟨0, e, rfl, rfl, hnone, fun j hj => absurd hj (Nat.not_lt_zero j)⟩
    · next hsome =>
      obtain ⟨k, x, hf, hx, hnone, hbefore⟩ := ih h
      refine ⟨k + 1, x, by rw [hf, Nat.add_right_comm, Nat.add_assoc], hx, hnone, fun j hj y hy => ?_⟩
      cases j with
      | zero => cases hy; exact isSome_of_not_isNone hsome
      | succ j => exact hbefore j (Nat.lt_of_succ_lt_succ hj) y hy

/-- R117: the four tests, once every day type begins at midnight. -/
theorem closingFault_of_midnight {c : BankContents} (h : ∀ d, hasMidnight (c.points d) = true) : closingFault c =
    match absentClassFrom c.classes 0 c.table with
    | some f => some f
    | none => if c.defaultBand.isNone then some ⟨2, 0, none⟩ else if c.table.isEmpty then some ⟨3, 0, none⟩ else none := by
  have hw : hasMidnight c.workday = true := h .workday
  have hs : hasMidnight c.saturday = true := h .saturday
  have hh : hasMidnight c.sunday = true := h .sundayHoliday
  unfold closingFault; rw [hw, hs, hh]; rfl

/-- R117: a day type without a point at midnight is the first fault. -/
theorem closingFault_of_not_midnight {c : BankContents} (h : ¬ ∀ d, hasMidnight (c.points d) = true) :
    ∃ i, closingFault c = some ⟨0, i, none⟩ := by
  unfold closingFault
  split
  · exact ⟨0, rfl⟩
  · split
    · exact ⟨1, rfl⟩
    · split
      · exact ⟨2, rfl⟩
      · next hw hs hh =>
        simp only [Bool.not_eq_true', Bool.not_eq_false] at hw hs hh
        refine absurd (fun d => ?_) h
        cases d
        · exact hw
        · exact hs
        · exact hh

theorem closingFault_none (c : BankContents) :
    closingFault c = none ↔ (∀ d : DayType, ∃ p ∈ c.points d, p.minute = 0)
      ∧ (∀ e ∈ c.table, (c.classes.getD e.cls none).isSome = true) ∧ c.defaultBand.isSome = true ∧ c.table ≠ [] := by
  simp only [← hasMidnight_iff, ← absentClassFrom_none c.classes c.table 0]
  by_cases hm : ∀ d, hasMidnight (c.points d) = true
  · rw [closingFault_of_midnight hm, and_iff_right hm]
    cases absentClassFrom c.classes 0 c.table with
    | some f => simp
    | none => cases c.defaultBand <;> cases c.table <;> simp
  · obtain ⟨i, hi⟩ := closingFault_of_not_midnight hm
    rw [hi]
    exact ⟨nofun, fun h => absurd h.1 hm⟩

theorem closingFault_workday {c : BankContents} (h : ∀ p ∈ c.workday, p.minute ≠ 0) :
    closingFault c = some ⟨0, 0, none⟩ := by
  have hnone : hasMidnight c.workday = false := by
    rw [Bool.eq_false_iff, ne_eq, hasMidnight_iff]; exact fun ⟨p, hp, h0⟩ => h p hp h0
  unfold closingFault; rw [hnone]; rfl

theorem closingFault_class {c : BankContents} {f : CloseFault} (h : closingFault c = some f) (hk : f.kind = 1) :
    absentClassFrom c.classes 0 c.table = some f := by
  by_cases hm : ∀ d, hasMidnight (c.points d) = true
  · rw [closingFault_of_midnight hm] at h
    cases ha : absentClassFrom c.classes 0 c.table with
    | some g => rw [ha] at h; exact h
    | none =>
      rw [ha] at h
      dsimp only at h
      split at h
      · cases h; cases hk
      · split at h <;> cases h
        cases hk
  · obtain ⟨i, hi⟩ := closingFault_of_not_midnight hm
    rw [hi] at h; cases h; cases hk

theorem bankCloseRule_range {b : Byte} (h : bankOf? b = none) : bankCloseRule b s = respond 0x0C .range [] s := by
  unfold bankCloseRule; rw [h]

theorem bankCloseRule_state {b : Byte} (h : bankOf? b = some n) (hs : (s.bank.get n).state ≠ .loading) :
    bankCloseRule b s = respond 0x0C .state [] s := by
  unfold bankCloseRule; rw [h]; exact if_pos hs

theorem bankCloseRule_fault {b : Byte} {f : CloseFault} (h : bankOf? b = some n) (hs : (s.bank.get n).state = .loading)
    (hf : closingFault (s.bank.get n).contents = some f) :
    bankCloseRule b s = placeReply (replyKind 0x0C) (checkBytes f) s := by
  unfold bankCloseRule; rw [h]; dsimp only; rw [if_neg (fun h : bankState s n ≠ _ => h hs), hf]

theorem bankCloseRule_ok {b : Byte} (h : bankOf? b = some n) (hs : (s.bank.get n).state = .loading)
    (hf : closingFault (s.bank.get n).contents = none) :
    bankCloseRule b s = respond 0x0C .ok [] (moveBank n .ready .closed s) := by
  unfold bankCloseRule; rw [h]; dsimp only; rw [if_neg (fun h : bankState s n ≠ _ => h hs), hf]

end Sys2Proof.Machine

open Sys2Proof Sys2Proof.Machine

/-- Settles O26: the tests of R111 in their order, then `openBank`. -/
theorem bankOpenEmptiesForLoading : Obligations.BankOpenEmptiesForLoading := by
  intro b label s hlen h
  refine ⟨_, exec_owner (c := .bankOpen (b :: byteOf label.length :: label)) 0x06 bankOpenArgs? bankOpenRule rfl h
    (bankOpenArgs_label hlen), fun hr => ?_, fun n hb hl hp => ?_⟩
  · have hrange : bankOf? b = none ∨ 16 < label.length ∨ label.all printable = false := by
      refine hr.imp_right (Or.imp_right fun ⟨c, hc, hout⟩ => ?_)
      rw [Bool.eq_false_iff, ne_eq, printable_iff]
      intro hall
      have := hall c hc
      omega
    rw [bankOpenRule_range hrange]
    exact reports_respond 0x06 .range [] s
  · rw [bankOpenRule_label hb hl ((printable_iff label).2 hp)]
    refine ⟨fun hs => ?_, fun hs => ?_, fun h1 h2 => ?_⟩
    · rw [decideReply_refused (r := .state) (by rw [show bankState (s.took 0x06) n = .active from hs]; rfl)]
      exact reports_respond 0x06 .state [] s
    · rw [decideReply_refused (r := .busy) (by rw [show bankState (s.took 0x06) n = .retiring from hs]; rfl)]
      exact reports_respond 0x06 .busy [] s
    · rw [decideReply_ok (openRefusal_none (b := bankState (s.took 0x06) n) h1 h2)]
      have hdone : ∀ {ns}, Tells ns (s.took 0x06) (openBank n label (s.took 0x06)) → _ := fun htells =>
        finish_bankDone (k := 0x06) openBank_kept htells openBank_only
      obtain ⟨ns, htells⟩ : ∃ ns, Tells ns (s.took 0x06) (openBank n label (s.took 0x06)) := by
        by_cases hs : (s.bank.get n).state = .loading
        · exact ⟨_, openBank_tells_loading hs⟩
        · obtain ⟨p, htells⟩ := openBank_tells (s := s.took 0x06) (label := label) hs
          exact ⟨_, htells⟩
      obtain ⟨hanswered, -, hbody⟩ := hdone htells
      refine ⟨hanswered, hbody.trans (openBank_body ..), fun hs => (hdone (openBank_tells_loading hs)).2.1, fun hs => ?_⟩
      obtain ⟨p, htells⟩ := openBank_tells (s := s.took 0x06) (label := label) hs
      exact ⟨p, (hdone htells).2.1⟩

/-- Settles O29: the tests of R117 in their order; the closing check names the first fault. -/
theorem bankCloseMakesTheClosingCheck : Obligations.BankCloseMakesTheClosingCheck := by
  refine ⟨fun b s h => ⟨_, exec_owner (c := .bankClose [b]) 0x0C oneByte? bankCloseRule rfl h rfl, fun hb => ?_,
    fun n hb => ⟨fun hs => ?_, fun hs => ⟨fun f hf => ?_, fun hf => ?_⟩⟩⟩,
    fun c => ⟨closingFault_none c, closingFault_workday, fun f hf hk => ?_⟩⟩
  · rw [bankCloseRule_range hb]; exact reports_respond 0x0C .range [] s
  · rw [bankCloseRule_state (s := s.took 0x0C) hb hs]; exact reports_respond 0x0C .state [] s
  · rw [bankCloseRule_fault (s := s.took 0x0C) hb hs hf]
    exact finish_placeReply _ _ rfl rfl rfl rfl rfl rfl
  · rw [bankCloseRule_ok (s := s.took 0x0C) hb hs hf]
    obtain ⟨hanswered, hposted, hbody⟩ := finish_bankDone (s := s) (k := 0x0C) (moveBank_kept (n := n) (b := .ready)
      (c := .closed) (fun h => by cases h)) moveBank_tells moveBank_only
    rw [show ((s.took 0x0C).bank.get n).state = .loading from hs] at hposted
    exact ⟨hanswered, hposted, hbody.trans (moveBank_body ..)⟩
  · obtain ⟨k, e, rfl, he, hnone, hbefore⟩ := absentClassFrom_some (closingFault_class hf hk)
    simp only [Nat.zero_add]
    exact ⟨e, he, rfl, hnone, hbefore⟩

/-- Settles O31: the state of the bank decides what is withdrawn (`cancelBank_pending`, `cancelBank_loading`). -/
theorem bankCancelWithdraws : Obligations.BankCancelWithdraws := by
  intro b s h
  refine ⟨_, exec_owner (c := .bankCancel [b]) 0x0E oneByte? bankCancelRule rfl h rfl, fun hb => ?_,
    fun n hb => ⟨fun hs => ?_, fun hs => ?_, fun h1 h2 => ?_⟩⟩
  · rw [show bankCancelRule b (s.took 0x0E) = respond 0x0E .range [] (s.took 0x0E) from by
      unfold bankCancelRule; rw [hb]]
    exact reports_respond 0x0E .range [] s
  · obtain ⟨hanswered, hbody⟩ := finish_bankCancelRule hb (by rw [hs]; rfl)
    exact ⟨hanswered, hbody.trans (cancelBank_pending (s := s.took 0x0E) hs)⟩
  · obtain ⟨hanswered, hbody⟩ := finish_bankCancelRule hb (by rw [hs]; rfl)
    exact ⟨hanswered, hbody.trans (cancelBank_loading (s := s.took 0x0E) hs)⟩
  · rw [bankCancelRule_named hb, decideReply_refused (cancelRefusal_state (b := bankState (s.took 0x0E) n) h1 h2)]
    exact reports_respond 0x0E .state [] s

end

section
/-! The loaded tables (O28) and the activation of a bank (O30). -/

namespace Sys2Proof.Machine

variable {s t u v : State} {ns ms : List Notice} {n : BankName}

/-! ### Table order (R114) -/

theorem Symbol.code_injective : Function.Injective Symbol.code := by
  intro x y h
  cases x with
  | digit d =>
    cases y with
    | digit e => exact congrArg Symbol.digit (Fin.ext h)
    | star => exact absurd h (Nat.ne_of_lt d.isLt)
  | star =>
    cases y with
    | digit e => exact absurd h.symm (Nat.ne_of_lt e.isLt)
    | star => rfl

/-- R114: table order is the dictionary order of the symbols' codes. -/
theorem stringBefore_iff (a b : List Symbol) :
    stringBefore a b = true ↔ a.map Symbol.code < b.map Symbol.code := by
  induction a generalizing b with
  | nil => cases b <;> simp [stringBefore]
  | cons x a ih =>
    cases b with
    | nil => simp [stringBefore]
    | cons y b =>
      rw [stringBefore, List.map_cons, List.map_cons, List.cons_lt_cons_iff]
      split
      · next h => rw [ih]; simp [h]
      · next h => simp [h]

theorem stringBefore_trans {a b c : List Symbol} (hab : stringBefore a b = true) (hbc : stringBefore b c = true) :
    stringBefore a c = true := by
  rw [stringBefore_iff] at *; exact lt_trans hab hbc

theorem stringBefore_irrefl (a : List Symbol) : ¬ stringBefore a a = true := by
  rw [stringBefore_iff]; exact lt_irrefl _

theorem stringBefore_of_not {a b : List Symbol} (hne : a ≠ b) (h : ¬ stringBefore a b = true) :
    stringBefore b a = true := by
  rw [stringBefore_iff] at *
  exact lt_of_le_of_ne (not_lt.1 h) (fun he => hne (List.map_injective_iff.2 Symbol.code_injective he).symm)

theorem mem_putEntry_self (e : TableEntry) (l : List TableEntry) : e ∈ putEntry e l := by
  induction l with
  | nil => exact List.mem_singleton_self e
  | cons x l ih => rw [putEntry]; split_ifs <;> simp [ih]

theorem mem_putEntry_of_ne {e x : TableEntry} {l : List TableEntry} (h : x ∈ l) (hx : x.digits ≠ e.digits) :
    x ∈ putEntry e l := by
  induction l with
  | nil => cases h
  | cons y l ih =>
    rw [putEntry]
    rcases List.mem_cons.1 h with rfl | h
    · rw [if_neg hx]; split_ifs <;> simp
    · split_ifs
      · exact List.mem_cons_of_mem _ h
      · exact List.mem_cons_of_mem _ (List.mem_cons_of_mem _ h)
      · exact List.mem_cons_of_mem _ (ih h)

theorem mem_of_mem_putEntry {e x : TableEntry} {l : List TableEntry} (h : x ∈ putEntry e l) : x = e ∨ x ∈ l := by
  induction l with
  | nil => exact .inl (List.mem_singleton.1 h)
  | cons y l ih =>
    rw [putEntry] at h
    split_ifs at h
    · exact (List.mem_cons.1 h).imp_right (List.mem_cons_of_mem _)
    · exact List.mem_cons.1 h
    · rcases List.mem_cons.1 h with h | h
      · exact .inr (h ▸ List.mem_cons_self)
      · exact (ih h).imp_right (List.mem_cons_of_mem _)

theorem putEntry_ordered {e : TableEntry} {l : List TableEntry}
    (h : l.Pairwise (fun x y => stringBefore x.digits y.digits = true)) :
    (putEntry e l).Pairwise (fun x y => stringBefore x.digits y.digits = true) := by
  induction l with
  | nil => exact List.pairwise_singleton _ _
  | cons x l ih =>
    obtain ⟨hx, hl⟩ := List.pairwise_cons.1 h
    rw [putEntry]
    split_ifs with heq hlt
    · exact List.pairwise_cons.2 ⟨fun y hy => heq ▸ hx y hy, hl⟩
    · refine List.pairwise_cons.2 ⟨fun y hy => ?_, h⟩
      rcases List.mem_cons.1 hy with rfl | hy
      · exact hlt
      · exact stringBefore_trans hlt (hx y hy)
    · refine List.pairwise_cons.2 ⟨fun y hy => ?_, ih hl⟩
      rcases mem_of_mem_putEntry hy with rfl | hy
      · exact stringBefore_of_not (Ne.symm heq) hlt
      · exact hx y hy

theorem putEntry_length_le (e : TableEntry) (l : List TableEntry) : (putEntry e l).length ≤ l.length + 1 := by
  induction l with
  | nil => exact Nat.le_refl 1
  | cons x l ih => rw [putEntry]; split_ifs <;> simp [ih]

/-- R114: an entry whose digit string stands in the table already takes no further room. -/
theorem putEntry_length_of_any {e : TableEntry} {l : List TableEntry}
    (h : l.Pairwise (fun x y => stringBefore x.digits y.digits = true)) (hany : ∃ x ∈ l, x.digits = e.digits) :
    (putEntry e l).length = l.length := by
  induction l with
  | nil => obtain ⟨x, hx, -⟩ := hany; cases hx
  | cons x l ih =>
    obtain ⟨hx, hl⟩ := List.pairwise_cons.1 h
    obtain ⟨y, hy, heq⟩ := hany
    rw [putEntry]
    split_ifs with hxe hlt
    · rfl
    · rcases List.mem_cons.1 hy with rfl | hy
      · exact absurd heq hxe
      · exact absurd (stringBefore_trans hlt (heq ▸ hx y hy)) (stringBefore_irrefl _)
    · rcases List.mem_cons.1 hy with rfl | hy
      · exact absurd heq hxe
      · exact congrArg (· + 1) (ih hl ⟨y, hy, heq⟩)

/-! ### Switch points (R115) -/

theorem mem_putPoint_self (p : SwitchPoint) (l : List SwitchPoint) : p ∈ putPoint p l := by
  induction l with
  | nil => exact List.mem_singleton_self p
  | cons x l ih => rw [putPoint]; split_ifs <;> simp [ih]

theorem mem_putPoint_of_ne {p x : SwitchPoint} {l : List SwitchPoint} (h : x ∈ l) (hx : x.minute ≠ p.minute) :
    x ∈ putPoint p l := by
  induction l with
  | nil => cases h
  | cons y l ih =>
    rw [putPoint]
    rcases List.mem_cons.1 h with rfl | h
    · rw [if_neg hx]; split_ifs <;> simp
    · split_ifs
      · exact List.mem_cons_of_mem _ h
      · exact List.mem_cons_of_mem _ (List.mem_cons_of_mem _ h)
      · exact List.mem_cons_of_mem _ (ih h)

theorem mem_of_mem_putPoint {p x : SwitchPoint} {l : List SwitchPoint} (h : x ∈ putPoint p l) : x = p ∨ x ∈ l := by
  induction l with
  | nil => exact .inl (List.mem_singleton.1 h)
  | cons y l ih =>
    rw [putPoint] at h
    split_ifs at h
    · exact (List.mem_cons.1 h).imp_right (List.mem_cons_of_mem _)
    · exact List.mem_cons.1 h
    · rcases List.mem_cons.1 h with h | h
      · exact .inr (h ▸ List.mem_cons_self)
      · exact (ih h).imp_right (List.mem_cons_of_mem _)

theorem putPoint_ordered {p : SwitchPoint} {l : List SwitchPoint} (h : l.Pairwise (fun x y => x.minute < y.minute)) :
    (putPoint p l).Pairwise (fun x y => x.minute < y.minute) := by
  induction l with
  | nil => exact List.pairwise_singleton _ _
  | cons x l ih =>
    obtain ⟨hx, hl⟩ := List.pairwise_cons.1 h
    rw [putPoint]
    split_ifs with heq hlt
    · exact List.pairwise_cons.2 ⟨fun y hy => heq ▸ hx y hy, hl⟩
    · refine List.pairwise_cons.2 ⟨fun y hy => ?_, h⟩
      rcases List.mem_cons.1 hy with rfl | hy
      · exact hlt
      · exact Nat.lt_trans hlt (hx y hy)
    · refine List.pairwise_cons.2 ⟨fun y hy => ?_, ih hl⟩
      rcases mem_of_mem_putPoint hy with rfl | hy
      · omega
      · exact hx y hy

theorem putPoint_length_le (p : SwitchPoint) (l : List SwitchPoint) : (putPoint p l).length ≤ l.length + 1 := by
  induction l with
  | nil => exact Nat.le_refl 1
  | cons x l ih => rw [putPoint]; split_ifs <;> simp [ih]

theorem putPoint_length_of_any {p : SwitchPoint} {l : List SwitchPoint}
    (h : l.Pairwise (fun x y => x.minute < y.minute)) (hany : ∃ x ∈ l, x.minute = p.minute) :
    (putPoint p l).length = l.length := by
  induction l with
  | nil => obtain ⟨x, hx, -⟩ := hany; cases hx
  | cons x l ih =>
    obtain ⟨hx, hl⟩ := List.pairwise_cons.1 h
    obtain ⟨y, hy, heq⟩ := hany
    rw [putPoint]
    split_ifs with hxe hlt
    · rfl
    · rcases List.mem_cons.1 hy with rfl | hy
      · exact absurd heq hxe
      · have := hx y hy; omega
    · rcases List.mem_cons.1 hy with rfl | hy
      · exact absurd heq hxe
      · exact congrArg (· + 1) (ih hl ⟨y, hy, heq⟩)

/-! ### Holidays (R116) -/

theorem putHoliday_perm (h : Holiday) (l : List Holiday) : (putHoliday h l).Perm (h :: l) := by
  induction l with
  | nil => exact .refl _
  | cons x l ih =>
    rw [putHoliday]
    split_ifs
    · exact .refl _
    · exact (ih.cons x).trans (.swap h x l)

theorem putHoliday_ordered {h : Holiday} {l : List Holiday} (hl : l.Pairwise (fun x y => holidayRank x ≤ holidayRank y)) :
    (putHoliday h l).Pairwise (fun x y => holidayRank x ≤ holidayRank y) := by
  induction l with
  | nil => exact List.pairwise_singleton _ _
  | cons x l ih =>
    obtain ⟨hx, htail⟩ := List.pairwise_cons.1 hl
    rw [putHoliday]
    split_ifs with hlt
    · refine List.pairwise_cons.2 ⟨fun y hy => ?_, hl⟩
      rcases List.mem_cons.1 hy with rfl | hy
      · exact Nat.le_of_lt hlt
      · exact Nat.le_trans (Nat.le_of_lt hlt) (hx y hy)
    · refine List.pairwise_cons.2 ⟨fun y hy => ?_, ih htail⟩
      rcases List.mem_cons.1 ((putHoliday_perm h l).mem_iff.1 hy) with rfl | hy
      · exact Nat.not_lt.1 hlt
      · exact hx y hy

/-! ### An accepted item (R113 to R116) -/

theorem putClass_ok {c c' : BankContents} {cls : Nat} {b : List Byte} (h : putClass cls 1 b c = .ok c') :
    cls ≤ 31 ∧ priceInRange (priceOf b) = true ∧ c' = { c with classes := c.classes.set cls (some (priceOf b)) } := by
  unfold putClass at h
  split_ifs at h with h31 h0 hp
  · exact absurd h0 (by decide)
  · cases h; exact ⟨Nat.not_lt.1 h31, hp.2, rfl⟩

theorem priceInRange_iff (p : Price) : priceInRange p = true ↔ p.initial ≤ 65535 ∧ ∀ r ∈ p.rates, r ≤ 60000 := by
  simp only [priceInRange, Bool.and_eq_true, decide_eq_true_eq, List.all_eq_true]

theorem putTableEntry_ok {c c' : BankContents} {e : TableEntry} (h : putTableEntry (some e) c = .ok c') :
    ((∃ x ∈ c.table, x.digits = e.digits) ∨ c.table.length < 128) ∧ c' = { c with table := putEntry e c.table } := by
  unfold putTableEntry at h
  dsimp only at h
  split_ifs at h with hfull
  cases h
  refine ⟨?_, rfl⟩
  rw [← Bool.not_eq_true, List.any_eq_true] at hfull
  simp only [decide_eq_true_eq, not_and_or, not_not, Nat.not_le] at hfull
  exact hfull

theorem points_setPoints (c : BankContents) (d : DayType) (l : List SwitchPoint) : (c.setPoints d l).points d = l := by
  cases d <;> rfl

theorem putDayPoint_ok {c c' : BankContents} {d : DayType} {m band : Nat} (hb : band ≤ 3)
    (h : putDayPoint d m band c = .ok c') : m ≤ 1439
      ∧ ((∃ x ∈ c.points d, x.minute = m) ∨ (c.points d).length < 6)
      ∧ c'.points d = putPoint ⟨m, band⟩ (c.points d) := by
  unfold putDayPoint at h
  dsimp only at h
  have hdrop : band ≠ dropMark := by unfold dropMark; omega
  rw [if_neg hdrop, if_neg (show ¬ 3 < band by omega)] at h
  split_ifs at h with hm hfull
  cases h
  refine ⟨by omega, ?_, points_setPoints ..⟩
  rw [← Bool.not_eq_true, List.any_eq_true] at hfull
  simp only [beq_iff_eq, not_and_or, not_not, Nat.not_le] at hfull
  exact hfull

theorem putSchedule_default (m band : Nat) (c : BankContents) : putSchedule 3 m band c = putDefault m band c := rfl

theorem putDefault_drop {c c' : BankContents} {m band : Nat} (h : putDefault m band c = .ok c') (hb : band = 255) :
    m ≤ 1439 ∧ c' = { c with defaultBand := none } := by
  unfold putDefault dropMark at h
  rw [if_pos hb] at h
  split_ifs at h with hm
  cases h; exact ⟨by omega, rfl⟩

theorem putDefault_band {c c' : BankContents} {m band : Nat} (h : putDefault m band c = .ok c') (hb : band ≠ 255) :
    m = 0 ∧ band ≤ 3 ∧ c' = { c with defaultBand := some band } := by
  unfold putDefault dropMark at h
  rw [if_neg hb] at h
  split_ifs at h with hm hr
  cases h; exact ⟨by omega, by omega, rfl⟩

theorem putHolidayEntry_ok {c c' : BankContents} {month day : Nat} {mk : Byte} {y : Option Nat}
    (h : putHolidayEntry month day mk y c = .ok c') : ⟨month, day, y⟩ ∉ c.holidays ∧ c.holidays.length < 16
      ∧ c' = { c with holidays := putHoliday ⟨month, day, y⟩ c.holidays } := by
  unfold putHolidayEntry at h
  split_ifs at h with hr hold hfull
  cases h
  exact ⟨fun hin => hold (List.contains_iff_mem.2 hin), Nat.not_le.1 hfull, rfl⟩

end Sys2Proof.Machine

open Sys2Proof Sys2Proof.Machine

/-- Settles O28: each table's insertion keeps its order and its room. -/
theorem loadedTablesKeepOrderAndRoom : Obligations.LoadedTablesKeepOrderAndRoom := by
  refine ⟨fun c c' cls b hlen h => ?_, fun c c' e hord hlen h => ?_, fun c c' d m band hord hlen hb h => ?_,
    fun c c' m band h => ?_, fun c c' month day mk y hord hlen h => ?_⟩
  · obtain ⟨hcls, hprice, rfl⟩ := putClass_ok h
    obtain ⟨hinitial, hrates⟩ := (priceInRange_iff _).1 hprice
    refine ⟨hcls, rfl, ?_, hinitial, hrates⟩
    exact List.getElem?_set_self (by omega)
  · obtain ⟨hroom, rfl⟩ := putTableEntry_ok h
    refine ⟨putEntry_ordered hord, ?_, mem_putEntry_self e _, fun x hx hne => mem_putEntry_of_ne hx hne⟩
    rcases hroom with hany | hroom
    · exact (putEntry_length_of_any hord hany).trans_le hlen
    · exact (putEntry_length_le e c.table).trans hroom
  · obtain ⟨hm, hroom, hpoints⟩ := putDayPoint_ok hb h
    rw [hpoints]
    refine ⟨putPoint_ordered hord, ?_, hm, mem_putPoint_self _ _, fun x hx hne => mem_putPoint_of_ne hx hne⟩
    rcases hroom with hany | hroom
    · exact (putPoint_length_of_any hord hany).trans_le hlen
    · exact (putPoint_length_le _ _).trans hroom
  · rw [putSchedule_default] at h
    exact ⟨putDefault_drop h, putDefault_band h⟩
  · obtain ⟨hnew, hroom, rfl⟩ := putHolidayEntry_ok h
    have hperm := putHoliday_perm ⟨month, day, y⟩ c.holidays
    have hlength : (putHoliday ⟨month, day, y⟩ c.holidays).length = c.holidays.length + 1 := hperm.length_eq
    refine ⟨putHoliday_ordered hord, hlength, hlength.trans_le hroom, hperm.mem_iff.2 List.mem_cons_self, hnew,
      fun x hx => hperm.mem_iff.2 (List.mem_cons_of_mem _ hx)⟩

end

section
/-! The activation of a bank (O30). -/

namespace Sys2Proof.Machine

variable {s t u v : State} {ns ms : List Notice} {n : BankName} {w : When}

/-! ### What an activation makes of the banks (R119) -/

theorem displace_bank (n : BankName) (s : State) : (displace n s).bank = s.bank.set n { s.bank.get n with
    state := if (s.bank.get n).state = .active then (if s.bank.inUse n then .retiring else .ready)
      else (s.bank.get n).state } := by
  unfold displace
  split_ifs with h
  · rw [moveBank_bank]
  · rw [moveBank_bank]
  · cases n <;> rfl

theorem activated_activate (n : BankName) (s : State) : Activated n s (activate n s) := by
  unfold activate
  refine ⟨?_, ?_, ?_, ?_⟩ <;> rw [moveBank_bank] <;> dsimp only [setBank] <;> rw [displace_bank] <;> cases n <;> rfl

/-- The serial number given depends on the banks as they are before the pending bank has its instant. -/
theorem Activated.of_pending (h : Activated n u t) (hb : u.bank = s.bank.set n { s.bank.get n with
    state := .pending, due := some w }) : Activated n s t := by
  obtain ⟨hthis, hother, ha, hbu⟩ := h
  rw [hb] at hthis hother ha hbu
  cases n <;> exact ⟨hthis, hother, ha, hbu⟩

theorem displace_tells : Tells (if (s.bank.get n).state = .active then
    [⟨.bank, bankNotice n .active (if s.bank.inUse n then .retiring else .ready) (s.bank.get n).contents.label .displaced
      (s.bank.get n).due⟩] else []) s (displace n s) := by
  unfold displace
  by_cases h : (s.bank.get n).state = .active
  · rw [if_pos h, if_pos h]
    have htells := moveBank_tells (s := s) (n := n) (b := if s.bank.inUse n then .retiring else .ready) (c := .displaced)
    rwa [h] at htells
  · rw [if_neg h, if_neg h]; exact .refl

/-- R123: the notice of a bank that is set, then moved. -/
theorem moveBank_set_tells {left e : BankState} {c : BankCause} {b : Bank} (h : b.state = left) :
    Tells [⟨.bank, bankNotice n left e b.contents.label c b.due⟩] u (moveBank n e c (setBank n b u)) := by
  subst h
  have hmoved := moveBank_tells (s := setBank n b u) (n := n) (b := e) (c := c)
  rw [show (setBank n b u).bank.get n = b from BankBlock.get_set ..] at hmoved
  exact .after (ns := []) hmoved setBank_tells

/-- R119 step 4: the displaced bank's notice before the activated bank's. -/
theorem activate_tells (h : (s.bank.get n).state = .pending) : Tells (activationNotices n s) s (activate n s) := by
  have hdisplaced : (displace (otherBank n) s).bank.get n = s.bank.get n := by
    rw [displace_bank, BankBlock.get_other_set]
  have hmoved := moveBank_set_tells (n := n) (e := .active) (c := .activated) (u := displace (otherBank n) s)
    (b := { (displace (otherBank n) s).bank.get n with
      serial := max (displace (otherBank n) s).bank.a.serial (displace (otherBank n) s).bank.b.serial + 1, due := none })
    (left := .pending) ((congrArg Bank.state hdisplaced).trans h)
  rw [hdisplaced] at hmoved
  refine .after ?_ (displace_tells (n := otherBank n))
  unfold activate
  dsimp only
  rw [hdisplaced]
  exact hmoved

theorem activationReached_of_clock (h : t.store.clock = s.store.clock) (w : When) :
    activationReached t w = activationReached s w := by
  unfold activationReached; rw [h]

/-! ### BANK_ACTIVATE (R118, R124) -/

/-- The bank PENDING, before its area is written. -/
def madePending (n : BankName) (w : When) (s : State) : State :=
  moveBank n .pending .scheduled (setBank n { s.bank.get n with due := some w } s)

theorem scheduleBank_eq (n : BankName) (w : When) (s : State) :
    scheduleBank n w s = judgeActivation (writeBank n (madePending n w s)) := rfl

theorem writeBank_bank (n : BankName) (s : State) : (writeBank n s).bank = s.bank := rfl

theorem madePending_bank (n : BankName) (w : When) (s : State) :
    (madePending n w s).bank = s.bank.set n { s.bank.get n with state := .pending, due := some w } := by
  unfold madePending
  rw [moveBank_bank]
  cases n <;> rfl

theorem madePending_tells (h : (s.bank.get n).state = .ready) : Tells
    [⟨.bank, bankNotice n .ready .pending (s.bank.get n).contents.label .scheduled (some w)⟩] s (madePending n w s) := by
  have hmoved := moveBank_set_tells (n := n) (e := .pending) (c := .scheduled) (u := s)
    (b := { s.bank.get n with due := some w }) h
  exact hmoved

theorem writeBank_tells : Tells [] s (writeBank n s) := .of_same rfl rfl

theorem madePending_clock : (writeBank n (madePending n w s)).store.clock = s.store.clock :=
  ((((setBank_only (s := s)).step (moveBank_only (n := n)) (List.Subset.refl _)).step writeBank_only
    (List.nil_subset _)) .clock (by decide)).1

/-- R118: with the other bank not PENDING, the bank made PENDING is the one that is judged. -/
theorem pendingBank_madePending (h : (s.bank.get (otherBank n)).state ≠ .pending) :
    pendingBank (writeBank n (madePending n w s)) = some n := by
  unfold pendingBank
  rw [writeBank_bank, madePending_bank]
  cases n with
  | a => rfl
  | b => exact (if_neg h).trans rfl

theorem scheduleBank_judged (h : (s.bank.get (otherBank n)).state ≠ .pending) : scheduleBank n w s =
    if activationReached s w then activate n (writeBank n (madePending n w s))
    else writeBank n (madePending n w s) := by
  rw [scheduleBank_eq, judgeActivation_some (pendingBank_madePending h) (w := w)
    (by rw [writeBank_bank, madePending_bank, BankBlock.get_set]), activationReached_of_clock madePending_clock]

theorem activationNotices_madePending :
    activationNotices n (writeBank n (madePending n w s)) = activationNotices n s := by
  unfold activationNotices
  rw [writeBank_bank, madePending_bank]
  cases n <;> rfl

/-! ### The bank's area (R124, R178) -/

theorem moveBank_store {b : BankState} {c : BankCause} : (moveBank n b c s).store = s.store := by
  unfold moveBank; rw [post_eq]; rfl

theorem displace_store : (displace n s).store = s.store := by
  unfold displace; split
  · exact moveBank_store
  · rfl

theorem activate_store : (activate n s).store = s.store := by
  unfold activate; rw [moveBank_store]; exact displace_store

theorem changes_iff {α : Type} [DecidableEq α] (x : Area α) (c : α) : x.changes c = true ↔ ¬ x.Holds c :=
  decide_eq_true_iff

theorem pump_store (s : State) : (pump s).store = s.store := by
  unfold pump; split
  · rfl
  · split
    · rfl
    · split
      · rfl
      · split <;> rfl

theorem creditFollow_store (s0 s : State) : (creditFollow s0 s).store = s.store := by
  unfold creditFollow; split
  · rw [post_eq]
  · rfl

theorem rptFollow_store (s : State) : (rptFollow s).store = s.store := by
  unfold rptFollow; split
  · split <;> rfl
  · split <;> rfl
  · rfl

/-- R178: the areas at the end of a step, and which of them it has written. -/
theorem finish_areas (s0 s : State) : ∃ u, (finish s0 s).store.areas = writeAreas u ∧ u.store = s.store ∧ u.bank = s.bank :=
  ⟨creditFollow s0 (guardFollow (rptFollow s)), congrArg (fun x => x.areas) (pump_store (commit _)),
    (creditFollow_store ..).trans (rptFollow_store s),
    (same_of_body (creditFollow_body ..) .bank).trans (same_of_body (rptFollow_body s) .bank)⟩

/-- R124: what a loss of power in the write of the activation leaves of bank A's area. -/
theorem writeAreas_bankA {x : Area Bank} {b : Bank} (h : u.store.areas.bankA = x.write b) (hne : b ≠ u.bank.a) :
    AreaName.bankA ∈ (writeAreas u).written
      ∧ (tearArea (writeAreas u) .bankA).bankA.newest.map Copy.contents = some b := by
  have hchanges : u.store.areas.bankA.changes u.bank.a = true := by
    rw [changes_iff, h]
    intro hholds
    exact hne (Option.some.inj ((Area.write_holds x b).symm.trans hholds))
  have hmem : AreaName.bankA ∈ changedAreas u := by
    unfold changedAreas; simp [hchanges]
  refine ⟨?_, ?_⟩
  · show AreaName.bankA ∈ if changedAreas u = [] then _ else _
    rw [if_neg (List.ne_nil_of_mem hmem)]; exact hmem
  · show ((u.store.areas.bankA.write u.bank.a).tear).newest.map Copy.contents = some b
    rw [h]; exact Area.tear_second_write x b _ hne

theorem writeAreas_bankB {x : Area Bank} {b : Bank} (h : u.store.areas.bankB = x.write b) (hne : b ≠ u.bank.b) :
    AreaName.bankB ∈ (writeAreas u).written
      ∧ (tearArea (writeAreas u) .bankB).bankB.newest.map Copy.contents = some b := by
  have hchanges : u.store.areas.bankB.changes u.bank.b = true := by
    rw [changes_iff, h]
    intro hholds
    exact hne (Option.some.inj ((Area.write_holds x b).symm.trans hholds))
  have hmem : AreaName.bankB ∈ changedAreas u := by
    unfold changedAreas; simp [hchanges]
  refine ⟨?_, ?_⟩
  · show AreaName.bankB ∈ if changedAreas u = [] then _ else _
    rw [if_neg (List.ne_nil_of_mem hmem)]; exact hmem
  · show ((u.store.areas.bankB.write u.bank.b).tear).newest.map Copy.contents = some b
    rw [h]; exact Area.tear_second_write x b _ hne

/-- R124: the areas after an activation at the command itself. -/
theorem activatedAreas (n : BankName) (w : When) (s s0 : State) (k : Byte) :
    let t := finish s0 (respond k .ok [] (activate n (writeBank n (madePending n w s))))
    (n = .a → AreaName.bankA ∈ t.store.areas.written
        ∧ (tearArea t.store.areas .bankA).bankA.newest.map Copy.contents
            = some { s.bank.a with state := .pending, due := some w })
      ∧ (n = .b → AreaName.bankB ∈ t.store.areas.written
        ∧ (tearArea t.store.areas .bankB).bankB.newest.map Copy.contents
            = some { s.bank.b with state := .pending, due := some w }) := by
  intro t
  obtain ⟨u, hareas, hstore, hbank⟩ := finish_areas s0 (respond k .ok [] (activate n (writeBank n (madePending n w s))))
  have hactive : (u.bank.get n).state = .active := by rw [hbank]; exact activate_state ..
  have hwritten : u.store = (writeBank n (madePending n w s)).store := hstore.trans activate_store
  rw [hareas]
  refine ⟨fun hn => ?_, fun hn => ?_⟩
  · subst hn
    refine writeAreas_bankA (x := (madePending .a w s).store.areas.bankA) ?_ fun he => ?_
    · rw [hwritten]
      refine congrArg (madePending .a w s).store.areas.bankA.write ?_
      rw [madePending_bank]; rfl
    · have : (u.bank.get .a).state = .pending := by rw [show u.bank.get .a = u.bank.a from rfl, ← he]
      rw [hactive] at this; cases this
  · subst hn
    refine writeAreas_bankB (x := (madePending .b w s).store.areas.bankB) ?_ fun he => ?_
    · rw [hwritten]
      refine congrArg (madePending .b w s).store.areas.bankB.write ?_
      rw [madePending_bank]; rfl
    · have : (u.bank.get .b).state = .pending := by rw [show u.bank.get .b = u.bank.b from rfl, ← he]
      rw [hactive] at this; cases this

theorem bankActivateRule_named {b : Byte} {m : Nat} (hb : bankOf? b = some n) (hw : whenOf? m = some w) :
    bankActivateRule (b, m) s = decideReply 0x0D (activateRefusal (bankState s n) (bankState s (otherBank n)))
      (quietly (scheduleBank n w)) s := by
  unfold bankActivateRule; dsimp only; rw [hb, hw]

theorem activateRefusal_state {b c : BankState} (h : b ≠ .ready) : activateRefusal b c = some .state := by
  cases b <;> simp_all [activateRefusal]

theorem activateArgs_of_length {b : Byte} {p : List Byte} (h : p.length = 4) : activateArgs? (b :: p) = some (b, ofLe p) :=
  if_pos h

end Sys2Proof.Machine

open Sys2Proof Sys2Proof.Machine

/-- Settles O30: an accepted BANK_ACTIVATE is `scheduleBank`; the activation instant is `activate`. -/
theorem bankActivateSchedulesOrActivates : Obligations.BankActivateSchedulesOrActivates := by
  refine ⟨fun b p n w s hp hb hw h => ⟨_, exec_owner (c := .bankActivate (b :: p)) 0x0D activateArgs? bankActivateRule
    rfl h (activateArgs_of_length hp), ?_⟩, fun n w s ha hn hw => ?_⟩
  · rw [bankActivateRule_named hb hw]
    refine ⟨fun hs => ?_, fun hs ho => ?_, fun hs ho => ?_⟩
    · rw [decideReply_refused (activateRefusal_state (b := bankState (s.took 0x0D) n) hs)]
      exact reports_respond 0x0D .state [] s
    · rw [decideReply_refused (r := .busy) (by
        rw [show bankState (s.took 0x0D) n = .ready from hs]; exact if_pos ho)]
      exact reports_respond 0x0D .busy [] s
    · rw [decideReply_ok (refusal := activateRefusal (bankState (s.took 0x0D) n) _) (by
        rw [show bankState (s.took 0x0D) n = .ready from hs]; exact if_neg ho)]
      dsimp only [quietly]
      have hdone : ∀ {ns}, Tells ns (s.took 0x0D) (scheduleBank n w (s.took 0x0D)) → _ := fun htells =>
        finish_bankDone (k := 0x0D) scheduleBank_kept htells scheduleBank_only
      have hjudged := scheduleBank_judged (s := s.took 0x0D) (w := w) ho
      have hpending : Tells _ (s.took 0x0D) (writeBank n (madePending n w (s.took 0x0D))) :=
        .after (ms := []) writeBank_tells (madePending_tells hs)
      rw [List.append_nil] at hpending
      refine ⟨?_, only_replied scheduleBank_only, fun hreached => ?_, fun hreached => ?_⟩
      · exact finish_answered _ _ _ _ _
          (congrArg LinkBlock.tx ((scheduleBank_kept (wired := True)).wires trivial) :) rfl rfl
      · have hnot : activationReached (s.took 0x0D) w = false := hreached
        rw [hnot, if_neg Bool.false_ne_true] at hjudged
        refine ⟨?_, (hdone (by rw [hjudged]; exact hpending)).2.1⟩
        rw [finish_bank, hjudged]
        exact madePending_bank ..
      · have hdue : activationReached (s.took 0x0D) w = true := hreached
        rw [hdue, if_pos rfl] at hjudged
        have hactivated := activate_tells (s := writeBank n (madePending n w (s.took 0x0D))) (n := n) (by
          rw [writeBank_bank, madePending_bank, BankBlock.get_set])
        rw [activationNotices_madePending] at hactivated
        obtain ⟨hareaA, hareaB⟩ := activatedAreas n w (s.took 0x0D) s 0x0D
        refine ⟨?_, ?_, ?_, (hdone (by rw [hjudged]; exact hpending.trans hactivated)).2.1⟩
        · have hbanks := (activated_activate n (writeBank n (madePending n w (s.took 0x0D)))).of_pending
            (madePending_bank ..)
          unfold Activated
          rw [finish_bank, hjudged]
          exact hbanks
        · rw [hjudged]; exact hareaA
        · rw [hjudged]; exact hareaB
  · have hkept : Kept True s (judgeActivation s) := judgeActivation_kept
    have hjudged := judgeActivation_some hn hw
    refine ⟨_, congrArg Host.Outcome.next (stepAlive_of_alive judgeActivation ha), linkKept_of_kept hkept,
      only_finish judgeActivation_only, fun hreached => ?_, fun hreached => ?_⟩
    · rw [hreached, if_pos rfl] at hjudged
      rw [hjudged]
      refine ⟨?_, (activate_tells (pendingBank_state hn)).posted ?_ (congrArg RateBlock.phase
        (activate_only .rate (by decide))).symm (creditKey_bank activate_only)⟩
      · have hbanks := activated_activate n s
        unfold Activated
        rw [finish_bank]
        exact hbanks
      · exact (congrArg LinkBlock.tx ((activate_kept (wired := True)).wires trivial) :)
    · rw [hreached, if_neg Bool.false_ne_true] at hjudged
      rw [hjudged]
      exact ⟨finish_body _ _, finish_posted _ _ _ _ rfl rfl rfl rfl rfl⟩

end

section
/-! The log and the incident map under the host's commands (O32, O33). -/

namespace Sys2Proof.Machine

variable {s t u v : State} {ns ms : List Notice}

/-- R190: an accepted command whose effect is on none of RATE, CALL and COIN. -/
theorem finish_effect {l : List Part} {k : Byte} {b : List Byte} (hl : Kept True (s.took k) v)
    (hn : Tells ns (s.took k) v) (ho : OnlyChanges l (s.took k) v) (hcredit : ∀ p ∈ [Part.rate, .call, .coin], p ∉ l) :
    Answered (replyKind k) (0 :: b) s (finish s (respond k .ok b v)) ∧ Posted ns s (finish s (respond k .ok b v))
      ∧ (finish s (respond k .ok b v)).body = v.body :=
  finish_done hl hn (congrArg RateBlock.phase (ho .rate (hcredit _ (by decide)))).symm (creditKey_of_only ho hcredit)

/-! ### Records stored, delivered and released (R174, R175, R177) -/

/-- The state with this log. -/
def withLog (g : LogArea) (s : State) : State := { s with store := { s.store with log := g } }

theorem setLog_body (g : LogArea) (s : State) : (setLog g s).body = (withLog g s).body := by
  unfold setLog; dsimp only; split
  · rfl
  · exact post_body ..

/-- R175: a change of level posts LOG. -/
theorem setLog_tells (g : LogArea) (s : State) :
    Tells (if logLevel g.records.length = logLevel s.store.log.records.length then [] else [⟨.log, logNotice g⟩]) s
      (setLog g s) := by
  have hsame : Tells [] s (withLog g s) := .of_same rfl rfl
  unfold setLog
  by_cases h : logLevel g.records.length = logLevel s.store.log.records.length
  · rw [if_pos h]; dsimp only; rw [if_pos h]; exact hsame
  · rw [if_neg h]; dsimp only; rw [if_neg h]; exact .after (ns := []) (tells_post .log _ _) hsame

theorem storeRecord_stored (r : CallRecord) (h : s.store.log.records.length < 64) :
    (storeRecord r s).2 = some s.store.log.nextSeq ∧ (storeRecord r s).1.body = (withLog { s.store.log with
      records := s.store.log.records ++ [{ r with seq := s.store.log.nextSeq }]
      nextSeq := nextSeq s.store.log.nextSeq } s).body := by
  unfold storeRecord
  rw [if_pos h]
  exact ⟨rfl, (post_body ..).trans (setLog_body ..)⟩

theorem storeRecord_unlogged (r : CallRecord) (h : 64 ≤ s.store.log.records.length) :
    storeRecord r s = (post .callEnd (callEndUnlogged r)
      (postLog (withLog { s.store.log with unlogged := min 255 (s.store.log.unlogged + 1) } s)), none) := by
  unfold storeRecord
  rw [if_neg (Nat.not_lt.2 h)]; rfl

/-- R17, R174: LOG, then the record whole. -/
theorem unlogged_tells (r : CallRecord) (s : State) :
    let g := { s.store.log with unlogged := min 255 (s.store.log.unlogged + 1) }
    Tells [⟨.log, logNotice g⟩, ⟨.callEnd, callEndUnlogged r⟩] s
      (post .callEnd (callEndUnlogged r) (postLog (withLog g s))) :=
  .after (ns := [_]) (tells_post ..) (.after (ns := []) (tells_post ..) (.of_same rfl rfl))

theorem recordsFrom_none {n : Nat} {l : List CallRecord} (h : ∀ r ∈ l, r.seq ≠ n) : recordsFrom n l = [] := by
  induction l with
  | nil => rfl
  | cons r l ih =>
    rw [recordsFrom, if_neg (h r List.mem_cons_self)]
    exact ih fun x hx => h x (List.mem_cons_of_mem _ hx)

theorem recordsFrom_append {n : Nat} {before rest : List CallRecord} {r : CallRecord} (h : ∀ q ∈ before, q.seq ≠ n)
    (hr : r.seq = n) : recordsFrom n (before ++ r :: rest) = r :: rest := by
  induction before with
  | nil => exact if_pos hr
  | cons q before ih =>
    rw [List.cons_append, recordsFrom, if_neg (h q List.mem_cons_self)]
    exact ih fun x hx => h x (List.mem_cons_of_mem _ hx)

theorem logReleaseRule_none {n : Nat} (h : ∀ r ∈ s.store.log.records, r.seq ≠ n) :
    logReleaseRule n s = respond 0x12 .none [] s := by
  refine decideReply_refused ?_
  rw [recordsFrom_none h]; rfl

theorem logReleaseRule_held {n : Nat} {before rest : List CallRecord} {r : CallRecord}
    (hl : s.store.log.records = before ++ r :: rest) (hr : r.seq = n) (h : ∀ q ∈ before, q.seq ≠ n) :
    logReleaseRule n s = respond 0x12 .ok (le1 (before.length + 1) ++ le1 rest.length ++ le1 s.store.log.unlogged)
      (setLog { s.store.log with records := rest, unlogged := 0 } s) := by
  have hfrom : recordsFrom n s.store.log.records = r :: rest := by rw [hl]; exact recordsFrom_append h hr
  have hafter : recordsAfter n s.store.log.records = rest := by rw [recordsAfter, hfrom]; rfl
  have hgone : s.store.log.records.length - rest.length = before.length + 1 := by
    rw [hl, List.length_append, List.length_cons]; omega
  unfold logReleaseRule
  rw [decideReply_ok (by rw [hfrom]; rfl)]
  unfold releaseLog
  dsimp only
  rw [hafter, hgone]

/-! ### INCIDENT_CLEAR (R152) -/

theorem kindOf_none {n : Nat} (h : n = 0 ∨ 12 < n) : kindOf? n = none := by
  rcases h with rfl | h
  · rfl
  · obtain ⟨m, rfl⟩ := Nat.exists_eq_add_of_lt h
    rw [show 12 + m + 1 = m + 13 from by omega]; rfl

/-- Whatever byte names ALL, it is that of no kind. -/
theorem kindOf_incidentAllByte : kindOf? incidentAllByte.toNat = none := by
  refine kindOf_none ?_
  unfold incidentAllByte
  split
  · exact .inl rfl
  · have := Config.incidentAllCode.isLt
    refine .inr ?_
    rw [byteOf, BitVec.toNat_ofNat]; omega

theorem incidentScope_all : incidentScope? incidentAllByte = some none := by
  unfold incidentScope?; rw [kindOf_incidentAllByte]; exact if_pos rfl

theorem insertReport_perm (e : Incident) (l : List Incident) : (insertReport e l).Perm (e :: l) := by
  induction l with
  | nil => exact .refl _
  | cons x l ih =>
    rw [insertReport]
    split
    · exact .refl _
    · exact (ih.cons x).trans (.swap e x l)

/-- R149: the reporting order holds the map's entries, each once. -/
theorem reportingOrder_perm (m : List Incident) : (reportingOrder m).Perm m := by
  induction m with
  | nil => exact .refl _
  | cons e m ih => exact (insertReport_perm e _).trans (ih.cons e)

/-- R138: one entry a kind. -/
theorem MapWf.unique {m : List Incident} (h : MapWf m) {d e : Incident} (hd : d ∈ m) (he : e ∈ m)
    (hk : d.kind = e.kind) : d = e := by
  have hkinds : m.Pairwise (fun a b => a.kind ≠ b.kind) :=
    h.1.imp fun {a b} hlt heq => by rw [heq] at hlt; exact Nat.lt_irrefl _ hlt
  have : Std.Symm (fun a b : Incident => a.kind ≠ b.kind) := ⟨fun _ _ hab => hab.symm⟩
  by_contra hne
  exact hkinds.forall hd he hne hk

theorem findIncident_none {k : IncidentKind} {m : List Incident} (h : ∀ e ∈ m, e.kind ≠ k) : findIncident k m = none :=
  List.find?_eq_none.2 fun e he => by simpa using h e he

theorem findIncident_of_mem {m : List Incident} (h : MapWf m) {e : Incident} (he : e ∈ m) :
    findIncident e.kind m = some e := by
  cases hf : findIncident e.kind m with
  | none => exact absurd (decide_eq_true rfl) (List.find?_eq_none.1 hf e he)
  | some d =>
    obtain ⟨hd, hk⟩ := findIncident_mem hf
    rw [h.unique hd he hk]

theorem clearEntry_tells (e : Incident) (s : State) :
    Tells [⟨.incident, incidentNotice e .cleared⟩] s (clearEntry e s) :=
  .after (ns := []) (tells_post ..) (.of_same rfl rfl)

theorem clearEntry_body (e : Incident) (s : State) :
    (clearEntry e s).body = (setMap (removeIncident e.kind s.incd.map) s).body := post_body ..

theorem clearEntry_only {e : Incident} : OnlyChanges [.incd] s (clearEntry e s) := only_post setMap_only

theorem clearEntry_map (e : Incident) (s : State) : (clearEntry e s).incd.map = removeIncident e.kind s.incd.map :=
  (congrArg (fun x : State => x.incd.map) (clearEntry_body e s) :)

theorem clearEntries_tells (l : List Incident) : ∀ s : State,
    Tells (l.map fun e => ⟨.incident, incidentNotice e .cleared⟩) s (l.foldl (fun t e => clearEntry e t) s) := by
  induction l with
  | nil => exact fun _ => .refl
  | cons e l ih => exact fun s => .after (ns := [_]) (ih _) (clearEntry_tells e s)

theorem clearEntries_only (l : List Incident) : ∀ s : State,
    OnlyChanges [.incd] s (l.foldl (fun t e => clearEntry e t) s) := by
  induction l with
  | nil => exact fun _ => .refl
  | cons e l ih => exact fun s => (clearEntry_only (e := e)).step (ih _) (List.Subset.refl _)

theorem setMap_body {m : List Incident} (h : t.body = s.body) : (setMap m t).body = (setMap m s).body :=
  (congrArg (setMap m) h :)

/-- R152: the kinds named leave the map, and nothing else changes. -/
theorem clearEntries_body (l : List Incident) : ∀ s : State, (l.foldl (fun t e => clearEntry e t) s).body =
    (setMap (s.incd.map.filter fun x => decide (∀ e ∈ l, x.kind ≠ e.kind)) s).body := by
  induction l with
  | nil =>
    intro s
    rw [List.filter_eq_self.2 (by simp)]; rfl
  | cons e l ih =>
    intro s
    rw [List.foldl_cons, ih, clearEntry_map, removeIncident, List.filter_filter]
    refine Eq.trans (setMap_body (clearEntry_body e s)) ?_
    have hfilter : ∀ x : Incident, (decide (∀ d ∈ l, x.kind ≠ d.kind) && decide (x.kind ≠ e.kind))
        = decide (∀ d ∈ e :: l, x.kind ≠ d.kind) := fun x => by
      rw [Bool.eq_iff_iff, Bool.and_eq_true, decide_eq_true_iff, decide_eq_true_iff, decide_eq_true_iff,
        List.forall_mem_cons, and_comm]
    rw [List.filter_congr fun x _ => hfilter x]; rfl

/-- R152: what ALL removes: the inactive entries. -/
theorem filter_not_inactive {m : List Incident} (h : MapWf m) :
    m.filter (fun x : Incident => decide (∀ e ∈ (reportingOrder m).filter (fun e : Incident => !e.active), x.kind ≠ e.kind))
      = m.filter Incident.active := by
  refine List.filter_congr fun (x : Incident) hx => ?_
  rw [Bool.eq_iff_iff, decide_eq_true_iff]
  refine ⟨fun hall => ?_, fun hact e he hk => ?_⟩
  · by_contra hact
    refine hall x (List.mem_filter.2 ⟨(reportingOrder_perm m).mem_iff.2 hx, ?_⟩) rfl
    rw [Bool.not_eq_true] at hact; rw [hact]; rfl
  · obtain ⟨hmem, hin⟩ := List.mem_filter.1 he
    rw [← h.unique hx ((reportingOrder_perm m).mem_iff.1 hmem) hk, hact] at hin
    cases hin

theorem inactive_length (m : List Incident) :
    ((reportingOrder m).filter (fun e => !e.active)).length = (m.filter (fun e => !e.active)).length :=
  ((reportingOrder_perm m).filter _).length_eq

theorem active_length (m : List Incident) :
    m.length - (m.filter (fun e => !e.active)).length = (m.filter Incident.active).length := by
  have hsum := List.length_eq_length_filter_add (l := m) Incident.active
  omega

theorem incidentClearRule_range {b : Byte} (h : incidentScope? b = none) :
    incidentClearRule b s = respond 0x14 .range [] s := by
  unfold incidentClearRule; rw [h]

theorem incidentClearRule_service {b : Byte} (h : incidentScope? b ≠ none) (hs : s.vault.service ≠ .service) :
    incidentClearRule b s = respond 0x14 .service [] s := by
  obtain ⟨scope, hscope⟩ := Option.ne_none_iff_exists'.1 h
  unfold incidentClearRule; rw [hscope]
  exact if_pos (by rw [outsideService_eq]; exact decide_eq_true hs)

theorem not_outsideService (h : s.vault.service = .service) : outsideService s = false := by
  rw [outsideService_eq]; exact decide_eq_false (not_not.2 h)

theorem incidentClearRule_one {b : Byte} {k : IncidentKind} (h : incidentScope? b = some (some k))
    (hs : s.vault.service = .service) : incidentClearRule b s = clearOne k s := by
  unfold incidentClearRule; rw [h]; dsimp only; rw [not_outsideService hs, if_neg Bool.false_ne_true]

theorem incidentClearRule_all (hs : s.vault.service = .service) :
    incidentClearRule incidentAllByte s = respond 0x14 .ok (clearAll s).2 (clearAll s).1 := by
  unfold incidentClearRule; rw [incidentScope_all]; dsimp only; rw [not_outsideService hs, if_neg Bool.false_ne_true]; rfl

theorem clearOne_absent {k : IncidentKind} (h : ∀ e ∈ s.incd.map, e.kind ≠ k) :
    clearOne k s = respond 0x14 .none [] s := by
  unfold clearOne; rw [findIncident_none h]

theorem clearOne_active {e : Incident} (hwf : MapWf s.incd.map) (he : e ∈ s.incd.map) (ha : e.active = true) :
    clearOne e.kind s = respond 0x14 .state [] s := by
  unfold clearOne; rw [findIncident_of_mem hwf he]; exact if_pos ha

theorem clearOne_inactive {e : Incident} (hwf : MapWf s.incd.map) (he : e ∈ s.incd.map) (ha : e.active = false) :
    clearOne e.kind s = respond 0x14 .ok [] (clearEntry e s) := by
  unfold clearOne; rw [findIncident_of_mem hwf he]; dsimp only; rw [ha, if_neg Bool.false_ne_true]

end Sys2Proof.Machine

open Sys2Proof Sys2Proof.Machine

/-- Settles O32: `storeRecord`'s two cases, and LOG_RELEASE's search for the number carried. -/
theorem logStoresDeliversAndReleases : Obligations.LogStoresDeliversAndReleases := by
  refine ⟨fun r s => ⟨storeRecord_stored r, fun h => ?_⟩, fun p s hp h => ⟨_,
    exec_owner (c := .logRelease p) 0x12 fourBytes? logReleaseRule rfl h (fourBytes_of_length hp), fun hnone => ?_,
    fun before r rest hl hr hbefore => ?_⟩⟩
  · rw [storeRecord_unlogged r h]
    exact ⟨rfl, (post_body ..).trans (post_body ..), (unlogged_tells r s).notices⟩
  · rw [logReleaseRule_none (s := s.took 0x12) hnone]
    exact reports_respond 0x12 .none [] s
  · rw [logReleaseRule_held (s := s.took 0x12) hl hr hbefore]
    have hsuffix : rest <:+ s.store.log.records := ⟨before ++ [r], by rw [hl, List.append_assoc]; rfl⟩
    have hkept : Kept True (s.took 0x12) (setLog { s.store.log with records := rest, unlogged := 0 } (s.took 0x12)) :=
      setLog_kept fun ⟨h64, hchain, hrange⟩ => ⟨hsuffix.length_le.trans h64, seqChain_suffix hchain hsuffix, hrange⟩
    obtain ⟨hanswered, hposted, hbody⟩ := finish_effect (s := s) (k := 0x12)
      (b := le1 (before.length + 1) ++ le1 rest.length ++ le1 s.store.log.unlogged) hkept (setLog_tells _ _) setLog_only
      (by decide)
    exact ⟨hanswered, hbody.trans (setLog_body ..), hposted⟩

/-- Settles O33: the tests of R152 in their order; ALL goes through the inactive entries in the reporting order. -/
theorem incidentClearRemovesInactiveEntries : Obligations.IncidentClearRemovesInactiveEntries := by
  intro b s hwf h
  refine ⟨_, exec_owner (c := .incidentClear [b]) 0x14 oneByte? incidentClearRule rfl h rfl, fun hscope => ?_,
    fun hscope hs => ?_, fun k hscope hs => ?_, fun hall hs => ?_⟩
  · rw [incidentClearRule_range hscope]; exact reports_respond 0x14 .range [] s
  · rw [incidentClearRule_service (s := s.took 0x14) hscope hs]; exact reports_respond 0x14 .service [] s
  · rw [incidentClearRule_one (s := s.took 0x14) hscope hs]
    refine ⟨fun hnone => ?_, fun e he hk => ⟨fun ha => ?_, fun ha => ?_⟩⟩
    · rw [clearOne_absent (s := s.took 0x14) hnone]; exact reports_respond 0x14 .none [] s
    · subst hk
      rw [clearOne_active (s := s.took 0x14) hwf he ha]; exact reports_respond 0x14 .state [] s
    · subst hk
      rw [clearOne_inactive (s := s.took 0x14) hwf he ha]
      obtain ⟨hanswered, hposted, hbody⟩ := finish_effect (s := s) (k := 0x14) (b := [])
        (clearEntry_kept (s := s.took 0x14) (e := e)) (clearEntry_tells e _) clearEntry_only (by decide)
      exact ⟨hanswered, hposted, hbody.trans (clearEntry_body ..)⟩
  · subst hall
    rw [incidentClearRule_all (s := s.took 0x14) hs]
    obtain ⟨hanswered, hposted, hbody⟩ := finish_effect (s := s) (k := 0x14) (b := (clearAll (s.took 0x14)).2)
      (clearEntries_kept _ _) (clearEntries_tells _ (s.took 0x14)) (clearEntries_only _ _) (by decide)
    have hreply : 0 :: (clearAll (s.took 0x14)).2 = [0] ++ le1 (s.incd.map.filter (fun e => !e.active)).length
        ++ le1 (s.incd.map.filter Incident.active).length := by
      unfold clearAll; dsimp only; rw [inactive_length, active_length, List.append_assoc]; rfl
    rw [← hreply]
    refine ⟨hanswered, hbody.trans ?_, hposted⟩
    rw [clearEntries_body, show (s.took 0x14).incd.map = s.incd.map from rfl, filter_not_inactive hwf]; rfl

end

section
/-! ACTUATE: blind strokes and restores (O36). -/

namespace Sys2Proof.Machine

variable {s t u v : State} {ns ms : List Notice}

/-! ### The end of a condition (R145) -/

/-- R145: the end of a condition reads the map alone. -/
theorem clearActive_incd {k : IncidentKind} {c : IncidentCause} (h : t.incd = s.incd) :
    (clearActive k c t).incd = (clearActive k c s).incd := by
  have hsettle : ∀ e d, (settleEntry e d t).incd = (settleEntry e d s).incd := fun e d => by
    unfold settleEntry postIncident
    split
    · rw [post_eq, post_eq]; dsimp only [setMap]; rw [h]
    · rw [post_eq, post_eq]; dsimp only [setMap]; rw [h]
  unfold clearActive
  rw [h]
  cases findIncident k s.incd.map with
  | none => exact h
  | some e =>
    dsimp only
    split
    · exact hsettle _ _
    · exact h

theorem settleEntry_body (e : Incident) (c : IncidentCause) (s : State) :
    (settleEntry e c s).body = { s with incd := (settleEntry e c s).incd }.body := by
  unfold settleEntry postIncident
  split
  · rw [post_eq]; rfl
  · rw [post_eq]; rfl

theorem clearActive_body (k : IncidentKind) (c : IncidentCause) (s : State) :
    (clearActive k c s).body = { s with incd := (clearActive k c s).incd }.body := by
  unfold clearActive
  cases findIncident k s.incd.map with
  | none => rfl
  | some e =>
    dsimp only
    split
    · exact settleEntry_body _ _ _
    · rfl

theorem endCondition_body (k : IncidentKind) (s : State) :
    (endCondition k s).body = { s with incd := (endCondition k s).incd }.body := clearActive_body k .ended s

theorem endCondition_incd {k : IncidentKind} (h : t.incd = s.incd) : (endCondition k t).incd = (endCondition k s).incd :=
  clearActive_incd h

theorem endCondition_body_of {k : IncidentKind} (h : t.incd = s.incd) :
    (endCondition k t).body = { t with incd := (endCondition k s).incd }.body := by
  rw [endCondition_body, endCondition_incd h]

/-! ### ACTUATE (R135, R136) -/

theorem actuateRule_range {a b : Byte} {f : State → State} (h : b ≠ a) :
    actuateRule a f b s = respond 0x1A .range [] s := if_pos h

theorem actuateRule_service {a : Byte} {f : State → State} (h : s.vault.service ≠ .service) :
    actuateRule a f a s = respond 0x1A .service [] s := by
  unfold actuateRule
  rw [if_neg (not_not.2 rfl), outsideService_eq, if_pos (decide_eq_true h)]

theorem actuateRule_inside {a : Byte} {f : State → State} (h : s.vault.service = .service) :
    actuateRule a f a s = f s := by
  unfold actuateRule
  rw [if_neg (not_not.2 rfl), not_outsideService h, if_neg Bool.false_ne_true]

theorem blindRule_call {k : Stroke} (h : callExists s.call.state = true) :
    blindRule k s = respond 0x1A .busy [] s := if_pos h

theorem blindRule_refused {k : Stroke} {r : Result} (h : callExists s.call.state = false)
    (hr : blindRefusal k s = some r) : blindRule k s = respond 0x1A r [] s := by
  unfold blindRule; rw [if_neg (by rw [h]; decide), hr]

theorem blindRule_begun {k : Stroke} (h : callExists s.call.state = false) (hr : blindRefusal k s = none) :
    blindRule k s = beginBlind k s := by
  unfold blindRule; rw [if_neg (by rw [h]; decide), hr]

theorem blindRefusal_mover {k : Stroke} (h : s.coin.mover ≠ .idle) : blindRefusal k s = some .busy := if_pos h

theorem blindRefusal_order {k : Stroke} (hm : s.coin.mover = .idle) (h : s.coin.order = .outOfOrder) :
    blindRefusal k s = some .state := by
  unfold blindRefusal; rw [if_neg (not_not.2 hm), if_pos h]

theorem vaultAtCapacity_iff (s : State) : vaultAtCapacity s = true ↔
    s.config.vaultCapacity ≤ s.vault.counters.total + s.coin.escrow.length := decide_eq_true_iff

theorem blindRefusal_full (hm : s.coin.mover = .idle) (ho : s.coin.order = .inOrder)
    (h : vaultAtCapacity s = true) : blindRefusal .collect s = some .full := by
  unfold blindRefusal; rw [if_neg (not_not.2 hm), if_neg (by rw [ho]; decide), if_pos ⟨rfl, h⟩]

theorem blindRefusal_none {k : Stroke} (hm : s.coin.mover = .idle) (ho : s.coin.order = .inOrder)
    (h : k = .collect → ¬ vaultAtCapacity s = true) : blindRefusal k s = none := by
  unfold blindRefusal; rw [if_neg (not_not.2 hm), if_neg (by rw [ho]; decide), if_neg fun ⟨hk, hv⟩ => h hk hv]

/-- R81, R136: the rule of the action byte that names this stroke. -/
def strokeRule (k : Stroke) (s : State) : State :=
  actuateRule (match k with | .refund => 0 | .collect => 1) (blindRule k) (match k with | .refund => 0 | .collect => 1) s

theorem exec_stroke (k : Stroke) (h : Ready s) :
    exec (match k with | .refund => .refundOne [0] | .collect => .collectTestOne [1]) s
      = .next (finish s (strokeRule k (s.took 0x1A))) := by
  cases k with
  | refund => exact exec_owner (c := .refundOne [0]) 0x1A oneByte? (actuateRule 0 (blindRule .refund)) rfl h rfl
  | collect => exact exec_owner (c := .collectTestOne [1]) 0x1A oneByte? (actuateRule 1 (blindRule .collect)) rfl h rfl

theorem strokeRule_service {k : Stroke} (h : s.vault.service ≠ .service) :
    strokeRule k s = respond 0x1A .service [] s := actuateRule_service h

theorem strokeRule_inside {k : Stroke} (h : s.vault.service = .service) : strokeRule k s = blindRule k s :=
  actuateRule_inside h

/-- R81: a blind stroke drives the mover, and the command stays outstanding. -/
theorem finish_beginBlind (k : Stroke) (hr : s.link.reply = none) :
    let t := finish s (beginBlind k (s.took 0x1A))
    Posted [] s t ∧ t.link.outstanding = some 0x1A ∧ t.link.reply = none
      ∧ t.body = { s with coin := { s.coin with
          mover := (match k with | .refund => .refunding | .collect => .collecting)
          exitTimer := some (s.now + 800), blind := true } }.body := by
  intro t
  refine ⟨?_, ?_, finish_reply_none hr, (finish_body _ _).trans ?_⟩
  · exact finish_posted _ _ _ _ rfl rfl rfl rfl rfl
  · exact finish_outstanding ..
  · cases k <;> rfl

/-- What a blind stroke's command makes of the part is its one reply, or the stroke begun: no notice. -/
theorem strokeRule_cases (k : Stroke) (s : State) :
    (∃ r, strokeRule k s = respond 0x1A r [] s) ∨ strokeRule k s = beginBlind k s := by
  by_cases hs : s.vault.service = .service
  · rw [strokeRule_inside hs]
    cases hc : callExists s.call.state with
    | true => exact .inl ⟨_, blindRule_call hc⟩
    | false =>
      cases hr : blindRefusal k s with
      | some r => exact .inl ⟨_, blindRule_refused hc hr⟩
      | none => exact .inr (blindRule_begun hc hr)
  · exact .inl ⟨_, strokeRule_service hs⟩

/-- R82: of the state the fault, the count of unconfirmed coins, the jam timer and the map alone change. -/
theorem restoreInlet_body (s : State) : (restoreInlet s).body = { s with
    coin := { s.coin with inletFault := false, unconfirmed := 0,
                          jamTimer := if s.pins.jam = true then some (s.now + 1000) else s.coin.jamTimer }
    incd := (endCondition .inletJam s).incd }.body := by
  unfold restoreInlet
  exact endCondition_body_of rfl

theorem restoreEscrow_body (s : State) : (restoreEscrow s).1.body = { s with
    coin := { s.coin with order := .inOrder, strandedTally := {} }
    incd := (endCondition .escrowJam s).incd }.body := by
  unfold restoreEscrow
  exact endCondition_body_of rfl

/-- R190: an accepted command, whatever its notices. -/
theorem finish_ok {k : Byte} {b : List Byte} (hl : Kept True (s.took k) v) :
    Answered (replyKind k) (0 :: b) s (finish s (respond k .ok b v))
      ∧ (finish s (respond k .ok b v)).body = v.body :=
  ⟨finish_answered _ _ _ _ _ (congrArg LinkBlock.tx (hl.wires trivial) :) rfl rfl, by
    rw [finish_body]; exact respond_body k .ok b v⟩

theorem restoreInlet_kept {wired : Prop} : Kept wired s (restoreInlet s) :=
  .after endCondition_kept (.of_same_coins _ rfl)

theorem restoreEscrow_kept {wired : Prop} : Kept wired s (restoreEscrow s).1 :=
  .after endCondition_kept (.of_same_coins _ rfl)

theorem restoreInletRule_state (h : s.coin.inletFault = false) : restoreInletRule s = respond 0x1A .state [] s :=
  decideReply_refused (by rw [h]; rfl)

theorem restoreInletRule_ok (h : s.coin.inletFault = true) :
    restoreInletRule s = respond 0x1A .ok [] (restoreInlet s) := decideReply_ok (by rw [h]; rfl)

end Sys2Proof.Machine

open Sys2Proof Sys2Proof.Machine

/-- Settles O36: ACTUATE's tests in their order, then the stroke, or the restore of the named fault. -/
theorem serviceActionsActInService : Obligations.ServiceActionsActInService := by
  refine ⟨fun s h => ⟨fun b hb => ⟨_, exec_owner (c := .refundOne [b]) 0x1A oneByte?
    (actuateRule 0 (blindRule .refund)) rfl h rfl, ?_⟩, fun k => ⟨_, exec_stroke k h, ?_, fun hs => ?_, fun hs => ?_⟩⟩,
    fun s h => ⟨⟨_, exec_owner (c := .restoreInlet [2]) 0x1A oneByte? (actuateRule 2 restoreInletRule) rfl h rfl,
      fun hs => ?_, fun hs hf => ?_, fun hs hf => ?_⟩,
      ⟨_, exec_owner (c := .restoreEscrow [3]) 0x1A oneByte? (actuateRule 3 (decideReply 0x1A none restoreEscrow)) rfl
        h rfl, fun hs => ?_, fun hs => ?_⟩⟩⟩
  · have hb0 : b ≠ 0 := by rintro rfl; exact absurd hb (by decide)
    rw [actuateRule_range hb0]
    exact reports_respond 0x1A .range [] s
  · rcases strokeRule_cases k (s.took 0x1A) with ⟨r, hr⟩ | hr
    · rw [hr]; exact (reports_respond 0x1A r [] s).2.1
    · rw [hr]; exact (finish_beginBlind k h.2.2.1).1
  · rw [strokeRule_service (s := s.took 0x1A) hs]
    obtain ⟨hanswered, -, hbody⟩ := reports_respond 0x1A .service [] s
    exact ⟨hanswered, hbody⟩
  · rw [strokeRule_inside (s := s.took 0x1A) hs]
    have hrefused : ∀ r, Answered 0x9A (le1 r.code ++ []) s (finish s (respond 0x1A r [] (s.took 0x1A)))
        ∧ (finish s (respond 0x1A r [] (s.took 0x1A))).body = s.body := fun r =>
      ⟨(reports_respond 0x1A r [] s).1, (reports_respond 0x1A r [] s).2.2⟩
    refine ⟨fun hc => ?_, fun hc => ⟨fun hm => ?_, fun hm ho => ?_, fun hm ho hk hv => ?_, fun hm ho hv => ?_⟩⟩
    · rw [blindRule_call (s := s.took 0x1A) hc]; exact hrefused .busy
    · rw [blindRule_refused (s := s.took 0x1A) hc (blindRefusal_mover hm)]; exact hrefused .busy
    · rw [blindRule_refused (s := s.took 0x1A) hc (blindRefusal_order hm ho)]; exact hrefused .state
    · subst hk
      rw [blindRule_refused (s := s.took 0x1A) hc (blindRefusal_full hm ho ((vaultAtCapacity_iff _).2 hv))]
      exact hrefused .full
    · rw [blindRule_begun (s := s.took 0x1A) hc (blindRefusal_none hm ho fun hk hfull =>
        Nat.not_le.2 (hv hk) ((vaultAtCapacity_iff _).1 hfull))]
      obtain ⟨-, hout, hreply, hbody⟩ := finish_beginBlind k h.2.2.1
      exact ⟨hout, hreply, hbody⟩
  · rw [actuateRule_service (s := s.took 0x1A) hs]; exact reports_respond 0x1A .service [] s
  · rw [actuateRule_inside (s := s.took 0x1A) hs, restoreInletRule_state (s := s.took 0x1A) hf]
    exact reports_respond 0x1A .state [] s
  · rw [actuateRule_inside (s := s.took 0x1A) hs, restoreInletRule_ok (s := s.took 0x1A) hf]
    obtain ⟨hanswered, hbody⟩ := finish_ok (s := s) (k := 0x1A) (b := []) restoreInlet_kept
    exact ⟨hanswered, hbody.trans ((restoreInlet_body _).trans (by
      rw [endCondition_incd (t := s.took 0x1A) (s := s) rfl]; rfl))⟩
  · rw [actuateRule_service (s := s.took 0x1A) hs]; exact reports_respond 0x1A .service [] s
  · rw [actuateRule_inside (s := s.took 0x1A) hs, decideReply_ok rfl]
    obtain ⟨hanswered, hbody⟩ := finish_ok (s := s) (k := 0x1A) (b := (restoreEscrow (s.took 0x1A)).2) restoreEscrow_kept
    refine ⟨?_, hbody.trans ((restoreEscrow_body _).trans (by
      rw [endCondition_incd (t := s.took 0x1A) (s := s) rfl]; rfl))⟩
    rw [List.append_assoc]
    exact hanswered

end

section
/-! The forms of numbers and digit strings (O14), and CONFIG_SET (O21). -/

namespace Sys2Proof.Machine

variable {s t u v : State} {ns ms : List Notice}

/-! ### Numbers and digit strings (R198) -/

theorem toNat_byteOf (n : Nat) : (byteOf n).toNat = n % 256 := by rw [byteOf, BitVec.toNat_ofNat]

theorem ofLe_le1 {n : Nat} (h : n < 256) : ofLe (le1 n) = n := by
  simp only [le1, ofLe, toNat_byteOf]; omega

theorem ofLe_le2 {n : Nat} (h : n < 65536) : ofLe (le2 n) = n := by
  simp only [le2, ofLe, toNat_byteOf]; omega

theorem ofLe_le3 {n : Nat} (h : n < 16777216) : ofLe (le3 n) = n := by
  simp only [le3, ofLe, toNat_byteOf]; omega

theorem ofLe_le4 {n : Nat} (h : n < 4294967296) : ofLe (le4 n) = n := by
  simp only [le4, ofLe, toNat_byteOf]; omega

theorem symbolOf_code (x : Symbol) : symbolOf? x.code = some x := by
  cases x with
  | digit d => exact dif_pos d.isLt
  | star => rfl

theorem Symbol.code_lt (x : Symbol) : x.code < 15 := by
  cases x with
  | digit d => exact Nat.lt_trans d.isLt (by decide)
  | star => decide

theorem packSymbols_length (ds : List Symbol) : (packSymbols ds).length = (ds.length + 1) / 2 := by
  induction ds using packSymbols.induct with
  | case1 => rfl
  | case2 x => simp [packSymbols]
  | case3 x y rest ih => rw [packSymbols, List.length_cons, ih, List.length_cons, List.length_cons]; omega

/-- R172: what is packed two symbols a byte unpacks. -/
theorem unpackSymbols_packSymbols (ds : List Symbol) : unpackSymbols ds.length (packSymbols ds) = some ds := by
  induction ds using packSymbols.induct with
  | case1 => rfl
  | case2 x =>
    have hx := x.code_lt
    have hbyte : (byteOf (x.code * 16 + 15)).toNat = x.code * 16 + 15 := by rw [toNat_byteOf]; omega
    show (if (byteOf (x.code * 16 + 15)).toNat % 16 = 15 then _ else none) = some [x]
    rw [hbyte, if_pos (by omega), show (x.code * 16 + 15) / 16 = x.code by omega, symbolOf_code]; rfl
  | case3 x y rest ih =>
    have hx := x.code_lt
    have hy := y.code_lt
    have hbyte : (byteOf (x.code * 16 + y.code)).toNat = x.code * 16 + y.code := by rw [toNat_byteOf]; omega
    rw [packSymbols, List.length_cons, List.length_cons, unpackSymbols, hbyte, ih,
      show (x.code * 16 + y.code) / 16 = x.code by omega, show (x.code * 16 + y.code) % 16 = y.code by omega,
      symbolOf_code, symbolOf_code]

theorem splitDigits_digitString {ds : List Symbol} (rest : List Byte) (h : ds.length < 256) :
    splitDigits? (digitString ds ++ rest) = some (ds.length, packSymbols ds, rest) := by
  have hcount : (byteOf (min ds.length 255)).toNat = ds.length := by rw [toNat_byteOf]; omega
  have hpacked := packSymbols_length ds
  show splitDigits? (byteOf (min ds.length 255) :: (packSymbols ds ++ rest)) = _
  unfold splitDigits?
  dsimp only
  rw [hcount, ← hpacked, if_neg (by rw [List.length_append]; omega), List.take_left, List.drop_left]

theorem symbolsIn_packSymbols {ds : List Symbol} (h : ds.length ≤ 24) :
    symbolsIn? false 0 24 ds.length (packSymbols ds) = some ds := by
  unfold symbolsIn?
  rw [if_pos ⟨Nat.zero_le _, h⟩, unpackSymbols_packSymbols]; rfl

/-! ### The vault's two states follow its counts (R126, R128) -/

theorem body_vault {s t : State} (v : VaultBlock) (h : t.body = s.body) :
    { t with vault := v }.body = { s with vault := v }.body := congrArg (fun x : State => { x with vault := v }) h

theorem countOccurrence_body (k : IncidentKind) (s : State) :
    (countOccurrence k s).body = { s with incd := (countOccurrence k s).incd }.body := by
  unfold countOccurrence postIncident; rw [post_eq]; rfl

theorem fullFollow_body (s : State) : (fullFollow s).body = { s with
    vault := { s.vault with full := vaultAtCapacity s }, incd := (fullFollow s).incd }.body := by
  unfold fullFollow
  dsimp only
  split
  · next h => rw [h]
  · split
    · split
      · exact countOccurrence_body ..
      · exact endCondition_body ..
    · rfl

/-- R128: the near-full state that the mark gives. -/
def nearMarked (c : ConfigItems) (v : VaultBlock) : VaultBlock :=
  { v with nearFull := decide (c.nearFullMark ≤ v.counters.total) }

theorem nearFollow_body (s : State) :
    (nearFollow s).body = { s with vault := nearMarked s.config s.vault }.body := by
  unfold nearFollow nearMarked
  dsimp only
  split
  · next h => rw [h]
  · exact post_body ..

theorem nearFollow_incd (s : State) : (nearFollow s).incd = s.incd := nearFollow_only .incd (by decide)

theorem fullFollow_vault (s : State) : (fullFollow s).vault = { s.vault with full := vaultAtCapacity s } :=
  (congrArg (fun x : State => x.vault) (fullFollow_body s) :)

theorem vaultRefresh_body (s : State) : (vaultRefresh s).body = { s with
    vault := { s.vault with
      full := vaultAtCapacity s, nearFull := decide (s.config.nearFullMark ≤ s.vault.counters.total) }
    incd := (vaultRefresh s).incd }.body := by
  have hconfig : (fullFollow s).config = s.config := fullFollow_only .config (by decide)
  have hbody := nearFollow_body (fullFollow s)
  have hincd : (vaultRefresh s).incd = (fullFollow s).incd := nearFollow_incd _
  have hmarked : nearMarked (fullFollow s).config (fullFollow s).vault
      = nearMarked s.config { s.vault with full := vaultAtCapacity s } := by rw [hconfig, fullFollow_vault]
  rw [hmarked] at hbody
  rw [hincd]
  exact hbody.trans (body_vault _ (fullFollow_body s))

/-! ### CONFIG_SET (R193, R127) -/

theorem configAfter_some {items : List (Nat × List Byte)} {c : ConfigItems} (h : configAfter s items = some c) :
    setItems? s.config items = some c ∧ (namesVault items = true → vaultPairOk (vaultLoad s) c = true) := by
  unfold configAfter at h
  split at h
  · cases hs : setItems? s.config items with
    | none => rw [hs] at h; cases h
    | some d =>
      rw [hs] at h
      dsimp only at h
      split at h
      · next hok =>
        cases h
        refine ⟨rfl, fun hv => ?_⟩
        rw [hv, Bool.not_true, Bool.false_or, Bool.and_eq_true] at hok
        exact hok.2
      · cases h
  · cases h

/-- R193: one item whose new value passes its own test and the joint ones. -/
theorem configAfter_one {i : Nat} {b : List Byte} {c : ConfigItems} (hset : setItem? s.config (i, b) = some c)
    (hjoint : configJoint c = true) (hv : namesVault [(i, b)] = false) : configAfter s [(i, b)] = some c := by
  have hitems : setItems? s.config [(i, b)] = some c := by
    rw [setItems?, hset]; rfl
  unfold configAfter
  rw [if_pos (by simp), hitems]
  dsimp only
  rw [hjoint, hv]; rfl

theorem vaultLoad_le {c : ConfigItems} (h : vaultPairOk (vaultLoad s) c = true) : vaultLoad s ≤ c.vaultCapacity := by
  unfold vaultPairOk at h
  simp only [Bool.and_eq_true, decide_eq_true_eq] at h
  exact h.2

theorem configSetRule_range {items : List (Nat × List Byte)} (h : configAfter s items = none) :
    configSetRule items s = respond 0x02 .range [] s := by unfold configSetRule; rw [h]

theorem configSetRule_some {items : List (Nat × List Byte)} {c : ConfigItems} (h : configAfter s items = some c) :
    configSetRule items s = respond 0x02 .ok [] (applyConfig items c s) := by unfold configSetRule; rw [h]

theorem applyConfig_plain {items : List (Nat × List Byte)} {c : ConfigItems} (h : namesVault items = false) :
    applyConfig items c s = { s with config := c } := by
  unfold applyConfig; dsimp only; rw [h, if_neg Bool.false_ne_true]

theorem applyConfig_vault {items : List (Nat × List Byte)} {c : ConfigItems} (h : namesVault items = true) :
    applyConfig items c s = postVault (vaultRefresh { s with config := c }) := if_pos h

theorem applyConfig_kept {wired : Prop} {items : List (Nat × List Byte)} {c : ConfigItems}
    (h : configAfter s items = some c) : Kept wired s (applyConfig items c s) := by
  obtain ⟨hv, he⟩ := configAfter_lengths h
  have hconf : Kept wired s { s with config := c } := .of_config c hv.trans he.trans
  cases hn : namesVault items with
  | true => rw [applyConfig_vault hn]; exact .after post_kept (.after vaultRefresh_kept hconf)
  | false => rw [applyConfig_plain hn]; exact hconf

/-- R193: whichever items are named, the values that hold are those judged. -/
theorem applyConfig_config (items : List (Nat × List Byte)) (c : ConfigItems) (s : State) :
    (applyConfig items c s).config = c := by
  cases hn : namesVault items with
  | true =>
    rw [applyConfig_vault hn, postVault, post_config]
    exact vaultRefresh_only .config (by decide)
  | false => rw [applyConfig_plain hn]

theorem applyConfig_vault_body {items : List (Nat × List Byte)} {c : ConfigItems} (h : namesVault items = true) :
    (applyConfig items c s).body = { s with
      config := c
      vault := { s.vault with
        full := decide (c.vaultCapacity ≤ vaultLoad s)
        nearFull := decide (c.nearFullMark ≤ s.vault.counters.total) }
      incd := (applyConfig items c s).incd }.body := by
  have hincd : (postVault (vaultRefresh { s with config := c })).incd = (vaultRefresh { s with config := c }).incd := by
    unfold postVault; rw [post_eq]
  rw [applyConfig_vault h, hincd]
  exact (post_body ..).trans (vaultRefresh_body { s with config := c })

theorem setItem_chargeStep (c : ConfigItems) {n : Nat} (h1 : 1 ≤ n) (h2 : n ≤ 1000) :
    setItem? c (17, le3 n) = some { c with chargeStep := n } := by
  have hn : ofLe (le3 n) = n := ofLe_le3 (by omega)
  unfold setItem?
  dsimp only
  rw [hn, if_neg (by decide), if_neg (by decide)]
  exact if_pos ⟨h1, h2⟩

theorem setItem_mask (c : ConfigItems) {n : Nat} (h : n < 16384) :
    setItem? c (36, le2 n) = some { c with masked := maskKinds n } := by
  have hn : ofLe (le2 n) = n := ofLe_le2 (by omega)
  unfold setItem?
  dsimp only
  rw [hn, if_neg (by decide), if_neg (by decide)]
  exact if_pos h

theorem maskKinds_contains (n : Nat) (k : NoticeKind) : (maskKinds n).contains k = n.testBit (k.kind - 0x40) := by
  have hall : k ∈ NoticeKind.all := by cases k <;> decide
  rw [Bool.eq_iff_iff, List.contains_iff_mem, maskKinds, List.mem_filter, and_iff_right hall]

end Sys2Proof.Machine

open Sys2Proof Sys2Proof.Machine

/-- Settles O14: each form's bytes are read back to the number or the symbols they hold. -/
theorem numbersAndDigitStringsReadBack : Obligations.NumbersAndDigitStringsReadBack :=
  ⟨fun _ => ofLe_le1, fun _ => ofLe_le2, fun _ => ofLe_le3, fun _ => ofLe_le4,
    fun _ rest h => ⟨splitDigits_digitString rest (Nat.lt_of_le_of_lt h (by decide)), symbolsIn_packSymbols h⟩⟩

/-- Settles O21: the values that would hold are judged together (`configAfter`) and put in place together
(`applyConfig`). -/
theorem configSetTakesAllItemsOrNone : Obligations.ConfigSetTakesAllItemsOrNone := by
  intro p items s hargs h
  have hconfig : ∀ c, configAfter s items = some c →
      (finish s (configSetRule items (s.took 0x02))).config = c := fun c hc => by
    rw [finish_config, configSetRule_some (s := s.took 0x02) hc]; exact applyConfig_config items c _
  refine ⟨_, exec_owner (c := .configSet p) 0x02 configSetArgs? configSetRule rfl h hargs, fun hc => ?_,
    fun c hc hv => ?_, fun c hc hv => ?_, fun n hitems h1 h2 hjoint => ?_, fun n hitems hn hjoint k => ?_⟩
  · rw [configSetRule_range (s := s.took 0x02) hc]; exact reports_respond 0x02 .range [] s
  · rw [configSetRule_some (s := s.took 0x02) hc, applyConfig_plain hv]
    exact finish_replied 0x02 .ok [] [] s { s.took 0x02 with config := c } rfl rfl rfl rfl rfl
  · have hkept := applyConfig_kept (wired := True) (s := s.took 0x02) hc
    have hpair := (configAfter_some hc).2 hv
    rw [configSetRule_some (s := s.took 0x02) hc]
    obtain ⟨hanswered, hbody⟩ := finish_ok (s := s) (b := []) hkept
    refine ⟨hanswered, vaultLoad_le hpair, hbody.trans ?_⟩
    rw [applyConfig_vault_body hv, finish_incd]; rfl
  · subst hitems
    exact hconfig _ (configAfter_one (setItem_chargeStep _ h1 h2) hjoint rfl)
  · subst hitems
    rw [hconfig _ (configAfter_one (setItem_mask _ hn) hjoint rfl)]
    exact maskKinds_contains n k

end

section
/-! The frame assembler (O15), and the frames of host commands through it (O13). -/

namespace Sys2Proof.Machine

variable {s t u v : State}

/-! ### The command of a frame (R190) -/

theorem sumBytes_append (a b : List Byte) : sumBytes (a ++ b) = sumBytes a + sumBytes b := by
  induction a with
  | nil => exact (BitVec.zero_add _).symm
  | cons x a ih => rw [List.cons_append, sumBytes, sumBytes, ih, BitVec.add_assoc]

theorem actuateCommand_refundOne {p : List Byte} (h : otherAction p = false) : actuateCommand p = .refundOne p := by
  unfold otherAction at h
  unfold actuateCommand
  simp_all

theorem not_namesCommand {k : Byte} (h : namesCommand k = false) : k.toNat = 0 ∨ 0x1C < k.toNat := by
  unfold namesCommand at h
  simp only [Bool.and_eq_false_iff, decide_eq_false_iff_not] at h
  omega

theorem commandOf_unknown {k : Byte} {p : List Byte} (h : namesCommand k = false) :
    commandOf k p = .unknownCommand k p := by
  have hk := not_namesCommand h
  unfold commandOf
  split
  case h_29 => rfl
  all_goals omega

/-- R190: a frame's KIND and payload give back the command they were written from. -/
theorem commandOf_hostFrame {c : Instr} {k : Byte} {p : List Byte} (hwf : c.wf = true) (hc : hostFrame c = some (k, p)) :
    commandOf k p = c := by
  cases c with
  | refundOne q =>
    cases hc
    simp only [Instr.wf, Bool.and_eq_true, Bool.not_eq_true'] at hwf
    exact actuateCommand_refundOne hwf.2
  | collectTestOne q | restoreInlet q | restoreEscrow q =>
    cases hc
    rw [show p = _ from of_decide_eq_true hwf]; rfl
  | unknownCommand j q =>
    cases hc
    simp only [Instr.wf, Bool.and_eq_true, Bool.not_eq_true'] at hwf
    exact commandOf_unknown hwf.2
  | _ => cases hc <;> rfl

theorem payload_length {c : Instr} {k : Byte} {p : List Byte} (hwf : c.wf = true) (hc : hostFrame c = some (k, p)) :
    p.length ≤ 119 := by
  have hfits : payloadFits p = true → p.length ≤ 119 := of_decide_eq_true
  cases c with
  | refundOne q | unknownCommand j q =>
    cases hc
    simp only [Instr.wf, Bool.and_eq_true] at hwf
    exact hfits hwf.1
  | collectTestOne q | restoreInlet q | restoreEscrow q =>
    cases hc
    rw [show p = _ from of_decide_eq_true hwf]; decide
  | _ => cases hc <;> exact hfits hwf

/-! ### The assembler through a frame (R187) -/

/-- The bytes of a frame from the `n`th on, as they arrive. -/
def arriving (arrival : Nat → Nat) (bs : List Byte) (n : Nat) : List InputItem :=
  (bs.zipIdx n).map fun bi => .byte bi.1 (arrival bi.2)

theorem arriving_cons (arrival : Nat → Nat) (b : Byte) (bs : List Byte) (n : Nat) :
    arriving arrival (b :: bs) n = .byte b (arrival n) :: arriving arrival bs (n + 1) := rfl

theorem arriving_append (arrival : Nat → Nat) (as bs : List Byte) (n : Nat) :
    arriving arrival (as ++ bs) n = arriving arrival as n ++ arriving arrival bs (n + as.length) := by
  unfold arriving; rw [List.zipIdx_append, List.map_append, Nat.add_comm]

theorem drainItems_cons (i : InputItem) (is : List InputItem) {l : LinkBlock} (h : l.ended = []) :
    drainItems (i :: is) l = drainItems is (takeItem i l) := by
  rw [drainItems, h]; rfl

theorem drainItems_waits (is : List InputItem) {l : LinkBlock} (h : l.ended ≠ []) :
    drainItems is l = { l with input := is } := by
  cases is with
  | nil => rfl
  | cons i is =>
    rw [drainItems, if_neg]
    rwa [List.isEmpty_iff]

/-- A byte that is not late is assembled. -/
theorem takeItem_byte {b : Byte} {a : Nat} {l : LinkBlock} (h : l.assembler = .hunt ∨ a ≤ l.lastByteAt + 50) :
    takeItem (.byte b a) l = assemble b a l := by
  have hnot : (inFrame l.assembler && late a l) = false := by
    rcases h with h | h
    · rw [h]; rfl
    · rw [show late a l = false from decide_eq_false (Nat.not_lt.2 h), Bool.and_false]
  unfold takeItem
  dsimp only
  rw [hnot, if_neg Bool.false_ne_true]

theorem assemble_hunt {b : Byte} {a : Nat} {l : LinkBlock} (h : l.assembler = .hunt) : assemble b a l =
    if b = 0xA5 then { l with lastByteAt := a, assembler := .length } else l := by
  unfold assemble; dsimp only; rw [h]

theorem assemble_length {b : Byte} {a : Nat} {l : LinkBlock} (h : l.assembler = .length) : assemble b a l =
    if 1 ≤ b.toNat ∧ b.toNat ≤ 120 then { l with lastByteAt := a, assembler := .body b.toNat [] }
    else endFrame (.fault .lengthRange 2) { l with lastByteAt := a } := by
  unfold assemble; dsimp only; rw [h]

theorem assemble_body {b : Byte} {a len : Nat} {bs : List Byte} {l : LinkBlock} (h : l.assembler = .body len bs) :
    assemble b a l = if bs.length = len then completeFrame len (bs ++ [b]) { l with lastByteAt := a }
      else { l with lastByteAt := a, assembler := .body len (bs ++ [b]) } := by
  have hlen : ((bs ++ [b]).length = len + 1) ↔ bs.length = len := by
    rw [List.length_append, List.length_singleton]; omega
  unfold assemble
  dsimp only
  rw [h]
  dsimp only
  rw [if_congr hlen rfl rfl]

/-- R187: a complete frame is sound, or a fault for its loss mark or its sum. -/
theorem completeFrame_cons {len : Nat} {k b : Byte} {bs : List Byte} {l : LinkBlock} (h : bs.length + 1 = len) :
    completeFrame len (k :: bs ++ [b]) l = endFrame (if l.lost = true then .fault .overrun (len + 3)
      else if byteOf len + sumBytes (k :: bs ++ [b]) = 0 then .sound k bs else .fault .check (len + 3)) l := by
  have hsize : (k :: bs ++ [b]).length + 2 = len + 3 := by
    rw [List.length_append, List.length_cons, List.length_singleton]; omega
  unfold completeFrame
  dsimp only
  rw [hsize]
  split_ifs
  · rfl
  · show endFrame (.sound k (bs ++ [b]).dropLast) l = _
    rw [List.dropLast_concat]
  · rfl

theorem completeFrame_sound {len : Nat} {k b : Byte} {bs : List Byte} {l : LinkBlock} (h : bs.length + 1 = len)
    (hlost : l.lost = false) (hsum : byteOf len + sumBytes (k :: bs ++ [b]) = 0) :
    completeFrame len (k :: bs ++ [b]) l = endFrame (.sound k bs) l := by
  rw [completeFrame_cons h, hlost, if_neg Bool.false_ne_true, if_pos hsum]

/-- The block with the assembler in this state, its last byte taken at this instant. -/
def within (x : Assembler) (at_ : Nat) (l : LinkBlock) : LinkBlock := { l with assembler := x, lastByteAt := at_ }

theorem drainItems_within (i : InputItem) (is : List InputItem) {x : Assembler} {a : Nat} {l : LinkBlock}
    (h : l.ended = []) : drainItems (i :: is) (within x a l) = drainItems is (takeItem i (within x a l)) :=
  drainItems_cons i is h

/-- Within a frame, bytes that follow in time join it. -/
theorem drainItems_body {arrival : Nat → Nat} (hgap : ∀ i, arrival (i + 1) ≤ arrival i + 50) {len : Nat}
    {l : LinkBlock} (hended : l.ended = []) (rest : List InputItem) (bs : List Byte) : ∀ (n : Nat) (acc : List Byte),
      acc.length + bs.length ≤ len →
      drainItems (arriving arrival bs (n + 1) ++ rest) (within (.body len acc) (arrival n) l)
        = drainItems rest (within (.body len (acc ++ bs)) (arrival (n + bs.length)) l) := by
  induction bs with
  | nil => intro n acc hlen; rw [List.append_nil]; rfl
  | cons b bs ih =>
    intro n acc hlen
    rw [List.length_cons] at hlen
    have htaken : takeItem (.byte b (arrival (n + 1))) (within (.body len acc) (arrival n) l)
        = within (.body len (acc ++ [b])) (arrival (n + 1)) l := by
      rw [takeItem_byte (.inr (hgap n)), assemble_body rfl, if_neg (by omega)]; rfl
    rw [arriving_cons, List.cons_append, drainItems_within _ _ hended, htaken,
      ih (n + 1) (acc ++ [b]) (by rw [List.length_append, List.length_singleton]; omega), List.append_assoc,
      List.length_cons, Nat.add_right_comm, Nat.add_assoc]
    rfl

/-- R186: the check byte makes the sum of a frame 0. -/
theorem frame_sum (len k : Byte) (p : List Byte) :
    len + sumBytes (k :: p ++ [0 - (len + k + sumBytes p)]) = 0 := by
  have hsum : sumBytes (k :: p ++ [0 - (len + k + sumBytes p)])
      = k + (sumBytes p + ((0 - (len + k + sumBytes p)) + 0)) := by
    rw [List.cons_append, sumBytes, sumBytes_append]; rfl
  rw [hsum]
  generalize sumBytes p = x
  bv_omega

/-- R187: a frame whose bytes follow in time ends sound. -/
theorem drainItems_frame {k : Byte} {p : List Byte} {l : LinkBlock} {arrival : Nat → Nat} (hp : p.length ≤ 119)
    (hhunt : l.assembler = .hunt) (hlost : l.lost = false) (hended : l.ended = [])
    (hgap : ∀ i, arrival (i + 1) ≤ arrival i + 50) :
    (drainItems (arriving arrival (frameBytes k p) 0) l).ended = [.sound k p]
      ∧ (drainItems (arriving arrival (frameBytes k p) 0) l).assembler = .hunt := by
  have hbyte : (byteOf (p.length + 1)).toNat = p.length + 1 := by rw [toNat_byteOf]; omega
  have hframe : frameBytes k p = 0xA5 :: byteOf (p.length + 1) :: ((k :: p)
      ++ [0 - (byteOf (p.length + 1) + k + sumBytes p)]) := rfl
  have hstart : takeItem (.byte 0xA5 (arrival 0)) l = within .length (arrival 0) l := by
    rw [takeItem_byte (.inl hhunt), assemble_hunt hhunt, if_pos rfl]; rfl
  have hlength : takeItem (.byte (byteOf (p.length + 1)) (arrival 1)) (within .length (arrival 0) l)
      = within (.body (p.length + 1) []) (arrival 1) l := by
    rw [takeItem_byte (.inr (hgap 0)), assemble_length rfl, hbyte, if_pos ⟨by omega, by omega⟩]; rfl
  have hlast : takeItem (.byte (0 - (byteOf (p.length + 1) + k + sumBytes p)) (arrival (2 + (k :: p).length)))
      (within (.body (p.length + 1) (k :: p)) (arrival (1 + (k :: p).length)) l)
        = endFrame (.sound k p) (within (.body (p.length + 1) (k :: p)) (arrival (2 + (k :: p).length)) l) := by
    rw [takeItem_byte (.inr (by rw [show 2 + (k :: p).length = 1 + (k :: p).length + 1 by omega]; exact hgap _)),
      assemble_body rfl, if_pos (List.length_cons ..)]
    exact completeFrame_sound rfl hlost (frame_sum ..)
  have hbody := drainItems_body hgap hended (len := p.length + 1) (arriving arrival
    [0 - (byteOf (p.length + 1) + k + sumBytes p)] (2 + (k :: p).length)) (k :: p) 1 []
    (by rw [List.length_nil, List.length_cons, Nat.zero_add])
  have hall : drainItems (arriving arrival (frameBytes k p) 0) l
      = { endFrame (.sound k p) (within (.body (p.length + 1) (k :: p)) (arrival (2 + (k :: p).length)) l)
          with input := [] } := by
    rw [hframe, arriving_cons, drainItems_cons _ _ hended, hstart, arriving_cons, drainItems_within _ _ hended, hlength,
      arriving_append, hbody, arriving_cons, drainItems_within _ _ hended, List.nil_append, hlast]
    rfl
  rw [hall]
  refine ⟨?_, rfl⟩
  show l.ended ++ [_] = _
  rw [hended]; rfl

/-! ### A byte, and the timeout (R187) -/

theorem finish_besideBody (s0 u : State) : (finish s0 u).link.input = u.link.input
    ∧ (finish s0 u).link.ended = u.link.ended ∧ (finish s0 u).link.assembler = u.link.assembler
    ∧ (finish s0 u).link.lost = u.link.lost := by
  have h := finish_body s0 u
  exact ⟨(congrArg (fun x : State => x.link.input) h :), (congrArg (fun x : State => x.link.ended) h :),
    (congrArg (fun x : State => x.link.assembler) h :), (congrArg (fun x : State => x.link.lost) h :)⟩

/-- An event of LINK's input changes its input alone. -/
theorem finish_input {m : LinkBlock} (h : m.besideInput = s.link.besideInput) :
    LinkKept s (finish s { s with link := m }) ∧ Posted [] s (finish s { s with link := m })
      ∧ OnlyChanges [.input] s (finish s { s with link := m }) := by
  refine ⟨finish_linkKept _ _ _ (congrArg LinkBlock.outstanding h :) (congrArg LinkBlock.turn h :)
    (congrArg LinkBlock.tx h :) (congrArg LinkBlock.reply h :), ?_, only_finish (only_link .refl (by decide))⟩
  exact finish_posted [] _ _ _ (congrArg LinkBlock.tx h :) (congrArg LinkBlock.notices h :)
    (congrArg LinkBlock.noticeLost h :) rfl rfl

/-- R187: the block after a byte has been buffered and the assembler has gone on. -/
def byteTaken (b : Byte) (now : Nat) (l : LinkBlock) : LinkBlock := drainItems (bufferByte b now l).input (bufferByte b now l)

theorem exec_byteReceived {b : Byte} (ha : alive s = true) :
    exec (.byteReceived b) s = .next (finish s { s with link := byteTaken b s.now s.link }) :=
  congrArg Host.Outcome.next (stepAlive_of_alive _ ha)

theorem byteTaken_besideInput (b : Byte) (now : Nat) (l : LinkBlock) :
    (byteTaken b now l).besideInput = l.besideInput := drainItems_besideInput ..

/-- R189: while a frame has ended and waits, the byte waits in the buffer. -/
theorem byteTaken_waits {b : Byte} {now : Nat} {l : LinkBlock} (h : l.ended ≠ []) :
    byteTaken b now l = bufferByte b now l := drainItems_waits _ h

/-- R187: a byte that waits behind nothing and is not late is assembled at once. -/
theorem byteTaken_assembled {b : Byte} {now : Nat} {l : LinkBlock} (he : l.ended = []) (hi : l.input = [])
    (hlate : now ≤ l.lastByteAt + 50) : ∃ m : LinkBlock, m.assembler = l.assembler ∧ m.ended = l.ended ∧ m.lost = l.lost
      ∧ byteTaken b now l = { assemble b now m with input := [] } := by
  have hload : inputLoad l = 0 := by unfold inputLoad; rw [hi, he]; rfl
  have hbuffered : bufferByte b now l = { l with input := [.byte b now] } := by
    unfold bufferByte; rw [hload, hi]; rfl
  refine ⟨bufferByte b now l, rfl, rfl, rfl, ?_⟩
  have htaken : takeItem (.byte b now) (bufferByte b now l) = assemble b now (bufferByte b now l) :=
    takeItem_byte (.inr hlate)
  rw [byteTaken, congrArg LinkBlock.input hbuffered, drainItems_cons (l := bufferByte b now l) _ _ he, htaken]; rfl

theorem timeoutFrame_eq {l : LinkBlock} (hi : l.input = []) : timeoutFrame l
    = endFrame (.fault (if l.lost = true then .overrun else .timeout) 0) { l with input := [] } := by
  unfold timeoutFrame
  rw [hi]
  cases hl : l.lost with
  | true => rfl
  | false => rfl

end Sys2Proof.Machine

open Sys2Proof Sys2Proof.Machine

/-- Settles O13: the assembler goes through SYNC, LEN, KIND with payload, and CHK (`drainItems_frame`); the KIND names the
command (`commandOf_hostFrame`). -/
theorem hostCommandsSurviveTheirFrames : Obligations.HostCommandsSurviveTheirFrames := by
  intro c k p l arrival hwf hc hhunt hlost hended hgap
  obtain ⟨hsound, hassembler⟩ := drainItems_frame (k := k) (payload_length hwf hc) hhunt hlost hended hgap
  exact ⟨hsound, hassembler, commandOf_hostFrame hwf hc⟩

/-- Settles O15: a byte is buffered and assembled (`byteTaken`), by the assembler's state. -/
theorem assemblerTakesReceivedByte : Obligations.AssemblerTakesReceivedByte := by
  refine ⟨fun b s ha => ?_, fun s ha hframe hi => ?_⟩
  · obtain ⟨hkept, hposted, honly⟩ := finish_input (byteTaken_besideInput b s.now s.link)
    obtain ⟨hinput, hended, hassembler, hlost⟩ := finish_besideBody s { s with link := byteTaken b s.now s.link }
    refine ⟨_, exec_byteReceived ha, hkept, hposted, honly, fun he => ?_, fun he hi hlate => ?_⟩
    · rw [hinput, hended, hassembler, byteTaken_waits he]; exact ⟨rfl, rfl, rfl⟩
    · obtain ⟨m, hma, hme, hml, htaken⟩ := byteTaken_assembled (b := b) he hi hlate
      rw [he] at hme
      rw [hinput, hended, hassembler, hlost, htaken, ← hma, ← hml]
      refine ⟨rfl, fun hs => ?_, fun hs h1 h2 => ?_, fun hs hr => ?_, fun len bs hs hne => ?_, fun len k bs hs hlen => ?_⟩
      · rw [assemble_hunt hs]
        split_ifs
        · exact ⟨hme, rfl, rfl⟩
        · exact ⟨hme, hs, rfl⟩
      · rw [assemble_length hs, if_pos ⟨h1, h2⟩]; exact ⟨hme, rfl⟩
      · rw [assemble_length hs, if_neg (by omega)]
        exact ⟨congrArg (· ++ [_]) hme, rfl, rfl⟩
      · rw [assemble_body hs, if_neg hne]; exact ⟨hme, rfl⟩
      · rw [assemble_body hs, if_pos (by rw [List.length_cons]; exact hlen), completeFrame_cons hlen]
        refine ⟨rfl, rfl, (congrArg (· ++ [_]) hme).trans ?_⟩
        show [_] = _
        split_ifs <;> rfl
  · let u : State := { s with now := max s.now (s.link.lastByteAt + 50), link := timeoutFrame s.link }
    have hexec : exec .frameTimeout s = .next (finish s u) := by
      refine congrArg Host.Outcome.next ?_
      have hdue : (inFrame s.link.assembler && noByteWaits s.link) = true := by
        unfold inFrame noByteWaits; rw [hi, decide_eq_true hframe]; rfl
      rw [stepAlive_of_alive _ ha, hdue]; rfl
    have hparts : OnlyChanges [.now, .input] s u := by
      intro p hp
      cases p
      case now | input => exact absurd (by decide) hp
      case clock => exact ⟨rfl, rfl⟩
      all_goals rfl
    obtain ⟨hinput, hended, hassembler, hlost⟩ := finish_besideBody s u
    refine ⟨_, hexec, finish_linkKept _ _ _ rfl rfl rfl rfl, finish_posted [] _ _ _ rfl rfl rfl rfl rfl,
      only_finish hparts, finish_now _ _, ?_⟩
    rw [hassembler, hlost, hinput, hended, show u.link = timeoutFrame s.link from rfl, timeoutFrame_eq hi]
    exact ⟨rfl, rfl, rfl, rfl⟩

end

section
/-! Incident readings; the loss of power (O38) and the first readings (O40). -/

namespace Sys2Proof.Machine

variable {s t u v : State}

/-! ### What an occurrence and a condition's end make of the map (R143 to R146, R154) -/

/-- R143: the map after an occurrence. -/
def countedMap (now : Option Time) (k : IncidentKind) (m : List Incident) : List Incident :=
  insertIncident (occurrenceEntry now k (findIncident k m)).1 m

/-- R146: the map after an entry's change. -/
def settledMap (e : Incident) (m : List Incident) : List Incident :=
  if removable e then removeIncident e.kind m else insertIncident e m

/-- R145: the map after a condition's end. -/
def endedMap (k : IncidentKind) (m : List Incident) : List Incident :=
  match findIncident k m with
  | none => m
  | some e => if e.active then settledMap { e with active := false } m else m

/-- R154: the map after a reading of a kind that is not urgent. -/
def readMap (present : Bool) (now : Option Time) (k : IncidentKind) (m : List Incident) : List Incident :=
  if present then (if (findIncident k m).any Incident.active then m else countedMap now k m) else endedMap k m

theorem countOccurrence_incd (k : IncidentKind) (s : State) :
    (countOccurrence k s).incd = { s.incd with map := countedMap s.store.clock k s.incd.map } := by
  unfold countOccurrence postIncident; rw [post_eq]; rfl

theorem settleEntry_incd (e : Incident) (c : IncidentCause) (s : State) :
    (settleEntry e c s).incd = { s.incd with map := settledMap e s.incd.map } := by
  unfold settleEntry settledMap postIncident
  split
  · rw [post_eq]; rfl
  · rw [post_eq]; rfl

theorem clearActive_endedMap (k : IncidentKind) (c : IncidentCause) (s : State) :
    (clearActive k c s).incd = { s.incd with map := endedMap k s.incd.map } := by
  unfold clearActive endedMap
  cases findIncident k s.incd.map with
  | none => rfl
  | some e =>
    dsimp only
    split
    · exact settleEntry_incd ..
    · rfl

theorem raiseIncident_plain {k : IncidentKind} (h : severityOf k ≠ .urgent) (s : State) :
    raiseIncident k s = countOccurrence k s := if_neg h

theorem readPresent_incd {k : IncidentKind} (h : severityOf k ≠ .urgent) (s : State) :
    (readPresent k s).incd = { s.incd with map := readMap true s.store.clock k s.incd.map } := by
  unfold readPresent readMap
  rw [raiseIncident_plain h, if_pos rfl]
  cases findIncident k s.incd.map with
  | none => exact countOccurrence_incd k s
  | some e =>
    dsimp only [Option.any]
    split
    · rfl
    · exact countOccurrence_incd k s

theorem reading_incd {k : IncidentKind} (h : severityOf k ≠ .urgent) (p : Bool) (s : State) :
    (reading p k s).incd = { s.incd with map := readMap p s.store.clock k s.incd.map } := by
  cases p with
  | true => exact readPresent_incd h s
  | false => exact clearActive_endedMap k .startup s

theorem readPresent_only {k : IncidentKind} (h : severityOf k ≠ .urgent) : OnlyChanges [.incd] s (readPresent k s) := by
  unfold readPresent
  rw [raiseIncident_plain h]
  split
  · split
    · exact .refl
    · exact countOccurrence_only
  · exact countOccurrence_only

theorem reading_only {k : IncidentKind} {p : Bool} (h : severityOf k ≠ .urgent) :
    OnlyChanges [.incd] s (reading p k s) := by
  cases p with
  | true => exact readPresent_only h
  | false => exact readAbsent_only

/-- A reading's map depends on the map and the clock alone. -/
theorem reading_incd_of {k : IncidentKind} {p : Bool} (h : severityOf k ≠ .urgent) (hi : t.incd = s.incd)
    (hc : t.store.clock = s.store.clock) : (reading p k t).incd = (reading p k s).incd := by
  rw [reading_incd h, reading_incd h, hi, hc]

/-! ### A loss of power (R74, R178) -/

/-- The state that a loss of power leaves. -/
def powerLost (torn : List AreaName) (s : State) : State :=
  { stopOutputs s with
    power := .off
    link := LinkBlock.fresh
    store := { (stopOutputs s).store with areas := (cutWrites torn s).foldl tearArea (stopOutputs s).store.areas } }

theorem exec_powerFail {torn : List AreaName} (h : s.power ≠ .off) :
    exec (.powerFail torn) s = .next (powerLost torn s) := if_neg h

theorem powerLost_only (torn : List AreaName) :
    OnlyChanges [.power, .raised, .line, .coin, .call, .input] s (powerLost torn s) := by
  intro p hp
  cases p
  case clock => exact ⟨rfl, rfl⟩
  case power | raised | line | coin | call | input => exact absurd (by decide) hp
  all_goals rfl

/-! ### The end of a start (R185) -/

theorem startDone_iff (h : s.power = .starting) : startDone s = true ↔
    readingsGiven s.store.start = true ∧ s.coin.run ≠ .startUp ∧ s.coin.run ≠ .purge := by
  simp only [startDone, h, Bool.and_eq_true, decide_eq_true_eq, and_assoc, true_and]

theorem exec_startComplete : exec .startComplete s = .next (if startDone s then finish s (completeStart s) else s) := rfl

/-! ### The first readings -/

theorem readingEnd_only {n : Nat} : OnlyChanges [.now] s (readingEnd s n) := only_reach

/-- The state of the key reading before INCD is told. -/
def keysRead (closed : List Key) (s : State) : State :=
  { s with
    pins := { s.pins with crossings := allKeys.map (fun k => closed.contains k) ++ s.pins.crossings.drop 13 }
    samplers := { s.samplers with keys := List.replicate 13 none }
    keys := { s.keys with cells := allKeys.map (fun k => cellAtStart s.now (closed.contains k)) }
    store := { s.store with start := { s.store.start with keysRead := true } } }

theorem keysRead_only (closed : List Key) : OnlyChanges [.keys, .pins, .samplers, .start] s (keysRead closed s) := by
  intro p hp
  cases p
  case clock => exact ⟨rfl, rfl⟩
  case keys | pins | samplers | start => exact absurd (by decide) hp
  all_goals rfl

theorem takeKeyReading_eq (closed : List Key) (s : State) :
    takeKeyReading closed s = reading (!closed.isEmpty) .keyStuck (keysRead closed s) := rfl

/-- The state of the hook reading before CALL takes its state. -/
def hookFound (off : Bool) (s : State) : State :=
  { s with
    pins := { s.pins with hookOff := off }
    samplers := { s.samplers with hook := none }
    keys := { s.keys with hook := if off then .offHook else .onHook }
    store := { s.store with start := { s.store.start with hookRead := true } } }

theorem hookFound_only (off : Bool) : OnlyChanges [.keys, .pins, .samplers, .start] s (hookFound off s) := by
  intro p hp
  cases p
  case clock => exact ⟨rfl, rfl⟩
  case keys | pins | samplers | start => exact absurd (by decide) hp
  all_goals rfl

theorem takeHookReading_eq (off : Bool) (s : State) :
    takeHookReading off s = if off then enterAbandoned (hookFound off s) else enterIdle (hookFound off s) := rfl

theorem takeHookReading_only (off : Bool) :
    OnlyChanges [.keys, .call, .pins, .samplers, .start] s (takeHookReading off s) := by
  rw [takeHookReading_eq]
  split
  · exact ((hookFound_only off).wider (by decide)).step enterAbandoned_only (by decide)
  · exact ((hookFound_only off).wider (by decide)).step enterIdle_only (by decide)

theorem setCallState_call (c : CallState) (s : State) : (setCallState c s).call = { s.call with
    state := c, level := levelIn c s.call.level, earpiece := stateTone s.keys.hook c, toneSince := s.now } := by
  unfold setCallState; rw [post_eq]

theorem enterIdle_call (s : State) : (enterIdle s).call = { s.call with
    abandonedTimer := none, rejectTimer := none, aliveTimer := none, warningTimer := none
    state := .idle, level := none, earpiece := .silent, toneSince := s.now } := setCallState_call _ _

theorem enterAbandoned_call (s : State) : (enterAbandoned s).call = { s.call with
    abandonedTimer := some (s.now + 600000), rejectTimer := some (s.now + 60000), aliveTimer := none
    warningTimer := none, state := .abandoned, level := none, earpiece := .reject, toneSince := s.now } :=
  setCallState_call _ _

end Sys2Proof.Machine

open Sys2Proof Sys2Proof.Machine

/-- Settles O38: what is cut off is named by `mem_cutWrites`; nothing retained but the torn copies is touched. -/
theorem powerFailKeepsRetainedState : Obligations.PowerFailKeepsRetainedState := by
  intro torn s h
  refine ⟨_, exec_powerFail h, rfl, rfl, rfl, rfl, rfl, rfl, rfl, rfl, rfl, fun a ha => (mem_cutWrites.1 ha).1,
    fun a ha ht => mem_cutWrites.2 ⟨ha, .inl ht⟩, fun hv ht a ha hname => ?_, fun hcall ht hcoin => ?_,
    powerLost_only torn⟩
  · rcases hname with rfl | rfl
    · exact mem_cutWrites.2 ⟨ha, .inr ⟨.vault, by simp [writtenBefore, hv], hv, ht⟩⟩
    · exact coin_cut_with_vault hv ha ht
  · exact coin_cut_with_call hcall hcoin ht

end

section
/-! The first readings of a start (O40). -/

namespace Sys2Proof.Machine

variable {s t u v : State}

/-! ### What leaves the key, the doors and the service state -/

/-- The fields of VAULT that the switches and the service key give. -/
def doorsOf (v : VaultBlock) : VaultBlock :=
  { v with counters := {}, nearFull := false, full := false, progress := none, last := none, number := 0, lastStroke := none }

/-- A step that leaves the key, the doors and the service state. -/
def SameDoors (s t : State) : Prop := doorsOf t.vault = doorsOf s.vault

theorem SameDoors.trans (h : SameDoors s u) (g : SameDoors u t) : SameDoors s t := Eq.trans g h

theorem SameDoors.of_only {l : List Part} (h : OnlyChanges l s t) (hl : .vault ∉ l) : SameDoors s t :=
  congrArg doorsOf (h .vault hl)

theorem vaultRefresh_vault (s : State) : (vaultRefresh s).vault = { s.vault with
    full := vaultAtCapacity s, nearFull := decide (s.config.nearFullMark ≤ s.vault.counters.total) } :=
  (congrArg (fun x : State => x.vault) (vaultRefresh_body s) :)

theorem vaultRefresh_doors : SameDoors s (vaultRefresh s) := by
  unfold SameDoors; rw [vaultRefresh_vault]; rfl

theorem strand_doors : SameDoors s (strand s) := by
  unfold strand
  split
  · rfl
  · refine .trans (.trans ?_ vaultRefresh_doors) (.of_only (only_of_body (l := []) (post_body ..)) nofun)
    exact .of_only (l := [.call, .coin]) (only_coin ((modifyOwner_only.wider (by decide)).step emptyList_only (by decide))
      (by decide)) (by decide)

theorem runStep_doors : SameDoors s (runStep s) := by
  have hrun : SameDoors s (if s.coin.order = .outOfOrder then endRun (strand s)
      else if s.coin.escrow.isEmpty then endRun s else if s.coin.mover ≠ .idle then s else beginStroke .refund s) := by
    split
    · exact strand_doors.trans (.of_only endRun_only (by decide))
    · split
      · exact .of_only endRun_only (by decide)
      · split
        · rfl
        · exact .of_only beginStroke_only (by decide)
  unfold runStep
  split
  · exact hrun
  · exact hrun
  · rfl
  · rfl

theorem askRefund_doors : SameDoors s (askRefund s) := by
  have hasked : SameDoors s { s with call := { s.call with refundAsked := true } } := rfl
  unfold askRefund
  split
  · dsimp only
    split
    · exact hasked.trans (.of_only refundNothing_only (by decide))
    · split
      · exact hasked.trans (.trans (u := { s with
          call := { s.call with refundAsked := true }
          coin := { s.coin with run := .callEnd, tally := {}, report := false } }) rfl runStep_doors)
      · rfl
  · rfl

theorem progress_doors : SameDoors s (progress s) := by
  have hbefore : OnlyChanges [.call, .coin, .log, .rate, .bank] s
      (clearAccount (storeClosing (storeAtStart (takeReport s)))) :=
    (((takeReport_only.wider (by decide)).step storeAtStart_only (by decide)).step storeClosing_only (by decide)).step
      clearAccount_only (by decide)
  exact ((SameDoors.of_only hbefore (by decide)).trans askRefund_doors).trans
    ((SameDoors.of_only takeReport_only (by decide)).trans (.of_only storeOpen_only (by decide)))

theorem endCall_doors {c : EndCause} {n : Nat} : SameDoors s (endCall c n s) := by
  have hbefore : OnlyChanges [.call, .keys, .line, .rate] s
      (tellRateEnd n (releaseCallLine (setCallState .clearing (keysStop (fixEnd c n s))))) :=
    ((((fixEnd_only.wider (by decide)).step keysStop_only (by decide)).step setCallState_only (by decide)).step
      releaseCallLine_only (by decide)).step tellRateEnd_only (by decide)
  exact (SameDoors.of_only hbefore (by decide)).trans progress_doors

theorem raiseIncident_doors {k : IncidentKind} : SameDoors s (raiseIncident k s) := by
  unfold raiseIncident
  dsimp only
  split
  · refine (SameDoors.of_only ((countOccurrence_only (k := k)).wider (by decide) |>.step urgentToReport_only (by decide))
      (l := [.incd, .rpt]) (by decide)).trans ?_
    unfold urgentToCall
    split
    · exact endCall_doors
    · rfl
  · exact .of_only countOccurrence_only (by decide)

theorem reading_doors {k : IncidentKind} {p : Bool} : SameDoors s (reading p k s) := by
  cases p with
  | true =>
    show SameDoors s (readPresent k s)
    unfold readPresent
    split
    · split
      · rfl
      · exact raiseIncident_doors
    · exact raiseIncident_doors
  | false => exact .of_only readAbsent_only (by decide)

theorem collectionAtStart_doors : SameDoors s (collectionAtStart s) := by
  unfold collectionAtStart
  split
  · split
    · rfl
    · unfold completeCollection
      split
      · rfl
      · refine SameDoors.trans (.trans (u := _) ?_ vaultRefresh_doors)
          (.of_only (only_post (l := []) (only_post .refl)) nofun)
        rfl
  · split
    · unfold startCollection
      split
      · rfl
      · exact .trans (u := { s with vault := { s.vault with progress := some s.store.clock } }) rfl
          (.of_only (only_post (l := []) .refl) nofun)
    · rfl

theorem doors_of (h : SameDoors s t) : t.vault.keyOn = s.vault.keyOn ∧ t.vault.vaultOpen = s.vault.vaultOpen
    ∧ t.vault.housingOpen = s.vault.housingOpen ∧ t.vault.service = s.vault.service
    ∧ t.vault.graceTimer = s.vault.graceTimer ∧ t.vault.vaultGrace = s.vault.vaultGrace
    ∧ t.vault.housingGrace = s.vault.housingGrace :=
  ⟨(congrArg VaultBlock.keyOn h :), (congrArg VaultBlock.vaultOpen h :), (congrArg VaultBlock.housingOpen h :),
    (congrArg VaultBlock.service h :), (congrArg VaultBlock.graceTimer h :), (congrArg VaultBlock.vaultGrace h :),
    (congrArg VaultBlock.housingGrace h :)⟩

/-! ### The switch reading (R137) -/

/-- The state of the switch reading with the switches taken. -/
def switchesFound (key vault housing : Bool) (s : State) : State :=
  { s with
    pins := { s.pins with keyOn := key, vaultOpen := vault, housingOpen := housing }
    samplers := { s.samplers with keyOn := none, vault := none, housing := none }
    vault := { s.vault with
      keyOn := key, vaultOpen := vault, housingOpen := housing
      service := if key then .service else .normal
      graceTimer := none, vaultGrace := false, housingGrace := false } }

/-- The state of the switch reading before the load is computed. -/
def doorsRead (key vault housing : Bool) (s : State) : State :=
  reading (housing && !key) .housingForced (reading (vault && !key) .vaultForced
    (collectionAtStart (switchesFound key vault housing s)))

theorem takeSwitchReading_eq (key vault housing : Bool) (s : State) : takeSwitchReading key vault housing s =
    postVault (postService .startup (loadAtStart (doorsRead key vault housing s))) := rfl

theorem doorsRead_doors {key vault housing : Bool} :
    SameDoors (switchesFound key vault housing s) (doorsRead key vault housing s) :=
  (collectionAtStart_doors.trans reading_doors).trans reading_doors

/-- R137 step 5: the load and the marks, computed. -/
def loadMarked (s : State) : State :=
  { s with
    vault := { s.vault with
      full := vaultAtCapacity s
      nearFull := decide (s.config.nearFullMark ≤ s.vault.counters.total) }
    store := { s.store with start := { s.store.start with switchesRead := true } } }

theorem loadAtStart_eq (s : State) : loadAtStart s = reading (vaultAtCapacity s) .vaultFull (loadMarked s) := rfl

theorem loadMarked_only : OnlyChanges [.vault, .start] s (loadMarked s) := by
  intro p hp
  cases p
  case clock => exact ⟨rfl, rfl⟩
  case vault | start => exact absurd (by decide) hp
  all_goals rfl

/-- The notices after the reading change nothing. -/
theorem takeSwitchReading_after {key vault housing : Bool} :
    OnlyChanges [.incd] (loadMarked (doorsRead key vault housing s)) (takeSwitchReading key vault housing s) := by
  rw [takeSwitchReading_eq, loadAtStart_eq]
  exact only_post (only_post (reading_only (by decide)))

theorem switchesFound_only {key vault housing : Bool} :
    OnlyChanges [.vault, .pins, .samplers] s (switchesFound key vault housing s) := by
  intro p hp
  cases p
  case clock => exact ⟨rfl, rfl⟩
  case vault | pins | samplers => exact absurd (by decide) hp
  all_goals rfl

theorem collectionAtStart_only : OnlyChanges [.vault, .incd] s (collectionAtStart s) := by
  unfold collectionAtStart
  split
  · split
    · exact .refl
    · exact completeCollection_only
  · split
    · exact startCollection_only.wider (by decide)
    · exact .refl

/-- With the key ON, or both doors CLOSED, no door is forced. -/
theorem doorsRead_only {key vault housing : Bool} (h : key = true ∨ (vault = false ∧ housing = false)) :
    OnlyChanges [.vault, .pins, .samplers, .incd] s (doorsRead key vault housing s) := by
  have hvault : (vault && !key) = false := by rcases h with rfl | ⟨rfl, rfl⟩ <;> simp
  have hhousing : (housing && !key) = false := by rcases h with rfl | ⟨rfl, rfl⟩ <;> simp
  unfold doorsRead
  rw [hvault, hhousing]
  exact (((switchesFound_only.wider (by decide)).step collectionAtStart_only (by decide)).step readAbsent_only
    (by decide)).step readAbsent_only (by decide)

/-- What a reading of any kind leaves: an urgent occurrence can end a call. -/
theorem reading_leaves {k : IncidentKind} {p : Bool} :
    OnlyChanges [.call, .coin, .vault, .incd, .rate, .bank, .keys, .log, .line, .rpt] s (reading p k s) := by
  cases p with
  | true =>
    show OnlyChanges _ s (readPresent k s)
    unfold readPresent
    split
    · split
      · exact .refl
      · exact raiseIncident_only
    · exact raiseIncident_only
  | false => exact readAbsent_only.wider (by decide)

theorem takeSwitchReading_now {key vault housing : Bool} : (takeSwitchReading key vault housing s).now = s.now := by
  have hread : (reading (housing && !key) .housingForced (reading (vault && !key) .vaultForced
      (collectionAtStart (switchesFound key vault housing s)))).now = s.now :=
    ((reading_leaves .now (by decide)).trans (reading_leaves .now (by decide))).trans
      ((collectionAtStart_only .now (by decide)).trans (switchesFound_only .now (by decide)))
  exact (takeSwitchReading_after .now (by decide)).trans ((loadMarked_only .now (by decide)).trans hread)

/-- R137 steps 2 and 5: the switches as found, and the marks of the load. -/
theorem takeSwitchReading_vault {key vault housing : Bool} :
    let t := takeSwitchReading key vault housing s
    t.vault.keyOn = key ∧ t.vault.vaultOpen = vault ∧ t.vault.housingOpen = housing
      ∧ t.vault.service = (if key = true then .service else .normal)
      ∧ t.vault.graceTimer = none ∧ t.vault.vaultGrace = false ∧ t.vault.housingGrace = false
      ∧ t.store.start.switchesRead = true
      ∧ t.vault.full = decide (t.config.vaultCapacity ≤ t.vault.counters.total + t.coin.escrow.length)
      ∧ t.vault.nearFull = decide (t.config.nearFullMark ≤ t.vault.counters.total) := by
  intro t
  have hafter : OnlyChanges [.incd] (loadMarked (doorsRead key vault housing s)) t := takeSwitchReading_after
  have hv : t.vault = (loadMarked (doorsRead key vault housing s)).vault := hafter .vault (by decide)
  have hc : t.config = (doorsRead key vault housing s).config := hafter .config (by decide)
  have hm : t.coin = (doorsRead key vault housing s).coin := hafter .coin (by decide)
  have hs : t.store.start = (loadMarked (doorsRead key vault housing s)).store.start := hafter .start (by decide)
  obtain ⟨hkey, hvault, hhousing, hservice, htimer, hvg, hhg⟩ := doors_of (doorsRead_doors (s := s)
    (key := key) (vault := vault) (housing := housing))
  rw [hv, hc, hm, hs]
  exact ⟨hkey, hvault, hhousing, hservice, htimer, hvg, hhg, rfl, rfl, rfl⟩

/-! ### The cord reading and the voltage reading (R61, R139, R154) -/

/-- The state of the cord reading before INCD is told. -/
def cordFound (isOpen : Bool) (s : State) : State :=
  { s with
    pins := { s.pins with cordOpen := s.pins.cordOpen || isOpen }
    samplers := { s.samplers with cord := none }
    incd := { s.incd with cordOpen := some isOpen }
    store := { s.store with start := { s.store.start with cordRead := true } } }

theorem cordFound_only {isOpen : Bool} : OnlyChanges [.pins, .samplers, .start, .incd] s (cordFound isOpen s) := by
  intro p hp
  cases p
  case clock => exact ⟨rfl, rfl⟩
  case pins | samplers | start | incd => exact absurd (by decide) hp
  all_goals rfl

theorem takeCordReading_eq (isOpen : Bool) (s : State) :
    takeCordReading isOpen s = reading isOpen .cordCut (cordFound isOpen s) := rfl

theorem takeCordReading_incd (isOpen : Bool) (s : State) :
    (takeCordReading isOpen s).incd = { (reading isOpen .cordCut s).incd with cordOpen := some isOpen } := by
  rw [takeCordReading_eq, reading_incd (by decide), reading_incd (by decide)]
  rfl

/-- The state of the voltage reading before INCD is told. -/
def voltageFound (absent : Bool) (s : State) : State :=
  { s with
    pins := { s.pins with voltage := if absent then false else s.pins.voltage }
    line := { s.line with voltSince := if absent then none else s.line.voltSince }
    store := { s.store with start := { s.store.start with voltageRead := true } } }

theorem voltageFound_only {absent : Bool} : OnlyChanges [.pins, .line, .start] s (voltageFound absent s) := by
  intro p hp
  cases p
  case clock => exact ⟨rfl, rfl⟩
  case pins | line | start => exact absurd (by decide) hp
  all_goals rfl

theorem takeVoltageReading_eq (absent : Bool) (s : State) : takeVoltageReading absent s =
    if absent then setWatch .cut (reading absent .lineCut (voltageFound absent s))
    else reading absent .lineCut (voltageFound absent s) := by
  cases absent <;> rfl

theorem takeVoltageReading_only (absent : Bool) :
    OnlyChanges [.pins, .line, .start, .incd] s (takeVoltageReading absent s) := by
  have hread : OnlyChanges [.pins, .line, .start, .incd] s (reading absent .lineCut (voltageFound absent s)) :=
    (voltageFound_only.wider (by decide)).step (reading_only (by decide)) (by decide)
  rw [takeVoltageReading_eq]
  split
  · exact hread.step setWatch_only (by decide)
  · exact hread

theorem setWatch_line (w : Watch) (s : State) : (setWatch w s).line = { s.line with watch := w } := by
  unfold setWatch postLine; rw [post_eq]

theorem takeVoltageReading_line (absent : Bool) (s : State) :
    (takeVoltageReading absent s).line.watch = if absent = true then .cut else s.line.watch := by
  rw [takeVoltageReading_eq]
  split
  · rw [setWatch_line]
  · exact (congrArg LineBlock.watch (reading_only (k := .lineCut) (p := absent) (by decide) .line (by decide)) :)

theorem takeVoltageReading_incd (absent : Bool) (s : State) :
    (takeVoltageReading absent s).incd = (reading absent .lineCut s).incd := by
  have hread : (reading absent .lineCut (voltageFound absent s)).incd = (reading absent .lineCut s).incd :=
    reading_incd_of (by decide) rfl rfl
  rw [takeVoltageReading_eq]
  split
  · exact (setWatch_only .incd (by decide)).trans hread
  · exact hread

theorem takeVoltageReading_start (absent : Bool) (s : State) :
    (takeVoltageReading absent s).store.start = { s.store.start with voltageRead := true } := by
  have hread : (reading absent .lineCut (voltageFound absent s)).store.start =
      { s.store.start with voltageRead := true } := reading_only (by decide) .start (by decide)
  rw [takeVoltageReading_eq]
  split
  · exact (setWatch_only .start (by decide)).trans hread
  · exact hread

/-! ### The five events -/

theorem exec_keyReadingEnd {l : List Key} (hp : s.power = .starting) (h : s.store.start.keysRead = false) :
    exec (.keyReadingEnd l) s = .next (finish s (takeKeyReading l (readingEnd s 30))) :=
  congrArg Host.Outcome.next (if_pos ⟨hp, h⟩)

theorem exec_hookReadingEnd {b : Bool} (hp : s.power = .starting) (h : s.store.start.hookRead = false) :
    exec (.hookReadingEnd b) s = .next (finish s (takeHookReading b (readingEnd s 100))) :=
  congrArg Host.Outcome.next (if_pos ⟨hp, h⟩)

theorem exec_switchReadingEnd {a b c : Bool} (hp : s.power = .starting) (h : s.store.start.switchesRead = false) :
    exec (.switchReadingEnd a b c) s = .next (finish s (takeSwitchReading a b c (readingEnd s 200))) :=
  congrArg Host.Outcome.next (if_pos ⟨hp, h⟩)

theorem exec_cordReadingEnd {b : Bool} (hp : s.power = .starting) (h : s.store.start.cordRead = false) :
    exec (.cordReadingEnd b) s = .next (finish s (takeCordReading b (readingEnd s 500))) :=
  congrArg Host.Outcome.next (if_pos ⟨hp, h⟩)

theorem exec_voltageReadingEnd {b : Bool} (hp : s.power = .starting) (h : s.store.start.voltageRead = false) :
    exec (.voltageReadingEnd b) s = .next (finish s (takeVoltageReading b (readingEnd s 2000))) :=
  congrArg Host.Outcome.next (if_pos ⟨hp, h⟩)

theorem finish_start (s0 s : State) : (finish s0 s).store.start = s.store.start := same_of_body (finish_body s0 s) .start

theorem finish_pins (s0 s : State) : (finish s0 s).pins = s.pins := same_of_body (finish_body s0 s) .pins

theorem takeKeyReading_only (l : List Key) :
    OnlyChanges [.keys, .pins, .samplers, .start, .incd] s (takeKeyReading l s) := by
  rw [takeKeyReading_eq]
  exact ((keysRead_only l).wider (by decide)).step (reading_only (by decide)) (by decide)

/-- R39, R154: the key reading's effect. -/
theorem keyReading_effect (l : List Key) (s : State) :
    let t := finish s (takeKeyReading l (readingEnd s 30))
    LinkKept s t ∧ t.now = max s.now (s.store.start.beganAt + 30)
      ∧ t.keys = { s.keys with cells := allKeys.map (fun k =>
          if l.contains k = true then ⟨.blocked, some (t.now + 20000), true⟩ else ⟨.released, none, false⟩) }
      ∧ t.store.start = { s.store.start with keysRead := true }
      ∧ t.incd = (reading (!l.isEmpty) .keyStuck s).incd
      ∧ OnlyChanges [.now, .keys, .pins, .samplers, .start, .incd] s t := by
  intro t
  have hread : OnlyChanges [.incd] (keysRead l (readingEnd s 30)) (takeKeyReading l (readingEnd s 30)) :=
    reading_only (by decide)
  have hnow : t.now = max s.now (s.store.start.beganAt + 30) :=
    (finish_now ..).trans (hread .now (by decide))
  have hkeys : t.keys = (keysRead l (readingEnd s 30)).keys := (finish_keys ..).trans (hread .keys (by decide))
  refine ⟨linkKept_of_kept (.after takeKeyReading_kept readingEnd_kept), hnow, ?_, ?_, ?_, ?_⟩
  · rw [hkeys, hnow]; rfl
  · exact (finish_start ..).trans (hread .start (by decide))
  · exact (finish_incd ..).trans (reading_incd_of (by decide) rfl rfl)
  · exact only_finish ((readingEnd_only.wider (by decide)).step (takeKeyReading_only l) (by decide))

/-- R28, R1: the hook reading's effect. -/
theorem hookReading_effect (off : Bool) (s : State) :
    let t := finish s (takeHookReading off (readingEnd s 100))
    LinkKept s t ∧ t.now = max s.now (s.store.start.beganAt + 100)
      ∧ t.keys = { s.keys with hook := if off = true then .offHook else .onHook }
      ∧ t.call.state = (if off = true then .abandoned else .idle) ∧ t.call.level = none
      ∧ t.call.abandonedTimer = (if off = true then some (t.now + 600000) else none)
      ∧ t.call.openSlot = s.call.openSlot ∧ t.store.start = { s.store.start with hookRead := true }
      ∧ OnlyChanges [.now, .keys, .call, .pins, .samplers, .start] s t := by
  intro t
  have hnow : t.now = max s.now (s.store.start.beganAt + 100) :=
    (finish_now ..).trans (takeHookReading_only off .now (by decide))
  have hfound : OnlyChanges [.call] (hookFound off (readingEnd s 100)) (takeHookReading off (readingEnd s 100)) := by
    rw [takeHookReading_eq]
    split
    · exact enterAbandoned_only
    · exact enterIdle_only
  have hcall : t.call = (takeHookReading off (readingEnd s 100)).call := finish_call ..
  refine ⟨linkKept_of_kept (.after takeHookReading_kept readingEnd_kept), hnow,
    (finish_keys ..).trans (hfound .keys (by decide)), ?_, ?_, ?_, ?_,
    (finish_start ..).trans (hfound .start (by decide)), ?_⟩
  case refine_5 => exact only_finish ((readingEnd_only.wider (by decide)).step (takeHookReading_only off) (by decide))
  all_goals
    simp only [hcall, hnow, takeHookReading_eq]
    cases off <;> simp [enterIdle_call, enterAbandoned_call, hookFound, readingEnd, reach]

/-- R137: the switch reading's effect on the switches and the marks. -/
theorem switchReading_effect (key vault housing : Bool) (s : State) :
    let t := finish s (takeSwitchReading key vault housing (readingEnd s 200))
    LinkKept s t ∧ t.now = max s.now (s.store.start.beganAt + 200) ∧ t.vault.keyOn = key ∧ t.vault.vaultOpen = vault
      ∧ t.vault.housingOpen = housing ∧ t.vault.service = (if key = true then .service else .normal)
      ∧ t.vault.graceTimer = none ∧ t.vault.vaultGrace = false ∧ t.vault.housingGrace = false
      ∧ t.store.start.switchesRead = true
      ∧ t.vault.full = decide (t.config.vaultCapacity ≤ t.vault.counters.total + t.coin.escrow.length)
      ∧ t.vault.nearFull = decide (t.config.nearFullMark ≤ t.vault.counters.total)
      ∧ (key = true ∨ (vault = false ∧ housing = false) →
          OnlyChanges [.now, .vault, .pins, .samplers, .start, .incd] s t) := by
  intro t
  have hnow : t.now = max s.now (s.store.start.beganAt + 200) := (finish_now ..).trans takeSwitchReading_now
  obtain ⟨hkey, hvault, hhousing, hservice, htimer, hvg, hhg, hread, hfull, hnear⟩ :=
    takeSwitchReading_vault (key := key) (vault := vault) (housing := housing) (s := readingEnd s 200)
  have htv : t.vault = (takeSwitchReading key vault housing (readingEnd s 200)).vault := finish_vault ..
  have htc : t.config = (takeSwitchReading key vault housing (readingEnd s 200)).config := finish_config ..
  have htm : t.coin = (takeSwitchReading key vault housing (readingEnd s 200)).coin := finish_coin ..
  have hts : t.store.start = (takeSwitchReading key vault housing (readingEnd s 200)).store.start := finish_start ..
  rw [htv, htc, htm, hts]
  refine ⟨linkKept_of_kept (.after takeSwitchReading_kept readingEnd_kept), hnow, hkey, hvault, hhousing, hservice, htimer,
    hvg, hhg, hread, hfull, hnear, fun hdoors => only_finish ?_⟩
  exact (((readingEnd_only.wider (by decide)).step (doorsRead_only hdoors) (by decide)).step loadMarked_only
    (by decide)).step takeSwitchReading_after (by decide)

/-- R139, R154: the cord reading's effect. -/
theorem cordReading_effect (isOpen : Bool) (s : State) :
    let t := finish s (takeCordReading isOpen (readingEnd s 500))
    LinkKept s t ∧ t.now = max s.now (s.store.start.beganAt + 500)
      ∧ t.incd = { (reading isOpen .cordCut s).incd with cordOpen := some isOpen }
      ∧ t.pins = { s.pins with cordOpen := s.pins.cordOpen || isOpen }
      ∧ t.store.start = { s.store.start with cordRead := true }
      ∧ OnlyChanges [.now, .pins, .samplers, .start, .incd] s t := by
  intro t
  have hread : OnlyChanges [.incd] (cordFound isOpen (readingEnd s 500)) (takeCordReading isOpen (readingEnd s 500)) :=
    reading_only (by decide)
  have hincd : (reading isOpen .cordCut (readingEnd s 500)).incd = (reading isOpen .cordCut s).incd :=
    reading_incd_of (by decide) rfl rfl
  refine ⟨linkKept_of_kept (.after takeCordReading_kept readingEnd_kept), (finish_now ..).trans (hread .now (by decide)),
    ?_, (finish_pins ..).trans (hread .pins (by decide)), (finish_start ..).trans (hread .start (by decide)), ?_⟩
  · exact (finish_incd ..).trans ((takeCordReading_incd ..).trans (by rw [hincd]))
  · exact only_finish (((readingEnd_only.wider (by decide)).step cordFound_only (by decide)).step hread (by decide))

/-- R61: the voltage reading's effect. -/
theorem voltageReading_effect (absent : Bool) (s : State) :
    let t := finish s (takeVoltageReading absent (readingEnd s 2000))
    LinkKept s t ∧ t.now = max s.now (s.store.start.beganAt + 2000)
      ∧ t.line.watch = (if absent = true then .cut else s.line.watch)
      ∧ t.incd = (reading absent .lineCut s).incd ∧ t.store.start = { s.store.start with voltageRead := true }
      ∧ OnlyChanges [.now, .pins, .line, .start, .incd] s t := by
  intro t
  have hline : t.line = (takeVoltageReading absent (readingEnd s 2000)).line := finish_line ..
  refine ⟨linkKept_of_kept (.after takeVoltageReading_kept readingEnd_kept),
    (finish_now ..).trans (takeVoltageReading_only absent .now (by decide)), ?_, ?_,
    (finish_start ..).trans (takeVoltageReading_start ..), ?_⟩
  · rw [hline]; exact takeVoltageReading_line ..
  · exact (finish_incd ..).trans ((takeVoltageReading_incd ..).trans (reading_incd_of (by decide) rfl rfl))
  · exact only_finish ((readingEnd_only.wider (by decide)).step (takeVoltageReading_only absent) (by decide))

/-- The state of a completed start. -/
def runningNow (s : State) : State := { s with power := .running, store := { s.store with marker := .running } }

/-- R185: the completion of a start. -/
theorem completeStart_effect (s : State) :
    LinkKept s (finish s (completeStart s)) ∧ Posted [⟨.started, startedNotice s⟩] s (finish s (completeStart s))
      ∧ (finish s (completeStart s)).body = (runningNow s).body := by
  have hkept : Kept True s (runningNow s) := .of_core rfl
  have htells : Tells [⟨.started, startedNotice s⟩] s (post .started (startedNotice s) (runningNow s)) :=
    (tells_post .started (startedNotice s) (runningNow s)).after (.of_same (s := s) rfl rfl)
  have hbody : (post .started (startedNotice s) (runningNow s)).body = (runningNow s).body := post_body ..
  refine ⟨linkKept_of_kept (.after post_kept hkept), htells.posted (post_tx ..) ?_ (creditKey_of_same ?_ ?_ ?_),
    (finish_body ..).trans hbody⟩
  · exact congrArg RateBlock.phase (same_of_body hbody .rate).symm
  · exact same_of_body hbody .rate
  · exact same_of_body hbody .call
  · exact same_of_body hbody .coin

end Sys2Proof.Machine

open Sys2Proof Sys2Proof.Machine

/-- Settles O40: each reading is its own map of the state at the reading's end, followed by INCD's reading of the
condition; the completion posts STARTED alone. -/
theorem firstReadingsCompleteTheStart : Obligations.FirstReadingsCompleteTheStart := by
  refine ⟨fun s hp => ⟨fun l h => ⟨_, exec_keyReadingEnd hp h, keyReading_effect l s⟩,
    fun b h => ⟨_, exec_hookReadingEnd hp h, hookReading_effect b s⟩,
    fun a b c h => ⟨_, exec_switchReadingEnd hp h, switchReading_effect a b c s⟩,
    fun b h => ⟨_, exec_cordReadingEnd hp h, cordReading_effect b s⟩,
    fun b h => ⟨_, exec_voltageReadingEnd hp h, voltageReading_effect b s⟩⟩, fun s hp => ⟨fun h => ?_, fun h => ?_⟩⟩
  · have hdone : startDone s = true := (startDone_iff hp).2 h
    exact ⟨_, exec_startComplete.trans (by rw [if_pos hdone]), completeStart_effect s⟩
  · have hnot : ¬ startDone s = true := fun hd => by
      obtain ⟨hgiven, hrun, hpurge⟩ := (startDone_iff hp).1 hd
      rcases h with h | h | h
      · rw [hgiven] at h; cases h
      · exact hrun h
      · exact hpurge h
    exact exec_startComplete.trans (by rw [if_neg hnot])

end

section
/-! INCD's sensors, and the map (O60). -/

namespace Sys2Proof.Machine

variable {s t u v : State}

/-! ### The map after an occurrence and after a condition's end (R143 to R146) -/

theorem occurrenceEntry_below {e : Incident} {k : IncidentKind} {now : Option Time} (h : e.count < 999) :
    (occurrenceEntry now k (some e)).1 =
      { e with count := e.count + 1, last := now, active := !momentary k || e.active } := by
  cases hm : momentary k <;> simp [occurrenceEntry, h, hm]

theorem occurrenceEntry_saturated {e : Incident} {k : IncidentKind} {now : Option Time} (h : 999 ≤ e.count) :
    (occurrenceEntry now k (some e)).1 = { e with
      last := now, active := !momentary k || e.active, reported := if e.reported = 999 then 998 else e.reported } := by
  cases hm : momentary k <;> simp [occurrenceEntry, Nat.not_lt.2 h, hm]

theorem endCondition_absent {k : IncidentKind} (h : findIncident k s.incd.map = none) : endCondition k s = s := by
  unfold endCondition clearActive; rw [h]

theorem endCondition_inactive {k : IncidentKind} {e : Incident} (h : findIncident k s.incd.map = some e)
    (ha : e.active = false) : endCondition k s = s := by
  unfold endCondition clearActive; rw [h]; exact if_neg (by rw [ha]; decide)

theorem endCondition_active {k : IncidentKind} {e : Incident} (h : findIncident k s.incd.map = some e)
    (ha : e.active = true) : endCondition k s = settleEntry { e with active := false } .ended s := by
  unfold endCondition clearActive; rw [h]; exact if_pos ha

/-- R146: an inactive entry is removed exactly when every occurrence of it has been reported. -/
theorem removable_iff (e : Incident) : removable { e with active := false } = true ↔ e.count ≤ e.reported := by
  simp [removable, Incident.unreported]

/-! ### The cord loop and the shock sensor (R139 to R141) -/

theorem setCord_only {b : Bool} : OnlyChanges [.incd, .pins, .samplers] s (setCord b s) := by
  intro p hp
  cases p
  case clock => exact ⟨rfl, rfl⟩
  case incd | pins | samplers => exact absurd (by decide) hp
  all_goals rfl

theorem exec_cordLoopOpen (ha : alive s = true) (h : s.incd.cordOpen = some false) :
    exec .cordLoopOpen s = .next (finish s (countOccurrence .cordCut (setCord true s))) :=
  congrArg Host.Outcome.next ((stepAlive_of_alive _ ha).trans (congrArg (finish s) (if_pos h)))

theorem exec_cordLoopClosed (ha : alive s = true) (h : s.incd.cordOpen = some true) :
    exec .cordLoopClosed s = .next (finish s (endCondition .cordCut (setCord false s))) :=
  congrArg Host.Outcome.next ((stepAlive_of_alive _ ha).trans (congrArg (finish s) (if_pos h)))

theorem exec_shockPulse (ha : alive s = true) : exec .shockPulse s = .next (finish s (shockPulseAct s)) :=
  congrArg Host.Outcome.next (stepAlive_of_alive _ ha)

theorem shockPulseAct_kept {wired : Prop} : Kept wired s (shockPulseAct s) := by
  unfold shockPulseAct; dsimp only; split
  · exact .after countOccurrence_kept setWindow_kept
  · exact setWindow_kept

theorem setWindow_only {w : List Nat} : OnlyChanges [.incd] s (setWindow w s) := only_incd .refl (by decide)

theorem shockPulseAct_only : OnlyChanges [.incd] s (shockPulseAct s) := by
  unfold shockPulseAct; dsimp only; split
  · exact setWindow_only.step countOccurrence_only (by decide)
  · exact setWindow_only

end Sys2Proof.Machine

open Sys2Proof Sys2Proof.Machine

/-- Settles O60: the sensors hand INCD an occurrence or a condition's end with the sensor's own state apart; the map is
read off the entry of the kind. -/
theorem occurrencesAndConditionEnds : Obligations.OccurrencesAndConditionEnds := by
  refine ⟨fun s ha => ⟨fun h => ?_, fun h => ?_, ?_⟩, fun k s => ⟨fun h => ⟨endCondition_absent h, ?_⟩,
    fun e h => ⟨endCondition_inactive h, fun hact hrep => ?_, fun hact hrep => ?_, fun hc => ?_, fun hc => ?_⟩⟩⟩
  · refine ⟨_, exec_cordLoopOpen ha h, linkKept_of_kept (.after countOccurrence_kept (.of_core rfl)), ?_, ?_⟩
    · rw [finish_incd, countOccurrence_incd, countOccurrence_incd]; rfl
    · exact only_finish (setCord_only.step countOccurrence_only (by decide))
  · refine ⟨_, exec_cordLoopClosed ha h, linkKept_of_kept (.after endCondition_kept (.of_core rfl)), ?_, ?_⟩
    · rw [finish_incd, endCondition, endCondition, clearActive_endedMap, clearActive_endedMap]; rfl
    · exact only_finish (setCord_only.step endCondition_only (by decide))
  · refine ⟨_, exec_shockPulse ha, linkKept_of_kept shockPulseAct_kept, only_finish shockPulseAct_only,
      fun h => ?_, fun h => ?_⟩
    · have hact : shockPulseAct s = setWindow (recentPulses s.now s.incd.window ++ [s.now]) s :=
        if_neg (Nat.not_le.2 h)
      rw [hact]
      exact ⟨finish_posted [] s s _ rfl rfl rfl rfl rfl, finish_incd ..⟩
    · have hact : shockPulseAct s = countOccurrence .shock (setWindow [] s) := if_pos h
      rw [hact, finish_incd, countOccurrence_incd, countOccurrence_incd]
      rfl
  · rw [countOccurrence_incd, countedMap, h]; rfl
  · rw [endCondition_active h hact, settleEntry, if_neg (fun hr => ?_)]
    · rfl
    · exact Nat.not_le.2 hrep ((removable_iff e).1 hr)
  · rw [endCondition_active h hact, settleEntry, if_pos ((removable_iff e).2 hrep)]
    have hk : e.kind = k := (findIncident_mem h).2
    rw [← hk]; rfl
  · rw [countOccurrence_incd, countedMap, h, occurrenceEntry_below hc]
  · rw [countOccurrence_incd, countedMap, h, occurrenceEntry_saturated hc]

end

section
/-! Events with an effect of their own: CALL's timers (O46), the validator (O53), the inlet (O56). -/

namespace Sys2Proof.Machine

variable {s t u v : State} {ns : List Notice}

/-! ### An event's effect on the running part -/

/-- An event that leaves what RATE's notice follows: LINK, the notices and the body after the step. -/
theorem finish_event (hl : Kept True s u) (hn : Tells ns s u) (hr : s.rate.phase = u.rate.phase)
    (hk : creditKey s = creditKey u) :
    LinkKept s (finish s u) ∧ Posted ns s (finish s u) ∧ (finish s u).body = u.body :=
  ⟨linkKept_of_kept hl, hn.posted (congrArg LinkBlock.tx (hl.wires trivial) :) hr hk, finish_body s u⟩

/-- An event that leaves LINK and the configuration posts nothing. -/
theorem finish_silent (hl : Kept True s u) (hlink : u.link = s.link) (hconfig : u.config = s.config)
    (hr : s.rate.phase = u.rate.phase) (hk : creditKey s = creditKey u) :
    LinkKept s (finish s u) ∧ Posted [] s (finish s u) ∧ (finish s u).body = u.body :=
  finish_event hl (.of_same hlink hconfig) hr hk

theorem only_now_call {n : Nat} {c : CallBlock} : OnlyChanges [.now, .call] s { s with now := n, call := c } := by
  intro p hp
  cases p
  case clock => exact ⟨rfl, rfl⟩
  case now | call => exact absurd (by decide) hp
  all_goals rfl

theorem exec_alive {f : State → State} (ha : alive s = true) (hu : f s = u) :
    (.next (stepAlive f s) : Host.Outcome State Fault Refusal) = .next (finish s u) := by
  rw [stepAlive_of_alive _ ha, hu]

/-! ### CALL's timers (R6, R20, R181) -/

theorem exec_abandonedTimeout {d : Nat} (ha : alive s = true) (hd : s.call.abandonedTimer = some d)
    (hs : s.call.state = .abandoned) : exec .abandonedTimeout s =
      .next (finish s (countOccurrence .hookStuck
        { s with now := max s.now d, call := { s.call with abandonedTimer := none } })) :=
  exec_alive ha (by simp only [hd]; rw [if_pos hs]; rfl)

theorem exec_rejectToneEnd {d : Nat} (ha : alive s = true) (hd : s.call.rejectTimer = some d)
    (hs : s.call.state = .abandoned) : exec .rejectToneEnd s =
      .next (finish s { s with
        now := max s.now d, call := { s.call with rejectTimer := none, earpiece := .silent } }) :=
  exec_alive ha (by simp only [hd]; rw [if_pos hs]; rfl)

theorem warned_iff (p : Phase) : warned p = true ↔ p = .warning ∨ p = .grace := by cases p <;> decide

theorem exec_warningRepeat {d : Nat} (ha : alive s = true) (hd : s.call.warningTimer = some d)
    (hs : s.call.state = .connected) (hp : warned s.rate.phase = true) : exec .warningRepeat s =
      .next (finish s { s with now := max s.now d, call := { s.call with
        lastWarning := some (max s.now d), warningTimer := some (max s.now d + 5000) } }) :=
  exec_alive ha (by simp only [hd]; rw [if_pos ⟨hs, hp⟩]; rfl)

theorem exec_lastAliveWrite {d : Nat} {sl : Slot} (ha : alive s = true) (hd : s.call.aliveTimer = some d)
    (hs : callExists s.call.state = true) (ho : s.call.openSlot = some sl) : exec .lastAliveWrite s =
      .next (finish s { s with now := max s.now d, call := { s.call with
        openSlot := some { sl with lastAlive := (max s.now d - sl.offAt) / 100 }, aliveTimer := some (d + 1000) } }) := by
  refine exec_alive ha ?_
  have hopen : (reach (some d) s).call.openSlot = some sl := ho
  simp only [hd]
  rw [if_pos hs, markAlive, hopen]
  rfl

/-- A slot whose record is unchanged carries the same amount in. -/
theorem creditKey_openSlot {n : Nat} {c : CallBlock} {sl : Slot} (ho : s.call.openSlot = some sl)
    (hc : c.openSlot.map Slot.record = some sl.record) (hclosing : c.closingSlot = s.call.closingSlot)
    (hstart : c.atStart = s.call.atStart) : creditKey s = creditKey { s with now := n, call := c } := by
  have hcarried : openCarried { s with now := n, call := c } = openCarried s := by
    cases hopen : c.openSlot with
    | none => rw [hopen] at hc; cases hc
    | some sl' =>
      rw [hopen] at hc
      have hrec : sl'.record = sl.record := Option.some.inj hc
      simp only [openCarried, hopen, ho, Option.map_some, Option.getD_some, hrec]
  have helse : escrowElsewhere { s with now := n, call := c } = escrowElsewhere s := by
    simp only [escrowElsewhere, hclosing, hstart]
  have hown : callE { s with now := n, call := c } = callE s := by simp only [callE, ownEscrow, helse]
  simp only [creditKey, hcarried, hown]

/-! ### The handset replaced in ABANDONED (R20, R28) -/

theorem exec_hookOn (ha : alive s = true) (hr : s.store.start.hookRead = true) (hh : s.keys.hook = .offHook) :
    exec .hookOn s = .next (finish s (callHookOn (setHook .onHook s))) :=
  exec_alive ha (if_pos ⟨hr, hh⟩)

theorem setHook_only {h : Hook} : OnlyChanges [.keys, .pins, .samplers] s (setHook h s) := by
  intro p hp
  cases p
  case clock => exact ⟨rfl, rfl⟩
  case keys | pins | samplers => exact absurd (by decide) hp
  all_goals rfl

theorem callHookOn_abandoned (h : s.call.state = .abandoned) :
    callHookOn s = endCondition .hookStuck (enterIdle (postHook s)) := by
  unfold callHookOn; rw [h]

/-! ### The earpiece (R6) -/

theorem warningSounds_iff (n : Nat) : warningSounds n = true ↔ n < 150 ∨ (300 ≤ n ∧ n < 450) := by
  simp [warningSounds]

theorem earpieceDrive_line (h : s.call.earpiece = .line) (hw : s.call.state ≠ .connected ∨ s.call.lastWarning = none) :
    earpieceDrive s = .line := by
  unfold earpieceDrive
  rw [h]
  rcases hw with hw | hw
  · cases s.call.lastWarning with
    | none => rfl
    | some w => exact if_neg fun hc => hw hc.1
  · rw [hw]

theorem earpieceDrive_warning {w : Nat} (h : s.call.earpiece = .line) (hs : s.call.state = .connected)
    (hw : s.call.lastWarning = some w) : earpieceDrive s =
      if s.now - w < 150 ∨ (300 ≤ s.now - w ∧ s.now - w < 450) then .lineWith 425 else .line := by
  unfold earpieceDrive
  rw [h, hw]
  simp only [hs, true_and, warningSounds_iff]
  rfl

/-! ### The validator (R62 to R64, R67) -/

theorem exec_validatorStrobe {c : BitVec 4} {b : Bool} (ha : alive s = true) :
    exec (.validatorStrobe c b) s = .next (finish s (answerStrobe c.toNat b s)) := exec_alive ha rfl

theorem exec_strobeFall (ha : alive s = true) : exec .strobeFall s = .next (finish s (setLatch .none s)) :=
  exec_alive ha rfl

theorem answerStrobe_accepts {code : Nat} {b : Bool} (h : rejectReason code s = none) :
    answerStrobe code b s = acceptCoin code b s := by unfold answerStrobe; rw [h]

theorem answerStrobe_rejects {code : Nat} {b : Bool} {r : RejectReason} (h : rejectReason code s = some r) :
    answerStrobe code b s = postCoin (.rejected r code) (setLatch .reject s) := by unfold answerStrobe; rw [h]

theorem blindCollectCoin_eq (c : CoinBlock) :
    blindCollectCoin c = if c.blind = true ∧ c.mover = .collecting then 1 else 0 := by simp [blindCollectCoin]

/-- R63: the coin is accepted exactly when none of the eleven tests fails. -/
theorem rejectReason_none_iff (code : Nat) (s : State) : rejectReason code s = none ↔
    s.coin.transit = none ∧ 1 ≤ code ∧ code ≤ 8
      ∧ s.config.denomEnabled.getD (code - 1) false = true ∧ s.coin.inletFault = false
      ∧ s.coin.lockoutTimer = none ∧ s.coin.order = .inOrder ∧ s.vault.vaultOpen = false
      ∧ s.vault.counters.total + s.coin.escrow.length + 1
          + (if s.coin.blind = true ∧ s.coin.mover = .collecting then 1 else 0) ≤ s.config.vaultCapacity
      ∧ coinPermission s.call.state = true ∧ s.coin.run = .none ∧ s.coin.escrow.length < 12 := by
  have horder : ¬ s.coin.order = .outOfOrder ↔ s.coin.order = .inOrder := by cases s.coin.order <;> decide
  unfold rejectReason
  rw [← blindCollectCoin_eq]
  simp only [ite_some_eq_none_iff, vaultLoad, Option.isSome_iff_ne_none, ne_eq, not_not, not_or,
    Nat.not_lt, Bool.not_eq_true, Bool.not_eq_false, horder, Nat.not_le, and_assoc, and_true]

theorem acceptCoin_effect {code : Nat} {b : Bool} (h : rejectReason code s = none) :
    LinkKept s (finish s (acceptCoin code b s)) ∧ Posted [] s (finish s (acceptCoin code b s))
      ∧ (finish s (acceptCoin code b s)).body = (acceptCoin code b s).body :=
  finish_silent (by rw [← answerStrobe_accepts h]; exact answerStrobe_kept) rfl rfl rfl rfl

theorem postCoin_tells (o : CoinOutcome) (s : State) : Tells [⟨.coin, coinNotice o s⟩] s (postCoin o s) := tells_post ..

theorem postCoin_body (o : CoinOutcome) (s : State) : (postCoin o s).body = s.body := post_body ..

theorem rejectedCoin_effect {code : Nat} (r : RejectReason) :
    let u := postCoin (.rejected r code) (setLatch .reject s)
    LinkKept s (finish s u) ∧ Posted [⟨.coin, coinNotice (.rejected r code) s⟩] s (finish s u)
      ∧ (finish s u).body = (setLatch .reject s).body := by
  intro u
  have hbody : u.body = (setLatch .reject s).body := postCoin_body ..
  have htells : Tells [⟨.coin, coinNotice (.rejected r code) s⟩] s u :=
    (postCoin_tells (.rejected r code) (setLatch .reject s)).after (.of_same (s := s) rfl rfl)
  have hkey : creditKey (setLatch .reject s) = creditKey u := (post_creditKey ..).symm
  obtain ⟨hlink, hposted, hb⟩ := finish_event (s := s) (u := u) (.after post_kept setLatch_kept) htells
    (congrArg RateBlock.phase (same_of_body hbody .rate)).symm hkey
  exact ⟨hlink, hposted, hb.trans hbody⟩

/-! ### The jam line (R69) -/

theorem exec_jamLineAsserted (ha : alive s = true) (h : s.pins.jam = false) :
    exec .jamLineAsserted s = .next (finish s (setJamTimer (s.after jamLineMs) (setJam true s))) := by
  have hnot : ¬ s.pins.jam = true := by rw [h]; decide
  show Host.Outcome.next _ = _
  rw [if_neg hnot, if_pos ha, stepAlive_of_alive _ ha]

theorem exec_jamLineReleased (ha : alive s = true) :
    exec .jamLineReleased s = .next (finish s (setJamTimer none (setJam false s))) := by
  show Host.Outcome.next _ = _
  rw [if_pos ha, stepAlive_of_alive _ ha]

theorem exec_jamLineTimeout {d : Nat} (ha : alive s = true) (hd : s.coin.jamTimer = some d) :
    exec .jamLineTimeout s = .next (finish s (setInletFault (setJamTimer none (reach (some d) s)))) :=
  exec_alive ha (by simp only [hd])

theorem setInletFault_body (s : State) : (setInletFault s).body = { s with
    coin := { s.coin with inletFault := true }
    incd := if s.coin.inletFault = true then s.incd else (countOccurrence .inletJam s).incd }.body := by
  unfold setInletFault
  split
  · next h =>
    have hcoin : { s.coin with inletFault := true } = s.coin := by rw [← h]
    rw [hcoin]
  · rw [countOccurrence_body, countOccurrence_incd, countOccurrence_incd]

/-! ### The chute (R79, R80) -/

theorem exec_reversalPulse (ha : alive s = true) : exec .reversalPulse s =
    .next (finish s (markRecent (countOccurrence .chuteReversal
      { s with coin := { s.coin with lockoutTimer := s.after lockoutMs } }))) := exec_alive ha rfl

theorem recentCoin_eq (now : Nat) (o : Option Nat) : recentCoin now o = o.any (fun i => decide (now - i ≤ 2000)) := by
  cases o <;> rfl

theorem markRecent_coin (s : State) : (markRecent s).coin = { s.coin with
    escrow := s.coin.escrow.map (fun e =>
      if e.entryAt.any (fun i => decide (s.now - i ≤ 2000)) = true then { e with suspect := true } else e)
    transit := s.coin.transit.map (fun x => if s.now - x.acceptAt ≤ 2000 then { x with suspect := true } else x) } := by
  have hescrow : s.coin.escrow.map (markEntry s.now) = s.coin.escrow.map (fun e =>
      if e.entryAt.any (fun i => decide (s.now - i ≤ 2000)) = true then { e with suspect := true } else e) := by
    refine congrArg (List.map · s.coin.escrow) (funext fun e => ?_)
    simp only [markEntry, recentCoin_eq]
  have htransit : s.coin.transit.map (fun x => if recentCoin s.now (some x.acceptAt) then { x with suspect := true } else x)
      = s.coin.transit.map (fun x => if s.now - x.acceptAt ≤ 2000 then { x with suspect := true } else x) := by
    refine congrArg (Option.map · s.coin.transit) (funext fun x => ?_)
    simp only [recentCoin_eq, Option.any_some, decide_eq_true_eq]
  rw [← hescrow, ← htransit]
  unfold markRecent
  dsimp only
  split
  · rfl
  · exact modifyOwner_only .coin (by decide)

theorem exec_lockoutExpiry {d : Nat} (ha : alive s = true) (hd : s.coin.lockoutTimer = some d) :
    exec .lockoutExpiry s = .next (finish s (endCondition .chuteReversal
      { s with now := max s.now d, coin := { s.coin with lockoutTimer := none } })) :=
  exec_alive ha (by simp only [hd]; rfl)

end Sys2Proof.Machine

open Sys2Proof Sys2Proof.Machine

/-- Settles O46: each timer in its state has one effect; the earpiece is read off its tone. -/
theorem callTimersActInTheirStates : Obligations.CallTimersActInTheirStates := by
  refine ⟨fun s ha => ⟨fun d hd hs => ?_, fun d hd hs => ?_, fun d hd hs hp => ?_, fun d sl hd hs ho => ?_,
    fun hs hr hh => ?_⟩, fun s => ⟨fun h => ?_, fun h => ?_, fun h => ?_, fun h => ?_, earpieceDrive_line,
      fun w => earpieceDrive_warning⟩⟩
  · refine ⟨_, exec_abandonedTimeout ha hd hs, linkKept_of_kept (.after countOccurrence_kept (.of_core rfl)), ?_, ?_, ?_,
      ?_⟩
    · exact (finish_now ..).trans (countOccurrence_only .now (by decide))
    · exact (finish_call ..).trans (countOccurrence_only .call (by decide))
    · rw [finish_incd, countOccurrence_incd, countOccurrence_incd]
    · exact only_finish ((only_now_call.wider (by decide)).step countOccurrence_only (by decide))
  · exact ⟨_, exec_rejectToneEnd ha hd hs, finish_silent (.of_core rfl) rfl rfl rfl rfl⟩
  · exact ⟨_, exec_warningRepeat ha hd hs ((warned_iff _).2 hp), finish_silent (.of_core rfl) rfl rfl rfl rfl⟩
  · exact ⟨_, exec_lastAliveWrite ha hd hs ho,
      finish_silent (.of_core rfl) rfl rfl rfl (creditKey_openSlot ho rfl rfl rfl)⟩
  · refine ⟨_, exec_hookOn ha hr hh, linkKept_of_kept (.after callHookOn_kept setHook_kept), ?_⟩
    have hon : callHookOn (setHook .onHook s) =
        endCondition .hookStuck (enterIdle (postHook (setHook .onHook s))) := callHookOn_abandoned hs
    have hposted : OnlyChanges [.keys, .pins, .samplers] s (postHook (setHook .onHook s)) := only_post setHook_only
    have hkeys : (postHook (setHook .onHook s)).keys = { s.keys with hook := .onHook } :=
      same_of_body (post_body ..) .keys
    have hidle : OnlyChanges [.call, .keys, .pins, .samplers] s (enterIdle (postHook (setHook .onHook s))) :=
      (hposted.wider (by decide)).step enterIdle_only (by decide)
    have hend : OnlyChanges [.incd] (enterIdle (postHook (setHook .onHook s))) (callHookOn (setHook .onHook s)) := by
      rw [hon]; exact endCondition_only
    have hcall : (finish s (callHookOn (setHook .onHook s))).call = { s.call with
        abandonedTimer := none, rejectTimer := none, aliveTimer := none, warningTimer := none
        state := .idle, level := none, earpiece := .silent, toneSince := s.now } := by
      rw [finish_call, hend .call (by decide), enterIdle_call, hposted .call (by decide), hposted .now (by decide)]
    rw [hcall]
    refine ⟨rfl, rfl, rfl, ?_, ?_, ?_⟩
    · rw [finish_keys, hend .keys (by decide), enterIdle_only .keys (by decide), hkeys]
    · rw [finish_incd, hon]
      exact endCondition_incd ((enterIdle_only .incd (by decide)).trans (hposted .incd (by decide)))
    · exact only_finish ((hidle.wider (by decide)).step hend (by decide))
  all_goals unfold earpieceDrive; rw [h]
  all_goals rfl

/-- Settles O53: the reason is none exactly when no test fails; the latch holds the answer. -/
theorem validatorAcceptsOnElevenTests : Obligations.ValidatorAcceptsOnElevenTests := by
  refine fun s ha => ⟨fun c b => ⟨_, exec_validatorStrobe ha, linkKept_of_kept answerStrobe_kept,
    rejectReason_none_iff _ _, fun h => ?_, fun r h => ?_⟩, ?_⟩
  · rw [answerStrobe_accepts h]
    obtain ⟨-, hposted, hbody⟩ := acceptCoin_effect (b := b) h
    exact ⟨hposted, hbody⟩
  · rw [answerStrobe_rejects h]
    obtain ⟨-, hposted, hbody⟩ := rejectedCoin_effect (s := s) (code := c.toNat) r
    exact ⟨hposted, hbody⟩
  · exact ⟨_, exec_strobeFall ha, finish_silent setLatch_kept rfl rfl rfl rfl⟩

/-- Settles O56: the jam line's timer, the chute's pulse and the lockout's end, each with its condition. -/
theorem inletFaultsAndLockouts : Obligations.InletFaultsAndLockouts := by
  refine fun s ha => ⟨fun h => ?_, ?_, fun d hd => ?_, ?_, fun d hd => ?_⟩
  · exact ⟨_, exec_jamLineAsserted ha h, finish_silent (.after setJamTimer_kept setJam_kept) rfl rfl rfl rfl⟩
  · exact ⟨_, exec_jamLineReleased ha, finish_silent (.after setJamTimer_kept setJam_kept) rfl rfl rfl rfl⟩
  · refine ⟨_, exec_jamLineTimeout ha hd, linkKept_of_kept (.after setInletFault_kept (.after setJamTimer_kept reach_kept)),
      (finish_body ..).trans ((setInletFault_body _).trans ?_)⟩
    rw [countOccurrence_incd, countOccurrence_incd]
    rfl
  · refine ⟨_, exec_reversalPulse ha, linkKept_of_kept (.after markRecent_kept (.after countOccurrence_kept
      (.of_same_coins _ rfl))), ?_, ?_, ?_⟩
    · rw [finish_coin, markRecent_coin, countOccurrence_only .coin (by decide), countOccurrence_only .now (by decide)]
      rfl
    · rw [finish_incd, markRecent_only .incd (by decide), countOccurrence_incd, countOccurrence_incd]
    · exact only_finish (((only_coin (l := [.coin, .incd, .call]) .refl (by decide)).step countOccurrence_only
        (by decide)).step markRecent_only
        (by decide))
  · refine ⟨_, exec_lockoutExpiry ha hd, linkKept_of_kept (.after endCondition_kept ?_), (finish_body ..).trans ?_⟩
    · exact .after (.of_same_coins (s := reach (some d) s) _ rfl) reach_kept
    · exact endCondition_body_of rfl

end

section
/-! RPT: the attempt (O51) and its timers (O52). -/

namespace Sys2Proof.Machine

variable {s t u v : State}

/-! ### RPT at the end of a step (R156, R157) -/

/-- R156: RPT's state at the end of a step. -/
def followed (wanted : Bool) : ReportState → ReportState
  | .idle | .readyToStart => if wanted then .readyToStart else .idle
  | x => x

theorem rptFollow_rpt (s : State) :
    (rptFollow s).rpt = { s.rpt with state := followed (reportWanted s) s.rpt.state } := by
  unfold rptFollow
  cases h : s.rpt.state with
  | idle => cases hw : reportWanted s <;> simp [followed, ← h]
  | readyToStart => cases hw : reportWanted s <;> simp [followed, ← h]
  | wait | seize | dial | awaitReady | send | awaitAck | close => simp [followed, ← h]

/-- The end of a step leaves RPT but for the state between attempts and the idle guard. -/
theorem finish_rpt_eq (s0 s : State) : ∃ q, (finish s0 s).rpt =
    { s.rpt with state := followed (reportWanted s) s.rpt.state, quietSince := q } :=
  ⟨_, by rw [finish_rpt, guardFollow, rptFollow_rpt]⟩

/-! ### The line released (R43) -/

/-- R43: the line after its release. -/
def releasedLine (s : State) : LineBlock :=
  { s.line with
    state := .guard
    owner := .none
    guardTimer := some (s.now + 1500)
    dialToneTimer := none
    sendTimer := none
    armed := false
    absentSince := none
    reported := false
    reversed := false
    answered := false
    holdSince := none
    progress := {}
    meter := {}
    centre := {}
    detectorTimer := none
    sender := none
    voltSince := if s.pins.voltage = decide (s.line.watch = .present) then none else s.after 0 }

theorem release_closed (h : loopClosed s.line.state = true) : release s = { s with line := releasedLine s } := if_pos h

theorem release_rpt (s : State) : (release s).rpt = s.rpt := by unfold release; split <;> rfl

theorem release_now (s : State) : (release s).now = s.now := release_only .now (by decide)

/-! ### The ends of an attempt (R164, R165) -/

/-- RPT with the attempt left. -/
def leftRpt (r : RptBlock) : RptBlock :=
  { r with readyTimer := none, ackTimer := none, closeTimer := none, blocks := none, index := 0, sends := 0 }

theorem leaveAttempt_eq (s : State) : leaveAttempt s = { release s with rpt := leftRpt s.rpt } := by
  unfold leaveAttempt; dsimp only; rw [release_rpt]; rfl

/-- R165: RPT after a failure. -/
def failedRpt (s : State) : RptBlock :=
  { leftRpt s.rpt with
    failures := min 255 (s.rpt.failures + 1)
    urgentFailures := min 3 (s.rpt.urgentFailures + 1)
    state := .wait
    backoffTimer := some (s.now + backoffMs (min 255 (s.rpt.failures + 1)))
    minuteTimer := some (s.now + 60000)
    savedWait := backoffMs (min 255 (s.rpt.failures + 1)) / 100 }

theorem failAttempt_rpt (f : ReportFailure) (s : State) : (failAttempt f s).rpt = failedRpt s := by
  unfold failAttempt postReport startWait State.after
  rw [post_eq, leaveAttempt_eq, release_now]
  rfl

theorem failAttempt_line (f : ReportFailure) (h : loopClosed s.line.state = true) :
    (failAttempt f s).line = releasedLine s := by
  unfold failAttempt postReport startWait
  rw [post_eq, leaveAttempt_eq, release_closed h]

/-- R164: RPT after a completed attempt. -/
def completedRpt (s : State) : RptBlock :=
  { leftRpt s.rpt with
    failures := 0, urgentFailures := 0, backoffTimer := none, minuteTimer := none, savedWait := 0
    state := if reportWanted s then .readyToStart else .idle }

theorem completeAttempt_rpt (s : State) : (completeAttempt s).rpt = completedRpt s := by
  have hw : reportWanted (leaveAttempt s) = reportWanted s :=
    reportWanted_of_same (leaveAttempt_only .incd (by decide)) (leaveAttempt_only .config (by decide))
  unfold completedRpt
  rw [← hw]
  unfold completeAttempt postReport restState
  rw [post_eq, leaveAttempt_eq]
  rfl

theorem completeAttempt_line (h : loopClosed s.line.state = true) : (completeAttempt s).line = releasedLine s := by
  unfold completeAttempt postReport restState
  rw [post_eq, leaveAttempt_eq, release_closed h]

/-- R164: the step that completes an attempt. -/
theorem finish_completed {s0 : State} (h : loopClosed u.line.state = true) :
    let t := finish s0 (completeAttempt u)
    t.line = releasedLine u ∧ t.rpt.failures = 0 ∧ t.rpt.urgentFailures = 0 ∧ t.rpt.savedWait = 0
      ∧ t.rpt.backoffTimer = none ∧ t.rpt.closeTimer = none ∧ t.rpt.blocks = none
      ∧ t.rpt.state = (if reportWanted u = true then .readyToStart else .idle) := by
  intro t
  have hw : reportWanted (completeAttempt u) = reportWanted u :=
    reportWanted_of_same (completeAttempt_only .incd (by decide)) (completeAttempt_only .config (by decide))
  obtain ⟨q, hq⟩ := finish_rpt_eq s0 (completeAttempt u)
  rw [completeAttempt_rpt, hw] at hq
  refine ⟨(finish_line ..).trans (completeAttempt_line h), ?_⟩
  rw [hq]
  refine ⟨rfl, rfl, rfl, rfl, rfl, rfl, ?_⟩
  unfold completedRpt
  cases reportWanted u <;> rfl

/-- R165: the step that fails an attempt. -/
theorem finish_failed {s0 : State} (f : ReportFailure) (h : loopClosed u.line.state = true) :
    let t := finish s0 (failAttempt f u)
    t.now = u.now ∧ t.line = releasedLine u ∧ ∃ q, t.rpt = { failedRpt u with quietSince := q } := by
  intro t
  obtain ⟨q, hq⟩ := finish_rpt_eq s0 (failAttempt f u)
  rw [failAttempt_rpt] at hq
  exact ⟨(finish_now ..).trans (failAttempt_only .now (by decide)), (finish_line ..).trans (failAttempt_line f h), q, hq⟩

/-! ### Strings sent in band (R56, R163) -/

/-- R56: RPT holds the line in SEIZED, and sends nothing. -/
def InBand (s : State) : Prop := s.line.state = .seized ∧ s.line.owner = .rpt ∧ s.line.sender = none

theorem InBand.closed (h : InBand s) : loopClosed s.line.state = true := by rw [h.1]; rfl

/-- R163: RPT sends a string for the `n`th time. -/
def sending (n : Nat) (l : List Dtmf) (s : State) : State :=
  { s with
    rpt := { s.rpt with state := .send, sends := n }
    line := { s.line with sender := some (l, s.now + 160 * l.length), centre := {} } }

theorem sendInBand_free (l : List Dtmf) (h : InBand s) : sendInBand l s =
    { s with line := { s.line with sender := some (l, s.now + 160 * l.length), centre := {} } } := by
  rw [Nat.mul_comm]; exact if_pos h

theorem sendInHand_block {n : Nat} {b : ReportBlock} (h : InBand s) (hb : blockInHand s.rpt = some b) :
    sendInHand n s = sending n (blockString b) s := by
  unfold sendInHand
  rw [hb]
  exact sendInBand_free _ (s := { s with rpt := { s.rpt with state := .send, sends := n } }) h

theorem sendInHand_done {n : Nat} (h : InBand s) (hb : blockInHand s.rpt = none) :
    sendInHand n s = sending 0 [.d] s := by
  unfold sendInHand
  rw [hb]
  exact sendInBand_free _ (s := { s with rpt := { s.rpt with state := .send, sends := 0 } }) h

theorem blockInHand_eq (r : RptBlock) : blockInHand r = (r.blocks.getD [])[r.index]? := by
  unfold blockInHand; cases r.blocks <;> rfl

theorem finish_sending {s0 : State} (n : Nat) (l : List Dtmf) : ∃ q, (finish s0 (sending n l u)).rpt =
    { u.rpt with state := .send, sends := n, quietSince := q } := finish_rpt_eq s0 (sending n l u)

/-! ### RPT's timers (R160, R163, R164, R166) -/

theorem exec_readyTimeout {d : Nat} (ha : alive s = true) (hd : s.rpt.readyTimer = some d)
    (hs : s.rpt.state = .awaitReady) :
    exec .readyTimeout s = .next (finish s (failAttempt .noReady (reach (some d) s))) :=
  exec_alive ha (by simp only [hd]; exact if_pos hs)

theorem exec_ackTimeout {d : Nat} (ha : alive s = true) (hd : s.rpt.ackTimer = some d) (hs : s.rpt.state = .awaitAck) :
    exec .ackTimeout s = .next (finish s (sendFailed (reach (some d) s))) :=
  exec_alive ha (by simp only [hd]; exact if_pos hs)

theorem exec_closeTimeout {d : Nat} (ha : alive s = true) (hd : s.rpt.closeTimer = some d) (hs : s.rpt.state = .close) :
    exec .closeTimeout s = .next (finish s (completeAttempt (reach (some d) s))) :=
  exec_alive ha (by simp only [hd]; exact if_pos hs)

theorem exec_backoffExpiry {d : Nat} (ha : alive s = true) (hd : s.rpt.backoffTimer = some d)
    (hs : s.rpt.state = .wait) : exec .backoffExpiry s = .next (finish s (endWait (reach (some d) s))) :=
  exec_alive ha (by simp only [hd]; exact if_pos hs)

theorem exec_waitMinuteWrite {d : Nat} (ha : alive s = true) (hd : s.rpt.minuteTimer = some d)
    (hs : s.rpt.state = .wait) : exec .waitMinuteWrite s = .next (finish s (writeWait (reach (some d) s))) :=
  exec_alive ha (by simp only [hd]; exact if_pos hs)

/-- RPT's ACK timer stopped. -/
def ackStopped (s : State) : State := { s with rpt := { s.rpt with ackTimer := none } }

/-- R163: a failed send is repeated while it has been sent fewer than three times. -/
theorem sendFailed_again {b : ReportBlock} (h : InBand s) (hb : blockInHand s.rpt = some b) (hn : s.rpt.sends < 3) :
    sendFailed s = sending (s.rpt.sends + 1) (blockString b) (ackStopped s) := by
  have hsend : sendFailed s = sendInHand (s.rpt.sends + 1) (ackStopped s) := if_pos hn
  rw [hsend]
  exact sendInHand_block (s := ackStopped s) h hb

theorem sendFailed_last (hn : 3 ≤ s.rpt.sends) : sendFailed s = failAttempt .noAck (ackStopped s) :=
  if_neg (Nat.not_lt.2 hn)

theorem remainingWait_eq (s : State) : remainingWait s = s.rpt.backoffTimer.getD 0 - s.now := by
  unfold remainingWait
  cases s.rpt.backoffTimer with
  | none => exact (Nat.zero_sub _).symm
  | some d => rfl

theorem writeWait_kept {wired : Prop} : Kept wired s (writeWait s) := .of_rpt _

theorem backoffMs_table : backoffMs 1 = 120000 ∧ backoffMs 2 = 300000 ∧ backoffMs 3 = 900000
    ∧ ∀ n, 4 ≤ n → backoffMs n = 3600000 := by
  refine ⟨rfl, rfl, rfl, fun n hn => ?_⟩
  unfold backoffMs
  rw [if_neg (by omega), if_neg (by omega), if_neg (by omega)]

/-! ### The start of an attempt (R158) -/

theorem exec_attemptStart (ha : alive s = true) (h : mayStart s = true) :
    exec .attemptStart s = .next (finish s (startAttempt s)) := exec_alive ha (if_pos h)

theorem exec_attemptStart_not (ha : alive s = true) (h : mayStart s = false) :
    exec .attemptStart s = .next (finish s s) := exec_alive ha (if_neg (by rw [h]; decide))

theorem mayStart_free (h : mayStart s = true) : s.line.state = .free := by
  simp only [mayStart, Bool.and_eq_true, decide_eq_true_eq] at h
  exact h.1.1.1.2

theorem requestSeizure_free {o : Owner} {d : List Dtmf} (hf : s.line.state = .free)
    (hd : unsendable s.config.sendingMethod d = false) : requestSeizure o d s = (seize o d s, .seized) := by
  unfold requestSeizure; rw [hf]; exact if_neg (by rw [hd]; decide)

/-- R158: RPT's block at the start of an attempt. -/
def begunRpt (s : State) : RptBlock :=
  { s.rpt with
    state := .seize, terminal := s.config.terminalId, number := s.config.centreNumber, blocks := none, index := 0
    sends := 0 }

theorem clearActive_rpt (k : IncidentKind) (c : IncidentCause) (s : State) : (clearActive k c s).rpt = s.rpt := by
  unfold clearActive settleEntry postIncident setMap
  split
  · rfl
  · split
    · split <;> rw [post_eq]
    · rfl

theorem abandonVoltageReading_rpt (s : State) : (abandonVoltageReading s).rpt = s.rpt := by
  unfold abandonVoltageReading; split
  · rfl
  · exact clearActive_rpt _ _ _

theorem startAttempt_eq (hf : s.line.state = .free)
    (hd : unsendable s.config.sendingMethod (s.config.centreNumber.map Symbol.dtmf) = false) :
    startAttempt s = { seize .rpt (s.config.centreNumber.map Symbol.dtmf) s with rpt := begunRpt s } := by
  have hrpt : (seize .rpt (s.config.centreNumber.map Symbol.dtmf) s).rpt = s.rpt := abandonVoltageReading_rpt s
  have hconfig : (seize .rpt (s.config.centreNumber.map Symbol.dtmf) s).config = s.config := seize_only .config (by decide)
  unfold startAttempt
  rw [requestSeizure_free hf hd]
  dsimp only
  rw [hrpt, hconfig]
  rfl

theorem abandonVoltageReading_read (h : s.store.start.voltageRead = true) : abandonVoltageReading s = s := if_pos h

/-- R61: the voltage reading abandoned. -/
theorem abandonVoltageReading_unread (h : s.store.start.voltageRead = false) :
    (abandonVoltageReading s).line = { s.line with watch := .present }
      ∧ (abandonVoltageReading s).incd = (readAbsent .lineCut s).incd
      ∧ (abandonVoltageReading s).store.start = { s.store.start with voltageRead := true }
      ∧ (abandonVoltageReading s).config = s.config ∧ (abandonVoltageReading s).now = s.now := by
  have hnot : ¬ s.store.start.voltageRead = true := by rw [h]; decide
  unfold abandonVoltageReading
  rw [if_neg hnot]
  exact ⟨readAbsent_only .line (by decide), clearActive_incd rfl, readAbsent_only .start (by decide),
    readAbsent_only .config (by decide), readAbsent_only .now (by decide)⟩

/-- R42: the line as a seizure leaves it, but for the watch. -/
theorem seize_line (o : Owner) (d : List Dtmf) (s : State) :
    (seize o d s).line.state = .seizedWaitTone ∧ (seize o d s).line.owner = o ∧ (seize o d s).line.digits = d
      ∧ (seize o d s).line.dialToneTimer = some (s.now + s.config.dialToneWait * 1000) := by
  have hnow : (abandonVoltageReading s).now = s.now := abandonVoltageReading_only .now (by decide)
  have hconfig : (abandonVoltageReading s).config = s.config := abandonVoltageReading_only .config (by decide)
  refine ⟨rfl, rfl, rfl, ?_⟩
  show some ((abandonVoltageReading s).now + (abandonVoltageReading s).config.dialToneWait * 1000) = _
  rw [hnow, hconfig]

/-! ### The centre's cadences (R52, R160 to R164) -/

/-- R52: a cadence delivered. -/
def heard (c : Cadence) (s : State) : State :=
  { s with line := { s.line with
      centre := { s.line.centre with hold := true }
      progress := if c = .ready then { s.line.progress with busyWatch := false } else s.line.progress } }

theorem exec_cadenceRecognised {c : Cadence} (ha : alive s = true) (hl : listening s.line = true)
    (hs : s.line.state = .seized) (ho : s.line.owner = .rpt) (hc : s.line.centre.active = true)
    (hh : s.line.centre.hold = false) :
    exec (.cadenceRecognised c) s = .next (finish s (reportCadence c (heard c s))) :=
  exec_alive ha (if_pos ⟨hl, hs, ho, hc, hh⟩)

theorem heard_kept {c : Cadence} {wired : Prop} : Kept wired s (heard c s) := .of_line _

theorem heard_only {c : Cadence} : OnlyChanges [.line] s (heard c s) := only_line .refl (by decide)

theorem reportCadence_ready (h : s.rpt.state = .awaitReady) : reportCadence .ready s = takeReady s := by
  unfold reportCadence; rw [h]

theorem reportCadence_ack (h : s.rpt.state = .awaitAck) : reportCadence .ack s = takeAck s := by
  unfold reportCadence; rw [h]

theorem reportCadence_again (h : s.rpt.state = .awaitAck) : reportCadence .again s = sendFailed s := by
  unfold reportCadence; rw [h]

theorem reportCadence_bye (h : s.rpt.state = .close) : reportCadence .bye s = completeAttempt s := by
  unfold reportCadence; rw [h]

/-- A cadence without a meaning in RPT's state. -/
theorem reportCadence_other {c : Cadence} (h : (s.rpt.state = .awaitReady ∧ c ≠ .ready)
    ∨ (s.rpt.state = .awaitAck ∧ c ≠ .ack ∧ c ≠ .again) ∨ (s.rpt.state = .close ∧ c ≠ .bye)) :
    reportCadence c s = s := by
  unfold reportCadence
  rcases h with ⟨h, hc⟩ | ⟨h, hc, hc2⟩ | ⟨h, hc⟩ <;> rw [h] <;> split <;> simp_all

/-- R161: the block list fixed. -/
def listFixed (s : State) : State :=
  { s with rpt := { s.rpt with readyTimer := none, blocks := some (blockList s), index := 0 } }

/-- R163: the block in hand acknowledged. -/
def blockTaken (b : ReportBlock) (s : State) : State :=
  { acknowledge b.kind b.count (ackStopped s) with rpt := { s.rpt with ackTimer := none, index := s.rpt.index + 1 } }

theorem acknowledge_rpt (k : IncidentKind) (n : Nat) (s : State) : (acknowledge k n s).rpt = s.rpt := by
  unfold acknowledge settleEntry postIncident setMap
  split
  · rfl
  · split <;> rw [post_eq]

theorem acknowledge_incd_of {k : IncidentKind} {n : Nat} (h : t.incd = s.incd) :
    (acknowledge k n t).incd = (acknowledge k n s).incd := by
  unfold acknowledge
  rw [h]
  split
  · exact h
  · rw [settleEntry_incd, settleEntry_incd, h]

theorem takeAck_eq {b : ReportBlock} (hb : blockInHand s.rpt = some b) :
    takeAck s = sendInHand 1 (blockTaken b s) := by
  have hrpt : (acknowledge b.kind b.count (ackStopped s)).rpt = (ackStopped s).rpt := acknowledge_rpt ..
  have hstep : takeAck s = sendInHand 1 { acknowledge b.kind b.count (ackStopped s) with
      rpt := { (acknowledge b.kind b.count (ackStopped s)).rpt with
        index := (acknowledge b.kind b.count (ackStopped s)).rpt.index + 1 } } := by
    unfold takeAck; rw [hb]; rfl
  rw [hstep, hrpt]
  rfl

theorem blockTaken_line (b : ReportBlock) (s : State) : (blockTaken b s).line = s.line :=
  (acknowledge_only .line (by decide) : (acknowledge b.kind b.count (ackStopped s)).line = _)

theorem blockTaken_now (b : ReportBlock) (s : State) : (blockTaken b s).now = s.now :=
  (acknowledge_only .now (by decide) : (acknowledge b.kind b.count (ackStopped s)).now = _)

theorem InBand.of_line (h : InBand s) (hl : t.line = s.line) : InBand t := by unfold InBand; rw [hl]; exact h

/-- R163: whatever is sent, RPT's list and place stand. -/
theorem sendInHand_rest {s0 : State} (h : InBand s) :
    (∃ n q, (finish s0 (sendInHand 1 s)).rpt = { s.rpt with state := .send, sends := n, quietSince := q })
      ∧ (finish s0 (sendInHand 1 s)).line.progress = s.line.progress := by
  rw [finish_line]
  cases hb : blockInHand s.rpt with
  | some b =>
    rw [sendInHand_block h hb]
    obtain ⟨q, hq⟩ := finish_sending (s0 := s0) (u := s) 1 (blockString b)
    exact ⟨⟨_, q, hq⟩, rfl⟩
  | none =>
    rw [sendInHand_done h hb]
    obtain ⟨q, hq⟩ := finish_sending (s0 := s0) (u := s) 0 [.d]
    exact ⟨⟨_, q, hq⟩, rfl⟩

theorem sendInHand_sent {s0 : State} (h : InBand s) :
    (∀ b, (s.rpt.blocks.getD [])[s.rpt.index]? = some b → (finish s0 (sendInHand 1 s)).rpt.sends = 1
        ∧ (finish s0 (sendInHand 1 s)).line =
          { s.line with centre := {}, sender := some (blockString b, s.now + 160 * (blockString b).length) })
      ∧ ((s.rpt.blocks.getD [])[s.rpt.index]? = none →
        (finish s0 (sendInHand 1 s)).line = { s.line with centre := {}, sender := some ([.d], s.now + 160) }) := by
  rw [← blockInHand_eq, finish_line]
  refine ⟨fun b hb => ?_, fun hb => ?_⟩
  · rw [sendInHand_block h hb]
    obtain ⟨q, hq⟩ := finish_sending (s0 := s0) (u := s) 1 (blockString b)
    rw [hq]
    exact ⟨rfl, rfl⟩
  · rw [sendInHand_done h hb]
    rfl

/-- R160, R161: READY heard in R_AWAIT_READY. -/
theorem ready_effect (hband : InBand (heard .ready s)) (hr : s.rpt.state = .awaitReady) :
    let t := finish s (reportCadence .ready (heard .ready s))
    LinkKept s t ∧ t.rpt.state = .send ∧ t.rpt.readyTimer = none ∧ t.rpt.index = 0
      ∧ t.rpt.blocks = some (blocksFrom s.rpt.terminal 1 (wantedEntries s)) ∧ t.line.progress.busyWatch = false
      ∧ (∀ b rest, blocksFrom s.rpt.terminal 1 (wantedEntries s) = b :: rest →
          t.line.sender = some (blockString b, s.now + 160 * (blockString b).length) ∧ t.rpt.sends = 1)
      ∧ (wantedEntries s = [] → t.line.sender = some ([.d], s.now + 160))
      ∧ OnlyChanges [.line, .rpt] s t := by
  intro t
  have ht : t = finish s (sendInHand 1 (listFixed (heard .ready s))) :=
    congrArg (finish s) (reportCadence_ready (s := heard .ready s) hr)
  have hfixed : InBand (listFixed (heard .ready s)) := hband
  have honly : OnlyChanges [.line, .rpt] s t := by
    rw [ht]; exact only_finish ((heard_only.wider (by decide)).step takeReady_only (by decide))
  obtain ⟨⟨n, q, hrpt⟩, hprogress⟩ := sendInHand_rest (s0 := s) hfixed
  obtain ⟨hblock, hdone⟩ := sendInHand_sent (s0 := s) hfixed
  refine ⟨linkKept_of_kept (.after reportCadence_kept heard_kept), ?_⟩
  rw [← ht] at hrpt hprogress hblock hdone
  refine ⟨?_, ?_, ?_, ?_, ?_, fun b rest hb => ?_, fun hw => ?_, honly⟩
  · rw [hrpt]
  · rw [hrpt]; rfl
  · rw [hrpt]; rfl
  · rw [hrpt]; rfl
  · rw [hprogress]; rfl
  · obtain ⟨hsends, hline⟩ := hblock b (show (blocksFrom s.rpt.terminal 1 (wantedEntries s))[0]? = _ by rw [hb]; rfl)
    rw [hline]
    exact ⟨rfl, hsends⟩
  · rw [hdone (show (blocksFrom s.rpt.terminal 1 (wantedEntries s))[0]? = _ by rw [hw]; rfl)]
    rfl

/-- R163: ACK heard in R_AWAIT_ACK. -/
theorem ack_effect {b : ReportBlock} (hband : InBand (heard .ack s)) (hr : s.rpt.state = .awaitAck)
    (hb : blockInHand s.rpt = some b) :
    let t := finish s (reportCadence .ack (heard .ack s))
    LinkKept s t ∧ t.rpt.state = .send ∧ t.rpt.ackTimer = none
      ∧ t.rpt.index = s.rpt.index + 1 ∧ t.rpt.blocks = s.rpt.blocks ∧ t.incd = (acknowledge b.kind b.count s).incd
      ∧ (∀ b2, (s.rpt.blocks.getD [])[s.rpt.index + 1]? = some b2 → t.rpt.sends = 1
          ∧ t.line = { s.line with
              centre := {}, sender := some (blockString b2, s.now + 160 * (blockString b2).length) })
      ∧ ((s.rpt.blocks.getD [])[s.rpt.index + 1]? = none →
          t.line = { s.line with centre := {}, sender := some ([.d], s.now + 160) })
      ∧ OnlyChanges [.line, .rpt, .incd] s t := by
  intro t
  have ht : t = finish s (sendInHand 1 (blockTaken b (heard .ack s))) :=
    congrArg (finish s) ((reportCadence_ack (s := heard .ack s) hr).trans (takeAck_eq (s := heard .ack s) hb))
  have htaken : InBand (blockTaken b (heard .ack s)) := hband.of_line (blockTaken_line ..)
  have honly : OnlyChanges [.line, .rpt, .incd] s t :=
    only_finish ((heard_only.wider (by decide)).step reportCadence_only (by decide))
  obtain ⟨⟨n, q, hrpt⟩, -⟩ := sendInHand_rest (s0 := s) htaken
  obtain ⟨hblock, hdone⟩ := sendInHand_sent (s0 := s) htaken
  have hincd : t.incd = (acknowledge b.kind b.count s).incd := by
    rw [ht, finish_incd]
    exact (sendInHand_only .incd (by decide)).trans (acknowledge_incd_of (s := s) (t := ackStopped (heard .ack s)) rfl)
  refine ⟨linkKept_of_kept (.after reportCadence_kept heard_kept), ?_⟩
  rw [← ht] at hrpt hblock hdone
  rw [blockTaken_line, blockTaken_now] at hblock
  rw [blockTaken_line, blockTaken_now] at hdone
  rw [hrpt] at hblock ⊢
  exact ⟨rfl, rfl, rfl, rfl, hincd, hblock, hdone, honly⟩

/-- R163: REPEAT heard in R_AWAIT_ACK. -/
theorem again_effect {b : ReportBlock} (hband : InBand (heard .again s)) (hr : s.rpt.state = .awaitAck)
    (hb : blockInHand s.rpt = some b) :
    let t := finish s (reportCadence .again (heard .again s))
    LinkKept s t ∧ t.rpt.ackTimer = none
      ∧ (s.rpt.sends < 3 → t.rpt.state = .send ∧ t.rpt.sends = s.rpt.sends + 1 ∧ t.rpt.index = s.rpt.index
          ∧ t.rpt.blocks = s.rpt.blocks
          ∧ t.line = { s.line with
              centre := {}, sender := some (blockString b, s.now + 160 * (blockString b).length) })
      ∧ (3 ≤ s.rpt.sends → t.rpt.state = .wait ∧ t.rpt.failures = min 255 (s.rpt.failures + 1)
          ∧ t.rpt.urgentFailures = min 3 (s.rpt.urgentFailures + 1) ∧ t.rpt.blocks = none
          ∧ t.rpt.backoffTimer = some (s.now + backoffMs t.rpt.failures)
          ∧ t.line.state = .guard ∧ t.line.owner = .none ∧ t.line.guardTimer = some (s.now + 1500))
      ∧ OnlyChanges [.line, .rpt] s t := by
  intro t
  have ht : t = finish s (sendFailed (heard .again s)) :=
    congrArg (finish s) (reportCadence_again (s := heard .again s) hr)
  have honly : OnlyChanges [.line, .rpt] s t := by
    rw [ht]; exact only_finish ((heard_only.wider (by decide)).step sendFailed_only (by decide))
  have hrepeat (h3 : s.rpt.sends < 3) : ∃ q, t.rpt =
      { s.rpt with ackTimer := none, state := .send, sends := s.rpt.sends + 1, quietSince := q }
      ∧ t.line = { s.line with
          centre := {}, sender := some (blockString b, s.now + 160 * (blockString b).length) } := by
    have hstep := sendFailed_again (s := heard .again s) hband hb h3
    obtain ⟨q, hq⟩ := finish_sending (s0 := s) (u := ackStopped (heard .again s)) (s.rpt.sends + 1) (blockString b)
    refine ⟨q, ?_, ?_⟩
    · rw [ht, hstep]; exact hq
    · rw [ht, finish_line, hstep]; rfl
  have hfail (h3 : 3 ≤ s.rpt.sends) : t.line = releasedLine (ackStopped (heard .again s))
      ∧ ∃ q, t.rpt = { failedRpt (ackStopped (heard .again s)) with quietSince := q } := by
    have hstep := sendFailed_last (s := heard .again s) h3
    obtain ⟨-, hline, q, hq⟩ := finish_failed (s0 := s) (u := ackStopped (heard .again s)) .noAck hband.closed
    exact ⟨by rw [ht, hstep]; exact hline, q, by rw [ht, hstep]; exact hq⟩
  refine ⟨linkKept_of_kept (.after reportCadence_kept heard_kept), ?_, fun h3 => ?_, fun h3 => ?_, honly⟩
  · rcases Nat.lt_or_ge s.rpt.sends 3 with h3 | h3
    · obtain ⟨q, hq, -⟩ := hrepeat h3
      rw [hq]
    · obtain ⟨-, q, hq⟩ := hfail h3
      rw [hq]; rfl
  · obtain ⟨q, hq, hline⟩ := hrepeat h3
    rw [hq]
    exact ⟨rfl, rfl, rfl, rfl, hline⟩
  · obtain ⟨hline, q, hq⟩ := hfail h3
    rw [hq, hline]
    exact ⟨rfl, rfl, rfl, rfl, rfl, rfl, rfl, rfl⟩

end Sys2Proof.Machine

open Sys2Proof Sys2Proof.Machine

/-- Settles O52: each timer ends, repeats or completes the attempt, or ends or writes the wait. -/
theorem reportTimersFailCompleteAndWait : Obligations.ReportTimersFailCompleteAndWait := by
  refine ⟨fun s ha => ⟨fun d hd hs hl => ?_, fun d b hd hs hb hl ho hn => ?_, fun d hd hs hl => ?_, fun d hd hs => ?_,
    fun d hd hs => ?_⟩, backoffMs_table⟩
  · have hclosed : loopClosed (reach (some d) s).line.state = true := by rw [show (reach (some d) s).line = s.line from rfl, hl]; rfl
    obtain ⟨hnow, hline, q, hrpt⟩ := finish_failed (s0 := s) .noReady hclosed
    refine ⟨_, exec_readyTimeout ha hd hs, linkKept_of_kept (.after failAttempt_kept reach_kept), hnow, ?_⟩
    rw [hrpt, hline, hnow]
    exact ⟨rfl, rfl, rfl, rfl, rfl, rfl, rfl, rfl, rfl, only_finish ((only_reach.wider (by decide)).step failAttempt_only
      (by decide))⟩
  · have hband : InBand (reach (some d) s) := ⟨hl, ho, hn⟩
    have honly : OnlyChanges [.now, .line, .rpt] s (finish s (sendFailed (reach (some d) s))) :=
      only_finish ((only_reach.wider (by decide)).step sendFailed_only (by decide))
    have hnow : (finish s (sendFailed (reach (some d) s))).now = max s.now d :=
      (finish_now ..).trans (sendFailed_only .now (by decide))
    refine ⟨_, exec_ackTimeout ha hd hs, linkKept_of_kept (.after sendFailed_kept reach_kept), hnow, fun h3 => ?_,
      fun h3 => ?_, honly⟩
    · rw [hnow, finish_line]
      rw [sendFailed_again hband hb h3]
      obtain ⟨q, hq⟩ := finish_sending (s0 := s) (u := ackStopped (reach (some d) s)) (s.rpt.sends + 1) (blockString b)
      rw [show (reach (some d) s).rpt.sends + 1 = s.rpt.sends + 1 from rfl, hq]
      exact ⟨rfl, rfl, rfl, rfl⟩
    · obtain ⟨-, hline, q, hrpt⟩ := finish_failed (s0 := s) (u := ackStopped (reach (some d) s)) .noAck hband.closed
      rw [hnow, sendFailed_last (s := reach (some d) s) h3, hrpt, hline]
      exact ⟨rfl, rfl, rfl, rfl, rfl⟩
  · have hclosed : loopClosed (reach (some d) s).line.state = true := by rw [show (reach (some d) s).line = s.line from rfl, hl]; rfl
    obtain ⟨hline, hfail, hurgent, hsaved, hbackoff, hclose, hblocks, hstate⟩ := finish_completed (s0 := s) hclosed
    refine ⟨_, exec_closeTimeout ha hd hs, linkKept_of_kept (.after completeAttempt_kept reach_kept),
      (finish_now ..).trans (completeAttempt_only .now (by decide)), hfail, hurgent, hbackoff, hclose, ?_, hstate,
      only_finish ((only_reach.wider (by decide)).step completeAttempt_only (by decide))⟩
    rw [hline]; rfl
  · obtain ⟨hlink, hposted, -⟩ := finish_silent (s := s) (u := endWait (reach (some d) s)) (.after endWait_kept reach_kept)
      rfl rfl rfl rfl
    obtain ⟨q, hq⟩ := finish_rpt_eq s (endWait (reach (some d) s))
    refine ⟨_, exec_backoffExpiry ha hd hs, hlink, hposted, finish_now .., ?_⟩
    rw [hq]
    refine ⟨?_, rfl, rfl, rfl, only_finish ((only_reach.wider (by decide)).step endWait_only (by decide))⟩
    have hw : reportWanted (endWait (reach (some d) s)) = reportWanted s := rfl
    rw [hw]
    show followed _ (if reportWanted s = true then _ else _) = _
    cases reportWanted s <;> rfl
  · obtain ⟨hlink, hposted, hbody⟩ := finish_silent (s := s) (u := writeWait (reach (some d) s))
      (.after (writeWait_kept (s := reach (some d) s)) reach_kept) rfl rfl rfl rfl
    refine ⟨_, exec_waitMinuteWrite ha hd hs, hlink, hposted, hbody.trans ?_⟩
    rw [writeWait, remainingWait_eq]
    rfl

/-- Settles O51: a start seizes the line with RPT's block begun; each cadence acts in its own state on the state that has
heard it. -/
theorem reportAttemptRunsItsCourse : Obligations.ReportAttemptRunsItsCourse := by
  refine fun s ha => ⟨fun hm hd => ?_, fun hm => ?_, fun hl hs ho hc hh hn => ⟨fun hr => ?_, fun b hr hb => ?_,
    fun b hr hb => ?_, fun c hr => ?_, fun hr => ?_⟩⟩
  · obtain ⟨q, hq⟩ := finish_rpt_eq s (startAttempt s)
    have heq := startAttempt_eq (mayStart_free hm) hd
    obtain ⟨hstate, howner, hdigits, htimer⟩ := seize_line .rpt (s.config.centreNumber.map Symbol.dtmf) s
    have hline : (finish s (startAttempt s)).line = (seize .rpt (s.config.centreNumber.map Symbol.dtmf) s).line := by
      rw [finish_line, heq]
    refine ⟨_, exec_attemptStart ha hm, linkKept_of_kept startAttempt_kept, ?_⟩
    rw [hline, hstate, howner, hdigits, htimer, hq, heq]
    refine ⟨rfl, rfl, rfl, rfl, rfl, rfl, rfl, rfl, fun hread => ?_, fun hread => ?_⟩
    · have honly : OnlyChanges [.line] s (seize .rpt (s.config.centreNumber.map Symbol.dtmf) s) := by
        unfold seize; rw [abandonVoltageReading_read hread]; exact only_line .refl (by decide)
      have hlink : (seize .rpt (s.config.centreNumber.map Symbol.dtmf) s).link = s.link := by
        unfold seize; rw [abandonVoltageReading_read hread]
      have hkept : Kept True s (startAttempt s) := startAttempt_kept
      rw [heq] at hkept
      exact ⟨(finish_silent hkept hlink (honly .config (by decide)) (congrArg RateBlock.phase (honly .rate (by decide))).symm
        (creditKey_of_same (honly .rate (by decide)) (honly .call (by decide)) (honly .coin (by decide)))).2.1,
        only_finish (only_rpt (honly.wider (by decide)) (by decide))⟩
    · obtain ⟨hwatch, hincd, hstart, -, -⟩ := abandonVoltageReading_unread hread
      refine ⟨?_, ?_, ?_, only_finish (only_rpt (seize_only.wider (by decide)) (by decide))⟩
      · show (abandonVoltageReading s).line.watch = _
        rw [hwatch]
      · exact (finish_incd ..).trans hincd
      · exact (finish_start ..).trans hstart
  · have hquiet := finish_silent (s := s) (u := s) .refl rfl rfl rfl rfl
    exact ⟨_, exec_attemptStart_not ha hm, hquiet.2.1, hquiet.2.2⟩
  all_goals have hband (c : Cadence) : InBand (heard c s) := ⟨hs, ho, hn⟩
  · exact ⟨_, exec_cadenceRecognised ha hl hs ho hc hh, ready_effect (hband _) hr⟩
  · exact ⟨_, exec_cadenceRecognised ha hl hs ho hc hh, ack_effect (hband _) hr hb⟩
  · exact ⟨_, exec_cadenceRecognised ha hl hs ho hc hh, again_effect (hband _) hr hb⟩
  · have heq : reportCadence c (heard c s) = heard c s := reportCadence_other hr
    obtain ⟨hlink, hposted, hbody⟩ := finish_silent (s := s) (u := heard c s) heard_kept rfl rfl rfl rfl
    exact ⟨_, (exec_cadenceRecognised ha hl hs ho hc hh).trans (by rw [heq]), hlink, hposted, hbody⟩
  · have heq : reportCadence .bye (heard .bye s) = completeAttempt (heard .bye s) := reportCadence_bye hr
    obtain ⟨hline, hfail, hurgent, hsaved, -, -, hblocks, hstate⟩ :=
      finish_completed (s0 := s) (hband .bye).closed
    refine ⟨_, (exec_cadenceRecognised ha hl hs ho hc hh).trans (by rw [heq]),
      linkKept_of_kept (.after completeAttempt_kept heard_kept), ?_⟩
    rw [hline]
    exact ⟨rfl, rfl, rfl, hfail, hurgent, hsaved, hblocks, hstate,
      only_finish ((heard_only.wider (by decide)).step completeAttempt_only (by decide))⟩

end

section
/-! The end of a call (R16 to R18): what it makes of the state, but for the notices. -/

namespace Sys2Proof.Machine

variable {s t u v : State}

/-! ### States that differ in the notices posted -/

/-- `t` is `s` but for notices posted in between. -/
def Notifies (s t : State) : Prop :=
  ∃ l : LinkBlock, l.besideNotices = s.link.besideNotices ∧ t = { s with link := l }

theorem Notifies.refl : Notifies s s := ⟨s.link, rfl, rfl⟩

theorem Notifies.trans (h : Notifies s t) (g : Notifies t u) : Notifies s u := by
  obtain ⟨l, hl, rfl⟩ := h
  obtain ⟨m, hm, rfl⟩ := g
  exact ⟨m, hm.trans hl, rfl⟩

theorem notifies_post (k : NoticeKind) (p : List Byte) (s : State) : Notifies s (post k p s) := by
  exact ⟨(post k p s).link, by rw [post_eq]; rfl, by rw [post_eq]⟩

/-- An update that neither reads nor changes LINK. -/
theorem Notifies.update (h : Notifies s t) (f : State → State) (hlink : (f s).link = s.link)
    (hf : ∀ l, f { s with link := l } = { f s with link := l }) : Notifies (f s) (f t) := by
  obtain ⟨l, hl, rfl⟩ := h
  exact ⟨l, hl.trans (congrArg LinkBlock.besideNotices hlink).symm, hf l⟩

theorem Notifies.body (h : Notifies s t) : t.body = s.body := by
  obtain ⟨l, hl, rfl⟩ := h
  have hmask : { l with turn := false, outstanding := none, reply := none, tx := none, notices := [], noticeLost := false } =
      { s.link with turn := false, outstanding := none, reply := none, tx := none, notices := [], noticeLost := false } :=
    congrArg (fun m : LinkBlock => { m with turn := false, outstanding := none, reply := none, tx := none }) hl
  unfold State.body
  rw [hmask]

theorem Notifies.only (h : Notifies s t) : OnlyChanges [] s t := only_of_body h.body

theorem Notifies.same (h : Notifies s t) (p : Part) : p.same s t := h.only p (by simp)

/-! ### Updates of the state at a call's end -/

/-- R1, R6: CALL in another state. -/
def inState (st : CallState) (s : State) : State :=
  { s with call := { s.call with
      state := st, level := levelIn st s.call.level, earpiece := stateTone s.keys.hook st, toneSince := s.now } }

theorem setCallState_notifies (st : CallState) (s : State) : Notifies (inState st s) (setCallState st s) := notifies_post ..

/-- R16 step 2: the line released, if CALL owns it. -/
def lineFreed (s : State) : LineBlock :=
  if s.line.owner = .call ∧ loopClosed s.line.state = true then releasedLine s else s.line

theorem release_line (s : State) :
    (release s).line = if loopClosed s.line.state = true then releasedLine s else s.line := by
  unfold release; split <;> rfl

theorem lineFreed_eq (s : State) : lineFreed s = if s.line.owner = .call then (release s).line else s.line := by
  unfold lineFreed
  rw [release_line, ite_and]

theorem release_eq (s : State) : release s = { s with line := (release s).line } := by
  unfold release; split <;> rfl

theorem releaseCallLine_eq (s : State) : releaseCallLine s = { s with line := lineFreed s } := by
  rw [lineFreed_eq]
  unfold releaseCallLine
  split
  · exact release_eq s
  · rfl

/-- R16 steps 1 and 2: the record ended, collection stopped, CALL in CLEARING, and the line released. -/
def callEnding (c : EndCause) (at_ : Nat) (s : State) : State :=
  { s with
    call := { s.call with
      openSlot := s.call.openSlot.map (endSlot c (clockAt s at_) at_ s.keys.buffer (unratedMode s))
      depositTimer := none, answerTimer := none, warningTimer := none, heldFollowOn := false
      replaced := decide (s.keys.hook = .onHook), refundAsked := false
      state := .clearing, level := s.call.level, earpiece := stateTone s.keys.hook .clearing, toneSince := s.now }
    keys := { s.keys with collection := .done, firstDigitTimer := none, interDigitTimer := none }
    line := lineFreed s }

theorem endCall_begun (c : EndCause) (at_ : Nat) (s : State) : Notifies (callEnding c at_ s)
    (releaseCallLine (setCallState .clearing (keysStop (fixEnd c at_ s)))) := by
  have hstate := setCallState_notifies .clearing (keysStop (fixEnd c at_ s))
  have hfreed := hstate.update (fun x => { x with line := lineFreed x }) rfl (fun _ => rfl)
  rw [releaseCallLine_eq]
  exact hfreed

/-! ### Records stored, and CLEARING left (R17, R18) -/

/-- R174: the log with one record more. -/
def logged (sl : Slot) (s : State) : State :=
  withLog { s.store.log with
    records := s.store.log.records ++ [{ sl.record with seq := s.store.log.nextSeq }]
    nextSeq := nextSeq s.store.log.nextSeq
    handed := some sl.offAt } s

theorem setLog_notifies (g : LogArea) (s : State) : Notifies (withLog g s) (setLog g s) := by
  unfold setLog; dsimp only; split
  · exact .refl
  · exact notifies_post ..

theorem storeSlot_stored (sl : Slot) (h : s.store.log.records.length < 64) :
    Notifies (logged sl s) (storeSlot sl s).1 ∧ (storeSlot sl s).2 = some s.store.log.nextSeq := by
  unfold storeSlot storeRecord
  rw [if_pos h]
  refine ⟨?_, rfl⟩
  have hstored := (setLog_notifies { s.store.log with
      records := s.store.log.records ++ [{ sl.record with seq := s.store.log.nextSeq }]
      nextSeq := nextSeq s.store.log.nextSeq } s).trans (notifies_post .callEnd
        (callEndStored { sl.record with seq := s.store.log.nextSeq }) _)
  exact hstored.update (fun x => withLog { x.store.log with handed := some sl.offAt } x) rfl (fun _ => rfl)

/-- R18: CALL's block at the entry to IDLE or ABANDONED. -/
def callAtRest (s : State) : CallBlock :=
  { s.call with
    aliveTimer := none, warningTimer := none, level := none, toneSince := s.now
    abandonedTimer := if s.keys.hook = .onHook then none else some (s.now + 600000)
    rejectTimer := if s.keys.hook = .onHook then none else some (s.now + 60000)
    state := if s.keys.hook = .onHook then .idle else .abandoned
    earpiece := if s.keys.hook = .onHook then .silent else .reject }

/-- R18 paths (a) and (b): CLEARING left with the handset where it was at the end. -/
def atRest (s : State) : State := { s with call := callAtRest s }

theorem leaveClearing_notifies (h : s.call.replaced = true → s.keys.hook = .onHook) :
    Notifies (atRest s) (leaveClearing s) := by
  unfold leaveClearing atRest callAtRest
  cases hk : s.keys.hook with
  | onHook => exact setCallState_notifies .idle { s with call := { s.call with
      abandonedTimer := none, rejectTimer := none, aliveTimer := none, warningTimer := none } }
  | offHook =>
    have hnot : ¬ s.call.replaced = true := fun hr => by rw [hk] at h; cases h hr
    dsimp only
    rw [if_neg hnot]
    exact setCallState_notifies .abandoned { s with call := { s.call with
      abandonedTimer := some (s.now + 600000), rejectTimer := some (s.now + 60000), aliveTimer := none
      warningTimer := none } }

/-- R17, R18: the call's record stored, and CLEARING left. -/
def callStored (sl : Slot) (s : State) : State := atRest (logged sl (setOpen none s))

theorem storeOpen_notifies {sl : Slot} (ho : s.call.openSlot = some sl) (hc : sl.complete = true)
    (hs : s.call.state = .clearing) (hclosing : s.call.closingSlot = none) (hstart : s.call.atStart = [])
    (hlog : s.store.log.records.length < 64) (hr : s.call.replaced = true → s.keys.hook = .onHook) :
    Notifies (callStored sl s) (storeOpen s) := by
  obtain ⟨hstored, -⟩ := storeSlot_stored (s := setOpen none s) sl hlog
  have hrest := hstored.update atRest rfl (fun _ => rfl)
  have hcall : (storeSlot sl (setOpen none s)).1.call = (setOpen none s).call := hstored.same .call
  have hkeys : (storeSlot sl (setOpen none s)).1.keys = s.keys := hstored.same .keys
  unfold storeOpen
  rw [ho]
  dsimp only
  rw [if_pos ⟨hs, hc, hclosing, hstart⟩]
  exact hrest.trans (leaveClearing_notifies fun h => by rw [hkeys]; rw [hcall] at h; exact hr h)

/-! ### The progress of a call's end (R16) -/

/-- Nothing of an earlier call waits: no record of it, and no report of COIN. -/
abbrev NoEarlier (s : State) : Prop := s.call.closingSlot = none ∧ s.call.atStart = [] ∧ s.coin.report = false

theorem takeReport_none (h : s.coin.report = false) : takeReport s = s := if_neg (by rw [h]; decide)

theorem storeAtStart_none (h : s.call.atStart = []) : storeAtStart s = s := by unfold storeAtStart; rw [h]

theorem storeClosing_none (h : s.call.closingSlot = none) : storeClosing s = s := by unfold storeClosing; rw [h]

theorem progress_eq (h : NoEarlier s) : progress s = storeOpen (takeReport (askRefund (clearAccount s))) := by
  obtain ⟨hclosing, hstart, hreport⟩ := h
  unfold progress
  rw [takeReport_none hreport, storeAtStart_none hstart, storeClosing_none hclosing]

/-- R16 step 5: the refund is asked for now. -/
abbrev AsksRefund (s : State) : Prop :=
  s.call.state = .clearing ∧ s.rate.phase = .inactive ∧ s.coin.transit = none ∧ s.call.refundAsked = false

/-- The refund asked for. -/
def refundAskedOf (s : State) : State := { s with call := { s.call with refundAsked := true } }

theorem escrowElsewhere_false (h : NoEarlier s) (hr : s.coin.run ≠ .startUp) (hp : s.coin.run ≠ .purge) :
    escrowElsewhere s = false := by
  obtain ⟨hclosing, hstart, -⟩ := h
  simp [escrowElsewhere, hclosing, hstart, hr, hp]

/-! ### The vault's states and the incident map, but for the notices -/

theorem countOccurrence_notifies (k : IncidentKind) (s : State) :
    Notifies { s with incd := (countOccurrence k s).incd } (countOccurrence k s) := by
  rw [countOccurrence_incd]
  exact notifies_post .incident _ (setMap (countedMap s.store.clock k s.incd.map) s)

theorem settleEntry_notifies (e : Incident) (c : IncidentCause) (s : State) :
    Notifies { s with incd := (settleEntry e c s).incd } (settleEntry e c s) := by
  rw [settleEntry_incd]
  unfold settleEntry settledMap
  split
  · exact notifies_post .incident _ (setMap (removeIncident e.kind s.incd.map) s)
  · exact notifies_post .incident _ (setMap (insertIncident e s.incd.map) s)

theorem clearActive_notifies (k : IncidentKind) (c : IncidentCause) (s : State) :
    Notifies { s with incd := (clearActive k c s).incd } (clearActive k c s) := by
  unfold clearActive
  split
  · exact .refl
  · split
    · exact settleEntry_notifies ..
    · exact .refl

theorem fullFollow_notifies (s : State) : Notifies
    { s with vault := { s.vault with full := vaultAtCapacity s }, incd := (fullFollow s).incd } (fullFollow s) := by
  unfold fullFollow
  dsimp only
  split
  · next h => rw [h]; exact .refl
  · split
    · split
      · exact countOccurrence_notifies .vaultFull { s with vault := { s.vault with full := vaultAtCapacity s } }
      · exact clearActive_notifies .vaultFull .ended { s with vault := { s.vault with full := vaultAtCapacity s } }
    · exact .refl

theorem nearFollow_notifies (s : State) :
    Notifies { s with vault := nearMarked s.config s.vault } (nearFollow s) := by
  unfold nearFollow nearMarked
  dsimp only
  split
  · next h => rw [h]; exact .refl
  · exact notifies_post ..

/-- R126, R128: only VAULT's two states and the map can change. -/
theorem vaultRefresh_notifies (s : State) :
    Notifies { s with vault := (vaultRefresh s).vault, incd := (vaultRefresh s).incd } (vaultRefresh s) := by
  have hfull := (fullFollow_notifies s).update (fun x => { x with vault := nearMarked x.config x.vault }) rfl
    (fun _ => rfl)
  have hboth := hfull.trans (nearFollow_notifies (fullFollow s))
  have hv : (vaultRefresh s).vault = nearMarked s.config { s.vault with full := vaultAtCapacity s } := hboth.same .vault
  have hi : (vaultRefresh s).incd = (fullFollow s).incd := hboth.same .incd
  rw [hv, hi]
  exact hboth

/-! ### The refund with nothing to stroke (R77, R78) -/

/-- R77, R78: the refund asked for and over at once, what the escrow held stranded; VAULT and INCD as given. -/
def refundOver (sl : Slot) (v : VaultBlock) (i : IncdBlock) (s : State) : State :=
  { s with
    call := { s.call with
      refundAsked := true
      openSlot := some { sl with
        complete := true
        record := { sl.record with stranded := sl.record.stranded.add (uncountedSum s.coin.escrow) } } }
    coin := allStranded { s.coin with tally := {} }
    vault := v
    incd := i }

theorem allStranded_empty {c : CoinBlock} (h : c.escrow = []) : allStranded c = c := if_pos h

/-- The run of a call's end that finds nothing to stroke. -/
def runBegun (s : State) : State :=
  { s with
    call := { s.call with refundAsked := true }
    coin := { s.coin with run := .callEnd, tally := {}, report := false } }

theorem askRefund_run (ha : AsksRefund s) (he : NoEarlier s) (hr : s.coin.run = .none) :
    askRefund s = runStep (runBegun s) := by
  have helse : escrowElsewhere s = false := escrowElsewhere_false he (by rw [hr]; decide) (by rw [hr]; decide)
  unfold askRefund
  rw [if_pos ha]
  dsimp only
  rw [if_neg (by rw [hr]; rintro ⟨h, -⟩; cases h), if_pos ⟨helse, hr⟩]
  rfl

theorem askRefund_purge (ha : AsksRefund s) (hr : s.coin.run = .purge) (hc : s.coin.escrow = []) :
    askRefund s = refundNothing (refundAskedOf s) := by
  unfold askRefund
  rw [if_pos ha]
  exact if_pos ⟨hr, hc⟩

theorem runStep_strands (hr : s.coin.run = .callEnd) (ho : s.coin.order = .outOfOrder) :
    runStep s = endRun (strand s) := by
  unfold runStep; rw [hr]; exact if_pos ho

theorem runStep_ends (hr : s.coin.run = .callEnd) (hc : s.coin.escrow = []) : runStep s = endRun s := by
  have hstrand : strand s = s := by unfold strand; rw [hc]
  unfold runStep
  rw [hr]
  dsimp only
  split
  · rw [hstrand]
  · exact if_pos (by rw [hc]; rfl)

/-- A run of a call's end is over, its end reported and the record complete. -/
def runOver (s : State) : State :=
  { s with
    call := { s.call with openSlot := s.call.openSlot.map (fun sl => { sl with complete := true }) }
    coin := { s.coin with run := .none, report := false } }

theorem takeReport_endRun (hclosing : s.call.closingSlot = none) (hstart : s.call.atStart = [])
    (hr : s.coin.run = .callEnd) : takeReport (endRun s) = runOver s := by
  have helse : escrowElsewhere { endRun s with coin := { (endRun s).coin with report := false } } = false := by
    simp [escrowElsewhere, endRun, hclosing, hstart]
  have hreport : (endRun s).coin.report = true := by simp [endRun, hr]
  unfold takeReport
  rw [if_pos hreport]
  unfold modifyOwnerSlot
  have hclosing' : (endRun s).call.closingSlot = none := hclosing
  have hstart' : (endRun s).call.atStart = [] := hstart
  dsimp only
  rw [hclosing', hstart']
  dsimp only
  rw [if_neg (by rw [helse]; decide)]
  rfl

/-- R71: the escrow's owner is the open record. -/
theorem modifyOwner_open {f : CallRecord → CallRecord} (he : escrowElsewhere s = false) :
    modifyOwner f s = setOpen (s.call.openSlot.map (Slot.modify f)) s := by
  have helse := he
  simp only [escrowElsewhere, Bool.or_eq_false_iff, Option.isSome_eq_false_iff, Option.isNone_iff_eq_none,
    Bool.not_eq_eq_eq_not, Bool.not_false, List.isEmpty_iff] at he
  obtain ⟨⟨⟨hclosing, hstart⟩, -⟩, -⟩ := he
  unfold modifyOwner modifyOwnerSlot
  rw [hclosing, hstart]
  dsimp only
  rw [if_neg (by rw [helse]; decide)]

/-- R78: the escrow stranded into the open record, VAULT and INCD as given. -/
def strandedOpen (v : VaultBlock) (i : IncdBlock) (s : State) : State :=
  { s with
    call := { s.call with openSlot := s.call.openSlot.map (Slot.modify fun r =>
      { r with stranded := r.stranded.add (uncountedSum s.coin.escrow) }) }
    coin := allStranded s.coin
    vault := v
    incd := i }

theorem vaultRefresh_counters (s : State) : (vaultRefresh s).vault.counters = s.vault.counters := by
  rw [vaultRefresh_vault]

theorem strand_eq (he : escrowElsewhere s = false) (hc : s.coin.escrow ≠ []) : strand s =
    postCoin (.stranded (escrowSum s.coin.escrow)) (vaultRefresh (strandedOpen s.vault s.incd s)) := by
  have hcoin : allStranded s.coin = _ := if_neg hc
  unfold strandedOpen
  rw [hcoin]
  unfold strand
  split
  · next h => exact absurd h hc
  · rw [modifyOwner_open he]
    rfl

theorem strand_notifies (he : escrowElsewhere s = false) (hc : s.coin.escrow ≠ []) :
    ∃ v i, v.counters = s.vault.counters ∧ Notifies (strandedOpen v i s) (strand s) := by
  rw [strand_eq he hc]
  exact ⟨_, _, vaultRefresh_counters (strandedOpen s.vault s.incd s),
    (vaultRefresh_notifies (strandedOpen s.vault s.incd s)).trans (notifies_post ..)⟩

/-- R77, R78: with nothing to stroke the refund is over at once. -/
theorem refund_over {sl : Slot} (ha : AsksRefund s) (he : NoEarlier s) (ho : s.call.openSlot = some sl)
    (hr : (s.coin.run = .purge ∧ s.coin.escrow = [])
      ∨ (s.coin.run = .none ∧ (s.coin.escrow = [] ∨ s.coin.order = .outOfOrder))) :
    ∃ v i, v.counters = s.vault.counters ∧ (s.coin.escrow = [] → v = s.vault ∧ i = s.incd)
      ∧ Notifies (refundOver sl v i s) (takeReport (askRefund s)) := by
  obtain ⟨hclosing, hstart, hreport⟩ := he
  have hempty (hc : s.coin.escrow = []) (hrun : s.coin.run = .none) :
      runOver (runBegun s) = refundOver sl s.vault s.incd s := by
    have hcoin : ({ s.coin with run := .none, tally := {}, report := false } : CoinBlock) =
        { s.coin with tally := {} } := by rw [← hrun, ← hreport]
    have hsum : uncountedSum s.coin.escrow = uncountedSum [] := by rw [hc]
    unfold refundOver runOver runBegun
    dsimp only
    rw [hcoin, allStranded_empty (c := { s.coin with tally := {} }) hc, ho, hsum]
    rfl
  have hnothing (hc : s.coin.escrow = []) : refundNothing (refundAskedOf s) = refundOver sl s.vault s.incd s := by
    have hsum : uncountedSum s.coin.escrow = uncountedSum [] := by rw [hc]
    unfold refundOver refundNothing refundAskedOf
    dsimp only
    rw [allStranded_empty (c := { s.coin with tally := {} }) hc, ho, hsum]
    rfl
  by_cases hc : s.coin.escrow = []
  · refine ⟨s.vault, s.incd, rfl, fun _ => ⟨rfl, rfl⟩, ?_⟩
    rcases hr with ⟨hrun, -⟩ | ⟨hrun, -⟩
    · rw [askRefund_purge ha hrun hc, takeReport_none (s := refundNothing (refundAskedOf s)) hreport]
      rw [hnothing hc]
      exact .refl
    · rw [askRefund_run ha ⟨hclosing, hstart, hreport⟩ hrun, runStep_ends (s := runBegun s) rfl hc,
        takeReport_endRun (s := runBegun s) hclosing hstart rfl, hempty hc hrun]
      exact .refl
  · obtain ⟨hrun, hout⟩ : s.coin.run = .none ∧ s.coin.order = .outOfOrder := by
      rcases hr with ⟨-, h⟩ | ⟨hrun, h | h⟩
      · exact absurd h hc
      · exact absurd h hc
      · exact ⟨hrun, h⟩
    have helse : escrowElsewhere (runBegun s) = false := by simp [escrowElsewhere, runBegun, hclosing, hstart]
    obtain ⟨v, i, hv, hstrand⟩ := strand_notifies helse hc
    refine ⟨v, i, hv, fun h => absurd h hc, ?_⟩
    have hover : takeReport (endRun (strand (runBegun s))) = runOver (strand (runBegun s)) := by
      refine takeReport_endRun ?_ ?_ ?_
      · rw [hstrand.same .call]; exact hclosing
      · rw [hstrand.same .call]; exact hstart
      · rw [hstrand.same .coin]; exact (congrArg CoinBlock.run (if_neg hc) :)
    rw [askRefund_run ha ⟨hclosing, hstart, hreport⟩ hrun, runStep_strands (s := runBegun s) rfl hout, hover]
    have hresult : runOver (strandedOpen v i (runBegun s)) = refundOver sl v i s := by
      have hcoin : ({ allStranded (runBegun s).coin with run := .none, report := false } : CoinBlock) =
          allStranded { s.coin with tally := {} } := by
        unfold allStranded runBegun
        dsimp only
        rw [if_neg hc, if_neg hc, ← hrun, ← hreport]
      unfold refundOver
      rw [← hcoin]
      unfold runOver strandedOpen runBegun
      dsimp only
      rw [ho]
      rfl
    rw [← hresult]
    exact hstrand.update runOver rfl (fun _ => rfl)

/-- The slot of a call whose refund is over. -/
def slotOver (sl : Slot) (s : State) : Slot :=
  { sl with
    complete := true
    record := { sl.record with stranded := sl.record.stranded.add (uncountedSum s.coin.escrow) } }

/-- R16 step 5, R17, R18: with nothing to stroke the record is stored at once, and CLEARING left. -/
theorem refund_stored {sl : Slot} (ha : AsksRefund s) (he : NoEarlier s) (ho : s.call.openSlot = some sl)
    (hr : (s.coin.run = .purge ∧ s.coin.escrow = [])
      ∨ (s.coin.run = .none ∧ (s.coin.escrow = [] ∨ s.coin.order = .outOfOrder)))
    (hlog : s.store.log.records.length < 64) (hhook : s.call.replaced = true → s.keys.hook = .onHook) :
    ∃ v i, v.counters = s.vault.counters ∧ (s.coin.escrow = [] → v = s.vault ∧ i = s.incd)
      ∧ Notifies (callStored (slotOver sl s) (refundOver sl v i s)) (storeOpen (takeReport (askRefund s))) := by
  obtain ⟨v, i, hv, hempty, hover⟩ := refund_over ha he ho hr
  refine ⟨v, i, hv, hempty, ?_⟩
  have hstored := hover.update (callStored (slotOver sl s)) rfl (fun _ => rfl)
  have hcall : (takeReport (askRefund s)).call = (refundOver sl v i s).call := hover.same .call
  have hkeys : (takeReport (askRefund s)).keys = s.keys := hover.same .keys
  have hthe : (takeReport (askRefund s)).store.log = s.store.log := hover.same .log
  refine hstored.trans (storeOpen_notifies ?_ rfl ?_ ?_ ?_ ?_ ?_)
  · rw [hcall]; rfl
  · rw [hcall]; exact ha.1
  · rw [hcall]; exact he.1
  · rw [hcall]; exact he.2.1
  · rw [hthe]; exact hlog
  · rw [hcall, hkeys]; exact hhook

/-! ### A call without an account (R16 to R18) -/

theorem clearAccount_inactive (h : s.rate = RateBlock.inactive) : clearAccount s = s := by
  have hclose : tryClose s = s := by unfold tryClose; rw [h]; rfl
  unfold clearAccount
  dsimp only
  rw [hclose, h]
  rfl

theorem tellRateEnd_inactive (n : Nat) (h : s.rate = RateBlock.inactive) : tellRateEnd n s = s :=
  if_pos (by rw [h]; rfl)

/-- The ended slot of a call. -/
def slotEnded (c : EndCause) (at_ : Nat) (s : State) (sl : Slot) : Slot :=
  endSlot c (clockAt s at_) at_ s.keys.buffer (unratedMode s) sl

theorem endCall_bare {c : EndCause} {at_ : Nat} {sl : Slot} (h : BareCall s sl) : ∃ w,
    w = refundOver (slotEnded c at_ s sl) s.vault s.incd (callEnding c at_ s)
      ∧ Notifies (callStored (slotOver (slotEnded c at_ s sl) s) w) (endCall c at_ s) := by
  obtain ⟨ho, hclosing, hstart, hrate, htransit, hescrow, hrun, hreport, hlog⟩ := h
  refine ⟨_, rfl, ?_⟩
  have hbegun := endCall_begun c at_ s
  generalize hx : releaseCallLine (setCallState .clearing (keysStop (fixEnd c at_ s))) = x at hbegun
  have hend : endCall c at_ s = progress (tellRateEnd at_ x) := by rw [← hx]; rfl
  have hxrate : x.rate = RateBlock.inactive := (hbegun.same .rate).trans hrate
  have hxcoin : x.coin = s.coin := hbegun.same .coin
  have hxcall : x.call = (callEnding c at_ s).call := hbegun.same .call
  have hxearlier : NoEarlier x := by
    rw [NoEarlier, hxcall, hxcoin]; exact ⟨hclosing, hstart, hreport⟩
  have hxasks : AsksRefund x := by
    rw [AsksRefund, hxcall, hxcoin, hxrate]; exact ⟨rfl, rfl, htransit, rfl⟩
  have hxopen : x.call.openSlot = some (slotEnded c at_ s sl) := by
    rw [hxcall]
    show s.call.openSlot.map _ = _
    rw [ho]; rfl
  have hxlog : x.store.log = s.store.log := hbegun.same .log
  have hxkeys : x.keys = (callEnding c at_ s).keys := hbegun.same .keys
  have hxhook : x.call.replaced = true → x.keys.hook = .onHook := by
    rw [hxcall, hxkeys]; exact of_decide_eq_true
  obtain ⟨v, i, -, hempty, hstored⟩ := refund_stored hxasks hxearlier hxopen
    (hrun.elim (fun hn => .inr (by rw [hxcoin]; exact ⟨hn, .inl hescrow⟩))
      (fun hp => .inl (by rw [hxcoin]; exact ⟨hp, hescrow⟩))) (by rw [hxlog]; exact hlog) hxhook
  obtain ⟨rfl, rfl⟩ := hempty (by rw [hxcoin]; exact hescrow)
  rw [hend, tellRateEnd_inactive at_ hxrate, progress_eq hxearlier, clearAccount_inactive hxrate]
  have hvault : x.vault = s.vault := hbegun.same .vault
  have hincd : x.incd = s.incd := hbegun.same .incd
  have hslot : slotOver (slotEnded c at_ s sl) x = slotOver (slotEnded c at_ s sl) s := by
    unfold slotOver; rw [hxcoin]
  rw [hvault, hincd, hslot] at hstored
  exact (hbegun.update (fun y => callStored (slotOver (slotEnded c at_ s sl) s)
    (refundOver (slotEnded c at_ s sl) s.vault s.incd y)) rfl (fun _ => rfl)).trans hstored

theorem callStored_only {sl : Slot} : OnlyChanges [.call, .log] s (callStored sl s) := by
  intro p hp
  cases p
  case clock => exact ⟨rfl, rfl⟩
  case call | log => exact absurd (by decide) hp
  all_goals rfl

theorem refundOver_only {c : EndCause} {at_ : Nat} {sl : Slot} :
    OnlyChanges [.call, .keys, .line, .coin] s (refundOver sl s.vault s.incd (callEnding c at_ s)) := by
  intro p hp
  cases p
  case clock => exact ⟨rfl, rfl⟩
  case call | keys | line | coin => exact absurd (by decide) hp
  all_goals rfl

/-- R16 to R18: the end of a call that nothing holds back. -/
theorem callEnded_bare {c : EndCause} {at_ : Nat} {sl : Slot} {s0 : State} (h : BareCall s sl) :
    CallEnded c at_ s (finish s0 (endCall c at_ s)) sl := by
  obtain ⟨w, hw, hended⟩ := endCall_bare (c := c) (at_ := at_) h
  have hbody := (finish_body s0 (endCall c at_ s)).trans hended.body
  obtain ⟨ho, hclosing, hstart, hrate, htransit, hescrow, hrun, hreport, hlog⟩ := h
  have hcall : (finish s0 (endCall c at_ s)).call = callAtRest (logged (slotOver (slotEnded c at_ s sl) s) (setOpen none w)) :=
    same_of_body hbody .call
  have hmode : unratedMode s = some s.config.ratingMode := if_pos (by rw [hrate]; rfl)
  refine ⟨?_, ?_, ?_, ?_, ?_, ?_, ?_, ?_, linkKept_of_kept endCall_kept⟩
  · have hlogged : (finish s0 (endCall c at_ s)).store.log =
        (callStored (slotOver (slotEnded c at_ s sl) s) w).store.log := same_of_body hbody .log
    rw [hlogged, hw]
    have hsum : uncountedSum s.coin.escrow = uncountedSum [] := by rw [hescrow]
    unfold slotOver slotEnded
    rw [hsum, hmode]
    rfl
  · rw [hcall]; rfl
  · rw [hcall, hw]; rfl
  · rw [hcall]; rfl
  · have hkeys : (finish s0 (endCall c at_ s)).keys = (callStored (slotOver (slotEnded c at_ s sl) s) w).keys :=
      same_of_body hbody .keys
    rw [hkeys, hw]; rfl
  · have hline : (finish s0 (endCall c at_ s)).line = (callStored (slotOver (slotEnded c at_ s sl) s) w).line :=
      same_of_body hbody .line
    rw [hline, hw]; exact lineFreed_eq s
  · have hcoin : (finish s0 (endCall c at_ s)).coin = (callStored (slotOver (slotEnded c at_ s sl) s) w).coin :=
      same_of_body hbody .coin
    rw [hcoin, hw]; exact allStranded_empty (c := { s.coin with tally := {} }) hescrow
  · have hover : OnlyChanges [.call, .keys, .line, .coin, .log] s w := by
      rw [hw]; exact (refundOver_only (sl := slotEnded c at_ s sl) (c := c) (at_ := at_)).wider (by decide)
    exact only_finish ((hover.step callStored_only (by decide)).step hended.only (by decide))

end Sys2Proof.Machine
end

section
/-! The end of a call that RATE rates (R16, R105): the account closed into the record, and the escrow refunded. -/

namespace Sys2Proof.Machine

variable {s t u v : State}

/-! ### The bank released (R105 step 5, R120) -/

theorem setInUse_get (n : BankName) (b : Bool) (s : State) : (setInUse n b s).bank.get n = s.bank.get n := by
  cases n <;> rfl

theorem clearInUse_retiring {n : BankName} (h : (s.bank.get n).state = .retiring) :
    clearInUse n s = moveBank n .ready .retired (setInUse n false s) := if_pos (by rw [setInUse_get]; exact h)

theorem clearInUse_other {n : BankName} (h : (s.bank.get n).state ≠ .retiring) :
    clearInUse n s = setInUse n false s := if_neg (by rw [setInUse_get]; exact h)

theorem moveBank_notifies (n : BankName) (b : BankState) (c : BankCause) (s : State) :
    Notifies (setBank n { s.bank.get n with state := b } s) (moveBank n b c s) := notifies_post ..

theorem clearInUse_notifies (n : BankName) (s : State) (hn : s.rate.bank = some n) :
    Notifies { s with bank := banksReleased s } (clearInUse n s) := by
  by_cases h : (s.bank.get n).state = .retiring
  · rw [clearInUse_retiring h]
    have hmoved := moveBank_notifies n .ready .retired (setInUse n false s)
    have hstate : setBank n { (setInUse n false s).bank.get n with state := .ready } (setInUse n false s) =
        { s with bank := banksReleased s } := by
      unfold banksReleased
      rw [hn]
      cases n with
      | a => have ha : s.bank.a.state = .retiring := h
             simp only [ha, if_true]; rfl
      | b => have hb : s.bank.b.state = .retiring := h
             simp only [hb, if_true]; rfl
    rw [← hstate]
    exact hmoved
  · have hstate : setInUse n false s = { s with bank := banksReleased s } := by
      unfold banksReleased
      rw [hn]
      cases n with
      | a => have ha : ¬ s.bank.a.state = .retiring := h
             simp only [ha, if_false]; rfl
      | b => have hb : ¬ s.bank.b.state = .retiring := h
             simp only [hb, if_false]; rfl
    rw [clearInUse_other h, hstate]
    exact .refl

/-! ### The account closed (R105) -/

/-- R105 step 5: the account's phase ENDED, and its bank let go. -/
def accountOver (s : State) : State :=
  { s with
    call := { s.call with warningTimer := none }
    rate := { s.rate with acct := s.rate.acct.close, phase := .ended, closing := false }
    bank := banksReleased s }

theorem setPhase_ended (h : s.rate.phase ≠ .ended) :
    setPhase .ended s = { s with call := { s.call with warningTimer := none }, rate := { s.rate with phase := .ended } } :=
  if_neg h

/-- R105 step 5: the account's phase ENDED, its bank still in use. -/
def phaseEnded (s : State) : State :=
  { s with
    call := { s.call with warningTimer := none }
    rate := { s.rate with acct := s.rate.acct.close, phase := .ended, closing := false } }

theorem accountEnded_eq (h : s.rate.phase ≠ .ended) : accountEnded s =
    match s.rate.bank with
    | some n => clearInUse n (phaseEnded s)
    | none => phaseEnded s := by
  unfold accountEnded
  rw [setPhase_ended h]
  rfl

theorem accountEnded_notifies (h : s.rate.phase ≠ .ended) : Notifies (accountOver s) (accountEnded s) := by
  have hover : accountOver s = { phaseEnded s with bank := banksReleased (phaseEnded s) } := rfl
  rw [accountEnded_eq h, hover]
  cases hb : s.rate.bank with
  | some n => exact clearInUse_notifies n (phaseEnded s) hb
  | none =>
    have hbank : banksReleased (phaseEnded s) = (phaseEnded s).bank := by
      have hnone : (phaseEnded s).rate.bank = none := hb
      unfold banksReleased; rw [hnone]
    rw [hbank]
    exact .refl

/-- R105, R19: the closed account copied into the open record, and RATE INACTIVE. -/
def accountCopied (s : State) : State :=
  { s with
    call := { s.call with openSlot := s.call.openSlot.map (Slot.modify (copyAccount (keptAccount s.rate))) }
    rate := RateBlock.inactive }

theorem savedAccount_some (h : s.rate.phase ≠ .inactive) : savedAccount s.rate = some (keptAccount s.rate) := by
  unfold savedAccount keptAccount
  split
  · next hp => exact absurd hp h
  · rfl

theorem copyClosed_eq (h : s.rate.phase ≠ .inactive) : copyClosed s = accountCopied s := by
  unfold copyClosed; rw [savedAccount_some h]; rfl

theorem clearAccount_closes (hc : s.rate.closing = true) (hm : collectInFlight s = false) (hp : s.rate.phase ≠ .ended) :
    Notifies (accountCopied (accountOver s)) (clearAccount s) := by
  have hclose : tryClose s = accountEnded s := if_pos (by rw [hc, hm]; rfl)
  have hended := accountEnded_notifies hp
  have hphase : (accountEnded s).rate.phase = .ended := congrArg RateBlock.phase (hended.same .rate)
  unfold clearAccount
  dsimp only
  rw [hclose, if_pos hphase, copyClosed_eq (by rw [hphase]; decide)]
  exact hended.update accountCopied rfl (fun _ => rfl)

/-! ### RATE told the end (R105 steps 1 and 2) -/

/-- R105: RATE closing, with the held steps that count at the end instant taken. -/
def closingRate (at_ : Nat) (s : State) : RateBlock :=
  { s.rate with
    graceTimer := none, graceExpired := false, period := none, superTimer := none, held := [], closing := true
    periods := s.rate.periods + ((heldUpTo at_ s).filter HeldStep.period).length
    acct := s.rate.acct.charge ((heldUpTo at_ s).map HeldStep.amount).sum }

def toldEnd (at_ : Nat) (s : State) : State := { s with rate := closingRate at_ s }

theorem tellRateEnd_eq (at_ : Nat) (h : s.rate.phase ≠ .inactive) : tellRateEnd at_ s = toldEnd at_ s := if_neg h

theorem close_charge (a : Account) (n : Nat) : (a.charge n).close = a.closedWith n := by
  unfold Account.charge Account.close Account.closedWith Account.settle
  dsimp only

theorem rating_phase (h : rating s = true) : s.rate.phase ≠ .inactive ∧ s.rate.phase ≠ .ended := by
  unfold rating at h
  cases hp : s.rate.phase with
  | inactive | ended => rw [hp] at h; simp at h
  | settling | running | warning | grace => exact ⟨nofun, nofun⟩

/-- R105: the record of a rated call with the account that its close leaves. -/
theorem copyAccount_closed (at_ : Nat) (s : State) (r : CallRecord) :
    copyAccount (keptAccount (accountOver (toldEnd at_ s)).rate) r = ratedRecord (heldUpTo at_ s) (keptAccount s.rate) r := by
  have hacct : (accountOver (toldEnd at_ s)).rate.acct =
      s.rate.acct.closedWith ((heldUpTo at_ s).map HeldStep.amount).sum := close_charge ..
  unfold copyAccount ratedRecord keptAccount
  dsimp only
  rw [hacct]
  rfl

/-! ### The end of a rated call -/

/-- The slot of a rated call at its end. -/
def ratedSlot (c : EndCause) (at_ : Nat) (s : State) (sl : Slot) : Slot :=
  { sl with
    ended := true
    record := { ratedEndRecord c at_ s sl with seq := sl.record.seq } }

/-- R16 steps 1 to 3: the state of a rated call's end, its account closed, before the refund is asked for. -/
def ratedEnding (c : EndCause) (at_ : Nat) (sl : Slot) (s : State) : State :=
  { callEnding c at_ s with
    call := { (callEnding c at_ s).call with openSlot := some (ratedSlot c at_ s sl) }
    rate := RateBlock.inactive
    bank := banksReleased s }

theorem ratedEnding_eq {c : EndCause} {at_ : Nat} {sl : Slot} (ho : s.call.openSlot = some sl) :
    accountCopied (accountOver (toldEnd at_ (callEnding c at_ s))) = ratedEnding c at_ sl s := by
  have hopen : (callEnding c at_ s).call.openSlot = some (slotEnded c at_ s sl) := by
    show s.call.openSlot.map _ = _
    rw [ho]; rfl
  have hslot : (slotEnded c at_ s sl).modify (copyAccount (keptAccount (accountOver (toldEnd at_ (callEnding c at_ s))).rate))
      = ratedSlot c at_ s sl := by
    unfold Slot.modify
    rw [copyAccount_closed]
    rfl
  unfold accountCopied
  have hthe : (accountOver (toldEnd at_ (callEnding c at_ s))).call.openSlot = some (slotEnded c at_ s sl) := hopen
  rw [hthe, Option.map_some, hslot]
  rfl

/-- `RatedCall` without the mark that the slot is not complete, which a record stored at once does not read. -/
abbrev RatedOpen (s : State) (sl : Slot) : Prop :=
  s.call.openSlot = some sl ∧ s.call.closingSlot = none ∧ s.call.atStart = [] ∧ rating s = true
    ∧ s.coin.transit = none ∧ s.coin.run = .none ∧ s.coin.mover = .idle ∧ s.coin.report = false
    ∧ s.store.log.records.length < 64

theorem ratedOpen_of {sl : Slot} (h : RatedCall s sl) : RatedOpen s sl := by
  obtain ⟨ho, -, hrest⟩ := h
  exact ⟨ho, hrest⟩

/-- R16: a rated call's end comes to the refund with its account closed. -/
theorem endCall_rated {c : EndCause} {at_ : Nat} {sl : Slot} (h : RatedOpen s sl) : ∃ x,
    Notifies (ratedEnding c at_ sl s) x ∧ endCall c at_ s = storeOpen (takeReport (askRefund x)) := by
  obtain ⟨ho, hclosing, hstart, hrating, htransit, hrun, hmover, hreport, -⟩ := h
  obtain ⟨hinactive, hended⟩ := rating_phase hrating
  have hbegun := endCall_begun c at_ s
  generalize hx : releaseCallLine (setCallState .clearing (keysStop (fixEnd c at_ s))) = x at hbegun
  have hxrate : x.rate = s.rate := hbegun.same .rate
  have hxcoin : x.coin = s.coin := hbegun.same .coin
  have hxcall : x.call = (callEnding c at_ s).call := hbegun.same .call
  have htold : Notifies (toldEnd at_ (callEnding c at_ s)) (toldEnd at_ x) := hbegun.update (toldEnd at_) rfl (fun _ => rfl)
  have hearlier : NoEarlier (toldEnd at_ x) := by
    show x.call.closingSlot = none ∧ x.call.atStart = [] ∧ x.coin.report = false
    rw [hxcall, hxcoin]; exact ⟨hclosing, hstart, hreport⟩
  have hflight : collectInFlight (toldEnd at_ x) = false := by
    show (decide (x.coin.mover = .collecting) && !x.coin.blind) = false
    rw [hxcoin, hmover]; rfl
  have hphase : (toldEnd at_ x).rate.phase ≠ .ended := by
    show x.rate.phase ≠ .ended
    rw [hxrate]; exact hended
  have hclear := clearAccount_closes rfl hflight hphase
  refine ⟨clearAccount (toldEnd at_ x), ?_, ?_⟩
  · rw [← ratedEnding_eq ho]
    exact (htold.update (fun y => accountCopied (accountOver y)) rfl (fun _ => rfl)).trans hclear
  · have hend : endCall c at_ s = progress (tellRateEnd at_ x) := by rw [← hx]; rfl
    rw [hend, tellRateEnd_eq at_ (by rw [hxrate]; exact hinactive), progress_eq hearlier]

/-- The blocks that the end of a rated call leaves the same way in every case. -/
theorem ratedEndCommon_of {c : EndCause} {at_ : Nat} {sl : Slot} {s0 : State}
    (h : OnlyChanges [.call, .coin, .vault, .incd, .log] (ratedEnding c at_ sl s) (endCall c at_ s)) :
    RatedEndCommon s (finish s0 (endCall c at_ s)) :=
  ⟨(finish_rate ..).trans (h .rate (by decide)), (finish_bank ..).trans (h .bank (by decide)),
    ((finish_line ..).trans (h .line (by decide))).trans (lineFreed_eq s), linkKept_of_kept endCall_kept⟩

theorem ratedEnding_asks {c : EndCause} {at_ : Nat} {sl : Slot} (h : RatedOpen s sl) :
    AsksRefund (ratedEnding c at_ sl s) ∧ NoEarlier (ratedEnding c at_ sl s) := by
  obtain ⟨-, hclosing, hstart, -, htransit, -, -, hreport, -⟩ := h
  exact ⟨⟨rfl, rfl, htransit, rfl⟩, hclosing, hstart, hreport⟩

theorem asks_of_notifies (h : Notifies s t) (ha : AsksRefund s ∧ NoEarlier s) : AsksRefund t ∧ NoEarlier t := by
  have hcall : t.call = s.call := h.same .call
  have hcoin : t.coin = s.coin := h.same .coin
  have hrate : t.rate = s.rate := h.same .rate
  rw [AsksRefund, NoEarlier, hcall, hcoin, hrate]
  exact ha

/-- R16 to R18, R105: a rated call ends, with nothing to refund. -/
theorem endCall_ratedStored {c : EndCause} {at_ : Nat} {sl : Slot} (h : RatedOpen s sl)
    (he : s.coin.escrow = [] ∨ s.coin.order = .outOfOrder) : ∃ v i, v.counters = s.vault.counters
      ∧ (s.coin.escrow = [] → v = s.vault ∧ i = s.incd)
      ∧ Notifies (callStored (slotOver (ratedSlot c at_ s sl) s)
          (refundOver (ratedSlot c at_ s sl) v i (ratedEnding c at_ sl s))) (endCall c at_ s) := by
  obtain ⟨x, hx, hend⟩ := endCall_rated (c := c) (at_ := at_) h
  obtain ⟨hasks, hearlier⟩ := asks_of_notifies hx (ratedEnding_asks h)
  obtain ⟨ho, hclosing, hstart, hrating, htransit, hrun, hmover, hreport, hlog⟩ := h
  have hxcall : x.call = (ratedEnding c at_ sl s).call := hx.same .call
  have hxcoin : x.coin = s.coin := hx.same .coin
  have hxkeys : x.keys = (ratedEnding c at_ sl s).keys := hx.same .keys
  have hxvault : x.vault = s.vault := hx.same .vault
  have hxincd : x.incd = s.incd := hx.same .incd
  have hxlog : x.store.log = s.store.log := hx.same .log
  obtain ⟨v, i, hv, hempty, hstored⟩ := refund_stored (sl := ratedSlot c at_ s sl) hasks hearlier (by rw [hxcall]; rfl)
    (.inr (by rw [hxcoin]; exact ⟨hrun, he⟩)) (by rw [hxlog]; exact hlog)
    (by rw [hxcall, hxkeys]; exact of_decide_eq_true)
  have hslot : slotOver (ratedSlot c at_ s sl) x = slotOver (ratedSlot c at_ s sl) s := by
    unfold slotOver; rw [hxcoin]
  rw [hxvault] at hv
  rw [hxcoin, hxvault, hxincd] at hempty
  rw [hslot] at hstored
  rw [hend]
  exact ⟨v, i, hv, hempty, (hx.update (fun y => callStored (slotOver (ratedSlot c at_ s sl) s)
    (refundOver (ratedSlot c at_ s sl) v i y)) rfl (fun _ => rfl)).trans hstored⟩

theorem refundOver_only_rated {sl : Slot} {v : VaultBlock} {i : IncdBlock} :
    OnlyChanges [.call, .coin, .vault, .incd] s (refundOver sl v i s) := by
  intro p hp
  cases p
  case clock => exact ⟨rfl, rfl⟩
  case call | coin | vault | incd => exact absurd (by decide) hp
  all_goals rfl

/-- R16 to R18, R105: the end of a rated call whose escrow is empty or OUT_OF_ORDER. -/
theorem ratedCallEnded {c : EndCause} {at_ : Nat} {sl : Slot} {s0 : State} (h : RatedOpen s sl)
    (he : s.coin.escrow = [] ∨ s.coin.order = .outOfOrder) :
    RatedCallEnded c at_ s (finish s0 (endCall c at_ s)) sl := by
  obtain ⟨v, i, hv, hempty, hended⟩ := endCall_ratedStored (c := c) (at_ := at_) h he
  generalize hw : refundOver (ratedSlot c at_ s sl) v i (ratedEnding c at_ sl s) = w at hended
  have hbody := (finish_body s0 (endCall c at_ s)).trans hended.body
  have hcall : (finish s0 (endCall c at_ s)).call =
      callAtRest (logged (slotOver (ratedSlot c at_ s sl) s) (setOpen none w)) := same_of_body hbody .call
  have hcommon : OnlyChanges [.call, .coin, .vault, .incd, .log] (ratedEnding c at_ sl s) (endCall c at_ s) := by
    have hover : OnlyChanges [.call, .coin, .vault, .incd, .log] (ratedEnding c at_ sl s) w := by
      rw [← hw]; exact refundOver_only_rated.wider (by decide)
    exact (hover.step callStored_only (by decide)).step hended.only (by decide)
  refine ⟨?_, ?_, ?_, ?_, ?_, ?_, ?_, fun h0 => ?_, only_finish (endCall_only.wider (by decide)), ratedEndCommon_of hcommon⟩
  · have hlogged : (finish s0 (endCall c at_ s)).store.log =
        (callStored (slotOver (ratedSlot c at_ s sl) s) w).store.log := same_of_body hbody .log
    unfold LogTook
    rw [hlogged, ← hw]
    rfl
  · rw [hcall]; rfl
  · rw [hcall, ← hw]; rfl
  · rw [hcall]; rfl
  · have hkeys : (finish s0 (endCall c at_ s)).keys = (callStored (slotOver (ratedSlot c at_ s sl) s) w).keys :=
      same_of_body hbody .keys
    rw [hkeys, ← hw]; rfl
  · have hcoin : (finish s0 (endCall c at_ s)).coin = (callStored (slotOver (ratedSlot c at_ s sl) s) w).coin :=
      same_of_body hbody .coin
    rw [hcoin, ← hw]; rfl
  · have hvault : (finish s0 (endCall c at_ s)).vault = (callStored (slotOver (ratedSlot c at_ s sl) s) w).vault :=
      same_of_body hbody .vault
    rw [hvault, ← hw]; exact hv
  · have hvault : (finish s0 (endCall c at_ s)).vault = (callStored (slotOver (ratedSlot c at_ s sl) s) w).vault :=
      same_of_body hbody .vault
    have hincd : (finish s0 (endCall c at_ s)).incd = (callStored (slotOver (ratedSlot c at_ s sl) s) w).incd :=
      same_of_body hbody .incd
    rw [hvault, hincd, ← hw]
    exact hempty h0

/-! ### The refund begun (R77) -/

/-- R77: the refund of the escrow's first coin begun. -/
def refundStarted (e : EscrowEntry) (rest : List EscrowEntry) (s : State) : State :=
  { s with
    call := { s.call with refundAsked := true }
    coin := refundBegun e rest { s with coin := { s.coin with run := .callEnd, tally := {} } } }

theorem askRefund_strokes {e : EscrowEntry} {rest : List EscrowEntry} (ha : AsksRefund s) (he : NoEarlier s)
    (hr : s.coin.run = .none) (hm : s.coin.mover = .idle) (ho : s.coin.order = .inOrder) (hl : s.coin.escrow = e :: rest) :
    askRefund s = refundStarted e rest s := by
  have hin : ¬ (runBegun s).coin.order = .outOfOrder := by
    show ¬ s.coin.order = .outOfOrder
    rw [ho]; decide
  have hsome : ¬ (runBegun s).coin.escrow.isEmpty = true := by
    show ¬ s.coin.escrow.isEmpty = true
    rw [hl]; exact Bool.false_ne_true
  have hidle : ¬ (runBegun s).coin.mover ≠ .idle := not_not.2 hm
  have hstep : runStep (runBegun s) = beginStroke .refund (runBegun s) := by
    show (if (runBegun s).coin.order = .outOfOrder then endRun (strand (runBegun s))
      else if (runBegun s).coin.escrow.isEmpty then endRun (runBegun s)
      else if (runBegun s).coin.mover ≠ .idle then runBegun s else beginStroke .refund (runBegun s)) = _
    rw [if_neg hin, if_neg hsome, if_neg hidle]
  have hmark : markMoving .refund s.coin.strokeNo s.coin.escrow = { e with moving := some (.refund, s.coin.strokeNo) } :: rest := by
    rw [hl]; rfl
  rw [askRefund_run ha he hr, hstep]
  unfold beginStroke runBegun refundStarted refundBegun
  dsimp only
  rw [hmark, ← he.2.2]
  rfl

theorem storeOpen_incomplete {sl : Slot} (ho : s.call.openSlot = some sl) (hc : sl.complete = false) : storeOpen s = s := by
  unfold storeOpen
  rw [ho]
  exact if_neg fun h => by rw [hc] at h; cases h.2.1

theorem endCall_ratedClears {c : EndCause} {at_ : Nat} {sl : Slot} {e : EscrowEntry} {rest : List EscrowEntry}
    (h : RatedCall s sl) (ho : s.coin.order = .inOrder) (hl : s.coin.escrow = e :: rest) :
    Notifies (refundStarted e rest (ratedEnding c at_ sl s)) (endCall c at_ s) := by
  obtain ⟨x, hx, hend⟩ := endCall_rated (c := c) (at_ := at_) (ratedOpen_of h)
  obtain ⟨hasks, hearlier⟩ := asks_of_notifies hx (ratedEnding_asks (ratedOpen_of h))
  obtain ⟨-, hcomplete, -, -, -, -, hrun, hmover, hreport, -⟩ := h
  have hxcall : x.call = (ratedEnding c at_ sl s).call := hx.same .call
  have hxcoin : x.coin = s.coin := hx.same .coin
  have hstarted : askRefund x = refundStarted e rest x := askRefund_strokes hasks hearlier (by rw [hxcoin]; exact hrun)
    (by rw [hxcoin]; exact hmover) (by rw [hxcoin]; exact ho) (by rw [hxcoin]; exact hl)
  have hnone : takeReport (refundStarted e rest x) = refundStarted e rest x :=
    takeReport_none (show x.coin.report = false by rw [hxcoin]; exact hreport)
  have hopen : (refundStarted e rest x).call.openSlot = some (ratedSlot c at_ s sl) := by
    show x.call.openSlot = _
    rw [hxcall]; rfl
  rw [hend, hstarted, hnone, storeOpen_incomplete hopen hcomplete]
  exact hx.update (refundStarted e rest) rfl (fun _ => rfl)

theorem refundStarted_only {e : EscrowEntry} {rest : List EscrowEntry} :
    OnlyChanges [.call, .coin] s (refundStarted e rest s) := by
  intro p hp
  cases p
  case clock => exact ⟨rfl, rfl⟩
  case call | coin => exact absurd (by decide) hp
  all_goals rfl

theorem ratedEnding_only {c : EndCause} {at_ : Nat} {sl : Slot} :
    OnlyChanges [.call, .keys, .line, .rate, .bank] s (ratedEnding c at_ sl s) := by
  intro p hp
  cases p
  case clock => exact ⟨rfl, rfl⟩
  case call | keys | line | rate | bank => exact absurd (by decide) hp
  all_goals rfl

/-- R16, R77, R105: the end of a rated call with coins in the escrow IN_ORDER. -/
theorem ratedCallClears {c : EndCause} {at_ : Nat} {sl : Slot} {e : EscrowEntry} {rest : List EscrowEntry} {s0 : State}
    (h : RatedCall s sl) (ho : s.coin.order = .inOrder) (hl : s.coin.escrow = e :: rest) :
    RatedCallClears c at_ s (finish s0 (endCall c at_ s)) sl e rest := by
  have hended := endCall_ratedClears (c := c) (at_ := at_) h ho hl
  have hbody := (finish_body s0 (endCall c at_ s)).trans hended.body
  have hcall : (finish s0 (endCall c at_ s)).call = (refundStarted e rest (ratedEnding c at_ sl s)).call :=
    same_of_body hbody .call
  have hkeys : (finish s0 (endCall c at_ s)).keys = (ratedEnding c at_ sl s).keys := same_of_body hbody .keys
  have hcoin : (finish s0 (endCall c at_ s)).coin = (refundStarted e rest (ratedEnding c at_ sl s)).coin :=
    same_of_body hbody .coin
  refine ⟨?_, ?_, ?_, ?_, hkeys, hcoin, ?_, ratedEndCommon_of (sl := sl) ?_⟩
  · rw [hcall]; rfl
  · rw [hcall]; rfl
  · rw [hcall]; rfl
  · rw [hcall]; rfl
  · exact only_finish (((ratedEnding_only.wider (by decide)).step refundStarted_only (by decide)).step hended.only
      (by decide))
  · exact (refundStarted_only.wider (by decide)).step hended.only (by decide)

end Sys2Proof.Machine
end

section
/-! The ends of calls by the user, the timers (O44) and the line (O45). -/

namespace Sys2Proof.Machine

variable {s t u v : State}

/-! ### Ends stated from an earlier state -/

theorem release_line_of {u v : State} (hl : v.line = u.line) (hn : v.now = u.now) (hp : v.pins = u.pins) :
    (release v).line = (release u).line := by
  rw [release_line, release_line, hl]
  unfold releasedLine State.after
  rw [hl, hn, hp]

theorem clockAt_of {n : Nat} (h : OnlyChanges [.call, .keys] u v) : clockAt v n = clockAt u n := by
  obtain ⟨hclock, htick⟩ := h .clock (by decide)
  have hnow : v.now = u.now := h .now (by decide)
  unfold clockAt
  rw [hclock, htick, hnow]

/-- KEYS' block with collection stopped. -/
def keysDone (k : KeysBlock) : KeysBlock :=
  { k with collection := .done, firstDigitTimer := none, interDigitTimer := none }

/-- What CALL and KEYS do before the end leaves the end as it is, while the dial buffer stands. -/
theorem CallEnded.before {c : EndCause} {n : Nat} {sl : Slot} (g : CallEnded c n v t sl) (h : OnlyChanges [.call, .keys] u v)
    (hkeys : keysDone v.keys = keysDone u.keys) (hlink : LinkKept u t) : CallEnded c n u t sl := by
  obtain ⟨glog, gopen, gstate, glevel, gkeys, gline, gcoin, gonly, -⟩ := g
  have hlog : v.store.log = u.store.log := h .log (by decide)
  have hconfig : v.config = u.config := h .config (by decide)
  have hbuffer : v.keys.buffer = u.keys.buffer := (congrArg KeysBlock.buffer hkeys :)
  have hhook : v.keys.hook = u.keys.hook := (congrArg KeysBlock.hook hkeys :)
  have hline : v.line = u.line := h .line (by decide)
  have hcoin : v.coin = u.coin := h .coin (by decide)
  have hrecord : endedRecord c n v sl = endedRecord c n u sl := by
    unfold endedRecord
    rw [hlog, clockAt_of h, hbuffer, hconfig]
  rw [hlog, hrecord] at glog
  rw [hhook] at gstate
  rw [hline, release_line_of hline (h .now (by decide)) (h .pins (by decide))] at gline
  rw [hcoin] at gcoin
  exact ⟨glog, gopen, gstate, glevel, gkeys.trans hkeys, gline, gcoin, (h.wider (by decide)).step gonly (by decide), hlink⟩

theorem Notifies.linkKept (h : Notifies s t) (g : LinkKept t u) : LinkKept s u := by
  obtain ⟨l, hl, rfl⟩ := h
  have ho : l.outstanding = s.link.outstanding := (congrArg LinkBlock.outstanding hl :)
  have ht : l.turn = s.link.turn := (congrArg LinkBlock.turn hl :)
  have hx : l.tx = s.link.tx := (congrArg LinkBlock.tx hl :)
  have hr : l.reply = s.link.reply := (congrArg LinkBlock.reply hl :)
  obtain ⟨go, gt, gx⟩ := g
  refine ⟨go.trans ho, gt.trans ht, fun hs => ?_⟩
  obtain ⟨gtx, greply⟩ := gx (by show l.tx.isSome = true; rw [hx]; exact hs)
  exact ⟨gtx.trans hx, greply.trans hr⟩

theorem Notifies.andOnly {l : List Part} (h : Notifies s t) (g : OnlyChanges l t u) : OnlyChanges l s u :=
  (h.only.wider (List.nil_subset l)).step g (List.Subset.refl l)

theorem RatedCallEnded.before {c : EndCause} {n : Nat} {sl : Slot} (g : RatedCallEnded c n v t sl) (h : Notifies u v) :
    RatedCallEnded c n u t sl := by
  obtain ⟨glog, gopen, gstate, glevel, gkeys, gcoin, gcounters, gempty, gonly, grate, gbank, gline, glink⟩ := g
  have hline : (release v).line = (release u).line := release_line_of (h.same .line) (h.same .now) (h.same .pins)
  rw [hline] at gline
  have honly := h.andOnly gonly
  have hkept := h.linkKept glink
  obtain ⟨l, hl, rfl⟩ := h
  exact ⟨glog, gopen, gstate, glevel, gkeys, gcoin, gcounters, gempty, honly, grate, gbank, gline, hkept⟩

theorem RatedCallClears.before {c : EndCause} {n : Nat} {sl : Slot} {e : EscrowEntry} {rest : List EscrowEntry}
    (g : RatedCallClears c n v t sl e rest) (h : Notifies u v) : RatedCallClears c n u t sl e rest := by
  obtain ⟨gopen, gstate, gasked, greplaced, gkeys, gcoin, gonly, grate, gbank, gline, glink⟩ := g
  have hline : (release v).line = (release u).line := release_line_of (h.same .line) (h.same .now) (h.same .pins)
  rw [hline] at gline
  have honly := h.andOnly gonly
  have hkept := h.linkKept glink
  obtain ⟨l, hl, rfl⟩ := h
  exact ⟨gopen, gstate, gasked, greplaced, gkeys, gcoin, honly, grate, gbank, gline, hkept⟩

/-! ### The handset replaced (R16, R28) -/

theorem callHookOn_endable (h : endable s.call.state = true) :
    callHookOn s = endCall .userClear s.now (postHook s) := by
  unfold callHookOn
  cases hs : s.call.state with
  | idle | clearing | abandoned => rw [hs] at h; cases h
  | collecting | awaitDeposit | waitLine | seizing | sending | ringing | connected | followOnClearing => rfl

theorem exec_hookOn_endable (ha : alive s = true) (hr : s.store.start.hookRead = true) (hh : s.keys.hook = .offHook)
    (he : endable s.call.state = true) : exec .hookOn s =
      .next (finish s (endCall .userClear s.now (postHook (setHook .onHook s)))) := by
  rw [exec_hookOn ha hr hh, callHookOn_endable (s := setHook .onHook s) he]
  rfl

theorem postHook_notifies (s : State) : Notifies s (postHook s) := notifies_post ..

theorem bareCall_of_notifies {sl : Slot} (h : Notifies s t) (hb : BareCall s sl) : BareCall t sl := by
  obtain ⟨l, -, rfl⟩ := h; exact hb

theorem ratedCall_of_notifies {sl : Slot} (h : Notifies s t) (hb : RatedCall s sl) : RatedCall t sl := by
  obtain ⟨l, -, rfl⟩ := h; exact hb

/-- R16: the end of a call that nothing holds back, after notices have been posted. -/
theorem callEnded_of_notifies {c : EndCause} {n : Nat} {sl : Slot} {s0 : State} (h : Notifies u v) (hb : BareCall u sl) :
    CallEnded c n u (finish s0 (endCall c n v)) sl := by
  have hended : CallEnded c n v (finish s0 (endCall c n v)) sl := callEnded_bare (bareCall_of_notifies h hb)
  have hkeys : v.keys = u.keys := h.same .keys
  have hlink : LinkKept v (finish s0 (endCall c n v)) := linkKept_of_kept endCall_kept
  exact hended.before (h.only.wider (by decide)) (by rw [hkeys]) (h.linkKept hlink)

theorem ratedEnd_of_notifies {c : EndCause} {n : Nat} {sl : Slot} {s0 : State} (h : Notifies u v) (hr : RatedCall u sl) :
    (u.coin.escrow = [] ∨ u.coin.order = .outOfOrder → RatedCallEnded c n u (finish s0 (endCall c n v)) sl)
      ∧ ∀ e rest, u.coin.escrow = e :: rest → u.coin.order = .inOrder →
          RatedCallClears c n u (finish s0 (endCall c n v)) sl e rest := by
  have hcoin : v.coin = u.coin := h.same .coin
  have hrated : RatedCall v sl := ratedCall_of_notifies h hr
  refine ⟨fun he => (ratedCallEnded (ratedOpen_of hrated) ?_).before h, fun e rest hl ho => (ratedCallClears hrated ?_ ?_).before h⟩
  · rw [hcoin]; exact he
  · rw [hcoin]; exact ho
  · rw [hcoin]; exact hl

theorem ratedEnd {c : EndCause} {n : Nat} {sl : Slot} {s0 : State} (hr : RatedCall u sl) :
    (u.coin.escrow = [] ∨ u.coin.order = .outOfOrder → RatedCallEnded c n u (finish s0 (endCall c n u)) sl)
      ∧ ∀ e rest, u.coin.escrow = e :: rest → u.coin.order = .inOrder →
          RatedCallClears c n u (finish s0 (endCall c n u)) sl e rest := ratedEnd_of_notifies .refl hr

/-! ### The digit timers (R31, R32, R36) -/

theorem modifyOpen_some {f : CallRecord → CallRecord} {sl : Slot} (h : s.call.openSlot = some sl) :
    modifyOpen f s = setOpen (some (sl.modify f)) s := by unfold modifyOpen; rw [h]; rfl

/-- R9: a number that fails ends the call, its record with the kind. -/
theorem numberFails_ended {c : EndCause} {k : NumberKind} {sl : Slot} {s0 : State} (hs : u.call.state = .collecting)
    (hb : BareCall u sl) :
    CallEnded c u.now u (finish s0 (numberFails c k (keysStop u))) (sl.modify (fun r => { r with kind := k })) := by
  obtain ⟨ho, hclosing, hstart, hrest⟩ := hb
  have hfails : numberFails c k (keysStop u) = endCall c u.now (modifyOpen (fun r => { r with kind := k }) (keysStop u)) :=
    if_pos hs
  have hopen : modifyOpen (fun r => { r with kind := k }) (keysStop u) =
      setOpen (some (sl.modify (fun r => { r with kind := k }))) (keysStop u) := modifyOpen_some ho
  rw [hfails, hopen]
  have hbare : BareCall (setOpen (some (sl.modify (fun r => { r with kind := k }))) (keysStop u))
      (sl.modify (fun r => { r with kind := k })) := ⟨rfl, hclosing, hstart, hrest⟩
  have honly : OnlyChanges [.call, .keys] u (setOpen (some (sl.modify (fun r => { r with kind := k }))) (keysStop u)) :=
    (keysStop_only.wider (by decide)).step setOpen_only (by decide)
  exact (callEnded_bare hbare).before honly rfl
    (linkKept_of_kept (.after endCall_kept (.after setOpen_kept keysStop_kept)))

theorem exec_firstDigitTimeout {d : Nat} (ha : alive s = true) (hd : s.keys.firstDigitTimer = some d)
    (hc : s.keys.collection = .awaitFirst) : exec .firstDigitTimeout s =
      .next (finish s (numberFails .incomplete .none (keysStop (reach (some d) s)))) :=
  exec_alive ha (by simp only [hd]; exact if_pos hc)

theorem exec_interDigitTimeout {d : Nat} (ha : alive s = true) (hd : s.keys.interDigitTimer = some d)
    (hc : s.keys.collection = .collectingDigits) : exec .interDigitTimeout s =
      .next (finish s (analyseTimeout (reach (some d) s))) :=
  exec_alive ha (by simp only [hd]; exact if_pos hc)

/-- The state with the best match as analysed. -/
def matched (s : State) : State := { s with keys := { s.keys with best := analyse s } }

theorem analyseTimeout_none (h : analyse s = none) :
    analyseTimeout s = numberFails .barred .barred (keysStop (matched s)) := by
  unfold analyseTimeout matched; dsimp only; rw [h]

theorem analyseTimeout_short {m : TableEntry} (h : analyse s = some m) (hn : s.keys.buffer.length < m.minLen) :
    analyseTimeout s = numberFails .incomplete m.kind.number (keysStop (matched s)) := by
  unfold analyseTimeout matched; dsimp only; rw [h]; exact if_neg (Nat.not_le.2 hn)

/-! ### The deposit and answer timers (R10, R13) -/

theorem exec_depositTimeout {d : Nat} (ha : alive s = true) (hd : s.call.depositTimer = some d)
    (hs : s.call.state = .awaitDeposit) : exec .depositTimeout s =
      .next (finish s (endCall .noDeposit (max s.now d) (reach (some d) s))) :=
  exec_alive ha (by simp only [hd]; exact if_pos hs)

theorem exec_answerTimeout {d : Nat} (ha : alive s = true) (hd : s.call.answerTimer = some d)
    (hs : s.call.state = .ringing) : exec .answerTimeout s =
      .next (finish s (endCall .noAnswer (max s.now d) (reach (some d) s))) :=
  exec_alive ha (by simp only [hd]; exact if_pos hs)

/-! ### The line's ending reports (R46) -/

theorem callEnds_takes {takes : CallState → Bool} {c : EndCause} {n : Nat} (h : takes s.call.state = true) :
    callEnds takes c n s = endCall c n s := if_pos h

theorem exec_dialToneTimeout {d : Nat} (ha : alive s = true) (hd : s.line.dialToneTimer = some d)
    (hl : s.line.state = .seizedWaitTone) (hr : s.line.reported = false) (ho : s.line.owner = .call)
    (hs : s.call.state = .seizing) : exec .dialToneTimeout s =
      .next (finish s (endCall .noDialTone (max s.now d) (endingReport (reach (some d) s)))) := by
  refine exec_alive ha ?_
  simp only [hd]
  rw [if_pos ⟨hl, hr⟩]
  unfold noToneReport
  have howner : (endingReport (reach (some d) s)).line.owner = .call := ho
  rw [howner]
  exact callEnds_takes (s := endingReport (reach (some d) s)) (decide_eq_true hs)

theorem exec_busyRecognised (ha : alive s = true) (hl : listening s.line = true) (hw : s.line.progress.busyWatch = true)
    (ho : s.line.owner = .call) (hs : takesBusy s.call.state = true) : exec .busyRecognised s =
      .next (finish s (endCall .busy s.now (endingReport s))) := by
  refine exec_alive ha ?_
  rw [if_pos ⟨hl, hw⟩]
  unfold busyReport
  have howner : (endingReport s).line.owner = .call := ho
  rw [howner]
  exact callEnds_takes (s := endingReport s) hs

/-- R45: the state in which loss of loop current is reported. -/
def lossReported (since : Nat) (s : State) : State :=
  endingReport (setCurrent false { s with now := max s.now (since + 401) })

theorem exec_loopCurrentLost {since : Nat} (ha : alive s = true) (hd : s.line.absentSince = some since)
    (hw : watchRuns s.line = true) (ho : s.line.owner = .call) (hs : takesLoss s.call.state = true) :
    exec .loopCurrentLost s = .next (finish s (endCall .lineLost since (lossReported since s))) := by
  refine exec_alive ha ?_
  simp only [hd]
  rw [if_pos hw]
  have howner : (lossReported since s).line.owner = .call := ho
  have hloss : lossReport since (lossReported since s) = callEnds takesLoss .lineLost since (lossReported since s) := by
    unfold lossReport; rw [howner]
  exact hloss.trans (callEnds_takes (s := lossReported since s) hs)

/-- R59: LINE's marks at an accepted return. -/
def returned (s : State) : State :=
  { s with
    pins := { s.pins with polarity := s.line.reference }
    line := { s.line with reversed := false, holdSince := none, polaritySeen := s.line.reference } }

theorem exec_returnAccepted (ha : alive s = true) (hl : listening s.line = true) (hs : s.line.state = .seized)
    (ho : s.line.owner = .call) (hr : s.line.reversed = true) (han : s.line.answered = true)
    (hc : s.call.state = .connected) : exec .returnAccepted s =
      .next (finish s (endCall .farEnd s.now (endingReport (returned s)))) := by
  refine exec_alive ha ?_
  rw [if_pos ⟨by unfold callSeized; rw [hl, hs, ho]; rfl, hr⟩]
  unfold acceptReturn
  dsimp only
  rw [if_pos han]
  exact callEnds_takes (s := endingReport (returned s)) (decide_eq_true hc)

theorem listening_of (h : loopClosed s.line.state = true) (hr : s.line.reported = false) : listening s.line = true := by
  unfold listening; rw [h, hr]; rfl

end Sys2Proof.Machine

open Sys2Proof Sys2Proof.Machine

/-- Settles O44: every end is `endCall` on the state of its event. -/
theorem userAndTimersEndBareCalls : Obligations.UserAndTimersEndBareCalls := by
  refine ⟨fun s sl ha hb => ⟨fun he hr hh => ?_, fun d hd hc hs => ?_, fun d hd hc hs hn => ?_,
    fun d m hd hc hs hm hl => ?_, fun d hd hs => ?_, fun d hd hs => ?_⟩, fun s sl ha hrated he hr hh => ?_⟩
  · exact ⟨_, exec_hookOn_endable ha hr hh he, callEnded_of_notifies (u := setHook .onHook s) (postHook_notifies _) hb⟩
  · exact ⟨_, exec_firstDigitTimeout ha hd hc, numberFails_ended (u := reach (some d) s) hs hb⟩
  · have hnone : analyse (reach (some d) s) = none := hn
    have hmatched : matched (reach (some d) s) =
        { s with now := max s.now d, keys := { s.keys with best := none } } := by unfold matched; rw [hnone]; rfl
    refine ⟨_, exec_interDigitTimeout ha hd hc, ?_⟩
    rw [analyseTimeout_none hnone, ← hmatched]
    exact numberFails_ended (u := matched (reach (some d) s)) hs hb
  · have hsome : analyse (reach (some d) s) = some m := hm
    have hmatched : matched (reach (some d) s) =
        { s with now := max s.now d, keys := { s.keys with best := some m } } := by unfold matched; rw [hsome]; rfl
    refine ⟨_, exec_interDigitTimeout ha hd hc, ?_⟩
    rw [analyseTimeout_short hsome hl, ← hmatched]
    exact numberFails_ended (u := matched (reach (some d) s)) hs hb
  · exact ⟨_, exec_depositTimeout ha hd hs, callEnded_bare (s := reach (some d) s) hb⟩
  · exact ⟨_, exec_answerTimeout ha hd hs, callEnded_bare (s := reach (some d) s) hb⟩
  · exact ⟨_, exec_hookOn_endable ha hr hh he, ratedEnd_of_notifies (u := setHook .onHook s) (postHook_notifies _) hrated⟩

/-- Settles O45: each report hands CALL its end on the state that LINE has left. -/
theorem lineReportsEndBareCalls : Obligations.LineReportsEndBareCalls := by
  refine ⟨fun s sl ha hb ho hr => ⟨fun d hd hl hs => ?_, fun hl hw hs => ?_, fun since hd hw hs => ?_,
    fun hl hv han hc => ?_⟩, fun s sl ha hrated ho hr => ⟨fun since hd hw hs => ?_, fun hl hv han hc => ?_⟩⟩
  · exact ⟨_, exec_dialToneTimeout ha hd hl hr ho hs, callEnded_bare (s := endingReport (reach (some d) s)) hb⟩
  · exact ⟨_, exec_busyRecognised ha (listening_of hl hr) hw ho hs, callEnded_bare (s := endingReport s) hb⟩
  · exact ⟨_, exec_loopCurrentLost ha hd hw ho hs, callEnded_bare (s := lossReported since s) hb⟩
  · exact ⟨_, exec_returnAccepted ha (listening_of (by rw [hl]; rfl) hr) hl ho hv han hc,
      callEnded_bare (s := endingReport (returned s)) hb⟩
  · exact ⟨_, _, exec_loopCurrentLost ha hd hw ho hs, rfl, ratedEnd (u := lossReported since s) hrated⟩
  · exact ⟨_, _, exec_returnAccepted ha (listening_of (by rw [hl]; rfl) hr) hl ho hv han hc, rfl,
      ratedEnd (u := endingReport (returned s)) hrated⟩

end

section
/-! The service key, the two doors, the service grace timer, and urgent occurrences (O59). -/

namespace Sys2Proof.Machine

variable {s t u v : State}

/-! ### Urgent occurrences (R15, R166, R168) -/

theorem urgentToReport_eq (s : State) : urgentToReport s = { s with rpt := rptUrged s.now s.rpt } := by
  have hwait : 120000 < remainingWait { s with rpt := { s.rpt with urgentFailures := 0 } }
      ↔ s.now + 120000 < s.rpt.backoffTimer.getD 0 := by
    rw [remainingWait_eq]
    show 120000 < s.rpt.backoffTimer.getD 0 - s.now ↔ _
    omega
  unfold urgentToReport shortenWait rptUrged
  by_cases h : s.rpt.state = .wait ∧ s.now + 120000 < s.rpt.backoffTimer.getD 0
  · rw [if_pos h]
    exact if_pos ⟨h.1, hwait.2 h.2⟩
  · rw [if_neg h]
    exact if_neg fun hw => h ⟨hw.1, hwait.1 hw.2⟩

/-- The state after an urgent occurrence has been counted and handed to RPT. -/
def urged (k : IncidentKind) (s : State) : State :=
  { s with incd := (countOccurrence k s).incd, rpt := rptUrged s.now s.rpt }

theorem urgent_notifies (k : IncidentKind) (s : State) : Notifies (urged k s) (urgentToReport (countOccurrence k s)) := by
  rw [urgentToReport_eq]
  obtain ⟨l, hl, he⟩ := countOccurrence_notifies k s
  refine ⟨l, hl, ?_⟩
  have hnow : (countOccurrence k s).now = s.now := by rw [he]
  have hrpt : (countOccurrence k s).rpt = s.rpt := by rw [he]
  rw [hnow, hrpt, he]
  rfl

theorem raiseIncident_urgent {k : IncidentKind} (h : severityOf k = .urgent) (s : State) :
    raiseIncident k s = urgentToCall (urgentToReport (countOccurrence k s)) := if_pos h

theorem urgentEnds_of_notifies (h : Notifies s t) :
    urgentEnds t.call.state (openKind t) = urgentEnds s.call.state (openKind s) := by
  obtain ⟨l, -, rfl⟩ := h; rfl

theorem raiseIncident_passes {k : IncidentKind} (h : severityOf k = .urgent)
    (he : urgentEnds s.call.state (openKind s) = false) : Notifies (urged k s) (raiseIncident k s) := by
  have hn := urgent_notifies k s
  rw [raiseIncident_urgent h]
  have hstays : urgentToCall (urgentToReport (countOccurrence k s)) = urgentToReport (countOccurrence k s) :=
    if_neg (by rw [urgentEnds_of_notifies hn]; exact fun hx => absurd (hx.symm.trans he) (by decide))
  rw [hstays]
  exact hn

theorem raiseIncident_ends {k : IncidentKind} (h : severityOf k = .urgent)
    (he : urgentEnds s.call.state (openKind s) = true) :
    ∃ x, Notifies (urged k s) x ∧ raiseIncident k s = endCall .incident s.now x := by
  have hn := urgent_notifies k s
  refine ⟨_, hn, ?_⟩
  rw [raiseIncident_urgent h]
  have hends : urgentToCall (urgentToReport (countOccurrence k s)) =
      endCall .incident (urgentToReport (countOccurrence k s)).now (urgentToReport (countOccurrence k s)) :=
    if_pos (by rw [urgentEnds_of_notifies hn]; exact he)
  have hnow : (urgentToReport (countOccurrence k s)).now = s.now := hn.same .now
  rw [hends, hnow]

theorem urged_only {k : IncidentKind} : OnlyChanges [.incd, .rpt] s (urged k s) := by
  intro p hp
  cases p
  case clock => exact ⟨rfl, rfl⟩
  case incd | rpt => exact absurd (by decide) hp
  all_goals rfl

/-- RPT's block as a frame has it: R_IDLE and R_READY_TO_START as one, without the idle guard. -/
def settledRpt (r : RptBlock) : RptBlock := { r with state := r.state.atRest, quietSince := none }

theorem ReportState.atRest_wait (r : ReportState) : r.atRest = .wait ↔ r = .wait := by cases r <;> decide

theorem settledRpt_urged (n : Nat) (r : RptBlock) : settledRpt (rptUrged n r) = rptUrged n (settledRpt r) := by
  have hiff : (settledRpt r).state = .wait ∧ n + 120000 < (settledRpt r).backoffTimer.getD 0
      ↔ r.state = .wait ∧ n + 120000 < r.backoffTimer.getD 0 := and_congr_left' (ReportState.atRest_wait _)
  unfold rptUrged
  by_cases h : r.state = .wait ∧ n + 120000 < r.backoffTimer.getD 0
  · rw [if_pos h, if_pos (hiff.2 h)]; rfl
  · rw [if_neg h, if_neg (fun hx => h (hiff.1 hx))]; rfl

theorem rptUrged_twice (n : Nat) (r : RptBlock) : rptUrged n (rptUrged n r) = rptUrged n r := by
  unfold rptUrged
  by_cases h : r.state = .wait ∧ n + 120000 < r.backoffTimer.getD 0
  · rw [if_pos h]
    exact if_neg fun hx => absurd hx.2 (Nat.lt_irrefl _)
  · rw [if_neg h]
    exact if_neg h

/-! ### The switches (R129 to R131) -/

theorem exec_switch {changed : State → Bool} {f : State → State} (ha : alive s = true)
    (hr : s.store.start.switchesRead = true) (hc : changed s = true) :
    (.next (switchChange changed f s) : Host.Outcome State Fault Refusal) = .next (finish s (f s)) :=
  exec_alive ha (if_pos (by rw [hr, hc]; rfl))

theorem setKey_only {b : Bool} : OnlyChanges [.vault, .pins, .samplers] s (setKey b s) := by
  intro p hp
  cases p
  case clock => exact ⟨rfl, rfl⟩
  case vault | pins | samplers => exact absurd (by decide) hp
  all_goals rfl

theorem setVaultDoor_only {b : Bool} : OnlyChanges [.vault, .pins, .samplers] s (setVaultDoor b s) := by
  intro p hp
  cases p
  case clock => exact ⟨rfl, rfl⟩
  case vault | pins | samplers => exact absurd (by decide) hp
  all_goals rfl

theorem setHousingDoor_only {b : Bool} : OnlyChanges [.vault, .pins, .samplers] s (setHousingDoor b s) := by
  intro p hp
  cases p
  case clock => exact ⟨rfl, rfl⟩
  case vault | pins | samplers => exact absurd (by decide) hp
  all_goals rfl

theorem setService_only {x : ServiceState} {n : Option Nat} {a b : Bool} :
    OnlyChanges [.vault] s (setService x n a b s) := only_vault .refl (by decide)

theorem postService_notifies (c : ServiceCause) (s : State) : Notifies s (postService c s) := notifies_post ..

theorem serviceNotice_of_vault {c : ServiceCause} (h : t.vault = s.vault) : serviceNotice c t = serviceNotice c s := by
  unfold serviceNotice; rw [h]

/-- R133: the state with a collection in progress. -/
def collectionOpen (s : State) : State :=
  { s with vault := { s.vault with progress := some (s.vault.progress.getD s.store.clock) } }

theorem startCollection_notifies (s : State) : Notifies (collectionOpen s) (startCollection s) := by
  unfold startCollection collectionOpen
  split
  next o h =>
    refine ⟨s.link, rfl, ?_⟩
    have hv : s.vault = { s.vault with progress := some ((some o).getD s.store.clock) } := by
      show s.vault = { s.vault with progress := some o }; rw [← h]
    rw [h, ← hv]
  next h => rw [h]; exact postService_notifies ..

/-- R130: the vault with the key turned ON. -/
def keyedOn (s : State) : State := setService .service none false false (setKey true s)

theorem keyedOn_only : OnlyChanges [.vault, .pins, .samplers] s (keyedOn s) := setKey_only.step setService_only (by decide)

theorem turnKeyOn_notifies (s : State) :
    Notifies (if s.vault.vaultOpen = true then collectionOpen (keyedOn s) else keyedOn s) (turnKeyOn s) := by
  have hp : Notifies (keyedOn s) (postService .keyOn (keyedOn s)) := postService_notifies ..
  show Notifies _ (if s.vault.vaultOpen = true then startCollection (postService .keyOn (keyedOn s))
    else postService .keyOn (keyedOn s))
  split
  · exact (hp.update collectionOpen rfl (fun _ => rfl)).trans (startCollection_notifies _)
  · exact hp

theorem turnKeyOn_vault (s : State) : (turnKeyOn s).vault = { s.vault with
    keyOn := true, service := .service, graceTimer := none, vaultGrace := false, housingGrace := false
    progress := if s.vault.vaultOpen = true ∧ s.vault.progress = none then some s.store.clock
      else s.vault.progress } := by
  have hv : (turnKeyOn s).vault = _ := (turnKeyOn_notifies s).same .vault
  rw [hv]
  cases ho : s.vault.vaultOpen with
  | false => simp [keyedOn, setService, setKey, ho]
  | true =>
    cases hp : s.vault.progress with
    | none => simp [collectionOpen, keyedOn, setService, setKey, ho, hp]
    | some o => simp [collectionOpen, keyedOn, setService, setKey, ho, hp]

theorem turnKeyOn_only : OnlyChanges [.vault, .pins, .samplers] s (turnKeyOn s) := by
  refine OnlyChanges.step ?_ (turnKeyOn_notifies s).only (by decide)
  split
  · exact keyedOn_only.step (only_vault .refl (by decide) : OnlyChanges [.vault] _ (collectionOpen _)) (by decide)
  · exact keyedOn_only

/-- R130: the vault with the key turned OFF. -/
def keyedOff (s : State) : State :=
  if s.vault.vaultOpen || s.vault.housingOpen then
    setService .serviceGrace ((setKey false s).after serviceGraceMs) s.vault.vaultOpen s.vault.housingOpen (setKey false s)
  else setService .normal none false false (setKey false s)

theorem turnKeyOff_eq (s : State) : turnKeyOff s = postService .keyOff (keyedOff s) := rfl

theorem keyedOff_vault (s : State) : (keyedOff s).vault =
    if s.vault.vaultOpen = true ∨ s.vault.housingOpen = true then
      { s.vault with keyOn := false, service := .serviceGrace, graceTimer := some (s.now + 60000),
                     vaultGrace := s.vault.vaultOpen, housingGrace := s.vault.housingOpen }
    else { s.vault with keyOn := false, service := .normal, graceTimer := none, vaultGrace := false,
                        housingGrace := false } := by
  unfold keyedOff
  by_cases h : s.vault.vaultOpen = true ∨ s.vault.housingOpen = true
  · rw [if_pos h, if_pos (by simpa using h)]; rfl
  · rw [if_neg h, if_neg (by simpa using h)]; rfl

theorem keyedOff_only : OnlyChanges [.vault, .pins, .samplers] s (keyedOff s) := by
  unfold keyedOff
  split
  · exact setKey_only.step setService_only (by decide)
  · exact setKey_only.step setService_only (by decide)

theorem keyedOff_link (s : State) : (keyedOff s).link = s.link := by
  unfold keyedOff; split <;> rfl

/-! ### The doors opened (R131, R133) -/

theorem urged_of_notifies {k : IncidentKind} (h : Notifies s t) : Notifies (urged k s) (urged k t) := by
  obtain ⟨l, hl, rfl⟩ := h
  have hincd : (countOccurrence k { s with link := l }).incd = (countOccurrence k s).incd := by
    rw [countOccurrence_incd, countOccurrence_incd]
  refine ⟨l, hl, ?_⟩
  unfold urged
  rw [hincd]

theorem urgent_passes {k : IncidentKind} (h : severityOf k = .urgent) (hv : Notifies u v)
    (he : urgentEnds u.call.state (openKind u) = false) : Notifies (urged k u) (raiseIncident k v) :=
  (urged_of_notifies hv).trans (raiseIncident_passes h ((urgentEnds_of_notifies hv).trans he))

/-- R15: an urgent occurrence ends a call that nothing holds back. -/
theorem urgent_ends {k : IncidentKind} {sl : Slot} {s0 : State} (h : severityOf k = .urgent) (hv : Notifies u v)
    (he : urgentEnds u.call.state (openKind u) = true) (hb : BareCall u sl) :
    CallEnded .incident u.now (urged k u) (finish s0 (raiseIncident k v)) sl := by
  obtain ⟨x, hx, hr⟩ := raiseIncident_ends h ((urgentEnds_of_notifies hv).trans he)
  have hnow : v.now = u.now := hv.same .now
  rw [hr, hnow]
  exact callEnded_of_notifies ((urged_of_notifies hv).trans hx) hb

theorem urged_only_of {k : IncidentKind} {l : List Part} (h : OnlyChanges l u v)
    (hl : ∀ p ∈ [Part.incd, .rpt, .clock, .now], p ∉ l) : OnlyChanges l (urged k u) (urged k v) := by
  intro p hp
  cases p
  case incd =>
    have hincd : v.incd = u.incd := h .incd hp
    have hclock : v.store.clock = u.store.clock := (h .clock (hl .clock (by decide))).1
    show (countOccurrence k v).incd = (countOccurrence k u).incd
    rw [countOccurrence_incd, countOccurrence_incd, hincd, hclock]
  case rpt =>
    have hrpt : settledRpt v.rpt = settledRpt u.rpt := h .rpt hp
    have hnow : v.now = u.now := h .now (hl .now (by decide))
    show settledRpt (rptUrged v.now v.rpt) = settledRpt (rptUrged u.now u.rpt)
    rw [settledRpt_urged, settledRpt_urged, hrpt, hnow]
  case clock => exact h .clock hp
  all_goals exact h _ hp

/-- An urgent occurrence after the end adds itself to the map and to RPT, and leaves the end as it is. -/
theorem CallEnded.urgedAfter {c : EndCause} {n : Nat} {sl : Slot} {k : IncidentKind} {s0 s1 y w : State}
    (g : CallEnded c n u (finish s0 y) sl) (hw : Notifies (urged k y) w) (hlink : LinkKept u (finish s1 w)) :
    CallEnded c n (urged k u) (finish s1 w) sl := by
  obtain ⟨glog, gopen, gstate, glevel, gkeys, gline, gcoin, gonly, -⟩ := g
  have hbody : (finish s1 w).body = (urged k y).body := (finish_body s1 w).trans hw.body
  have honly : OnlyChanges [.call, .keys, .line, .coin, .log] u y :=
    gonly.step (only_of_body (l := []) (finish_body s0 y).symm) (List.nil_subset _)
  have hcall : (finish s1 w).call = (finish s0 y).call := 
    (same_of_body hbody .call : _ = y.call).trans (finish_call s0 y).symm
  have hline : (release (urged k u)).line = (release u).line := release_line_of rfl rfl rfl
  refine ⟨?_, ?_, ?_, ?_, ?_, ?_, ?_, ?_, hlink⟩
  · exact (same_of_body hbody .log : _ = y.store.log).trans ((finish_log s0 y).symm.trans glog)
  · rw [hcall]; exact gopen
  · rw [hcall]; exact gstate
  · rw [hcall]; exact glevel
  · exact (same_of_body hbody .keys : _ = y.keys).trans ((finish_keys s0 y).symm.trans gkeys)
  · rw [hline]
    exact (same_of_body hbody .line : _ = y.line).trans ((finish_line s0 y).symm.trans gline)
  · exact (same_of_body hbody .coin : _ = y.coin).trans ((finish_coin s0 y).symm.trans gcoin)
  · exact (urged_only_of honly (by decide)).step (only_of_body (l := []) hbody) (List.nil_subset _)

/-! ### The doors closed (R130, R134) -/

theorem graceClosing_vault (o a b : Bool) (s : State) : ∃ timer x y, (graceClosing o a b s).vault = { s.vault with
    service := if s.vault.service = .serviceGrace ∧ o = false then .normal else s.vault.service
    graceTimer := timer, vaultGrace := x, housingGrace := y } := by
  unfold graceClosing
  by_cases h : s.vault.service = .serviceGrace
  · rw [if_pos h]
    cases o with
    | true =>
      refine ⟨s.vault.graceTimer, a, b, ?_⟩
      rw [if_pos rfl, if_neg (fun hx => absurd hx.2 (by decide)), h]
      rfl
    | false =>
      refine ⟨none, false, false, ?_⟩
      rw [if_neg (by decide), if_pos ⟨h, rfl⟩]
      rfl
  · rw [if_neg h, if_neg fun hx => h hx.1]
    exact ⟨_, _, _, rfl⟩

theorem graceClosing_only {o a b : Bool} : OnlyChanges [.vault] s (graceClosing o a b s) := by
  unfold graceClosing
  split
  · split
    · exact setService_only
    · exact setService_only
  · exact .refl

theorem completeCollection_none {c : Closing} (h : s.vault.progress = none) : completeCollection c s = s := by
  unfold completeCollection; rw [h]

/-- R134: the vault after the collection in progress since `o` is complete, but for its load marks. -/
def collectionOver (c : Closing) (o : Option Time) (s : State) : State :=
  { s with vault := { s.vault with
      number := nextNumber s.vault.number
      last := some ⟨nextNumber s.vault.number, o, s.store.clock, s.vault.counters, c⟩
      counters := {}, progress := none } }

theorem completeCollection_some {c : Closing} {o : Option Time} (h : s.vault.progress = some o) :
    completeCollection c s = postVault (postService .collectionDone (vaultRefresh (collectionOver c o s))) := by
  unfold completeCollection; rw [h]; rfl

theorem completeCollection_vault {c : Closing} {o : Option Time} (h : s.vault.progress = some o) :
    (completeCollection c s).vault = (vaultRefresh (collectionOver c o s)).vault := by
  rw [completeCollection_some h]
  exact same_of_body ((post_body ..).trans (post_body ..)) .vault

theorem closingOf_eq (x : ServiceState) : closingOf x = if x = .normal then .inNormal else .inService := by
  cases x <;> rfl

/-! ### The grace timer (R132) -/

/-- R132: NORMAL, with the grace at an end. -/
def graceOver (d : Nat) (s : State) : State := setService .normal none false false (reach (some d) s)

theorem graceOver_only {d : Nat} : OnlyChanges [.now, .vault] s (graceOver d s) :=
  (only_reach.wider (by decide)).step setService_only (by decide)

/-- GRACE_EXPIRED. -/
def graceExpired (d : Nat) (s : State) : State :=
  forceHeld s.vault.vaultGrace s.vault.housingGrace (postService .graceExpired (graceOver d s))

theorem exec_graceExpired {d : Nat} (ha : alive s = true) (hd : s.vault.graceTimer = some d)
    (hs : s.vault.service = .serviceGrace) : exec .graceExpired s =
      .next (finish s (graceExpired d s)) :=
  exec_alive ha (by simp only [hd]; exact if_pos hs)

/-- R132: the occurrences of the doors grace-held at the expiry, handed to RPT. -/
def heldUrged (a b : Bool) (s : State) : State :=
  let s1 := if a then urged .vaultForced s else s
  if b then urged .housingForced s1 else s1

theorem forceHeld_passes (a b : Bool) (hv : Notifies u v) (he : urgentEnds u.call.state (openKind u) = false) :
    Notifies (heldUrged a b u) (forceHeld a b v) := by
  have hvault := urgent_passes (k := .vaultForced) rfl hv he
  cases a with
  | false => cases b with
    | false => exact hv
    | true => exact urgent_passes rfl hv he
  | true => cases b with
    | false => exact hvault
    | true => exact urgent_passes (u := urged .vaultForced u) rfl hvault he

theorem urgentEnds_over {st : CallState} {k : NumberKind} (h : st = .idle ∨ st = .abandoned) : urgentEnds st k = false := by
  obtain rfl | rfl := h <;> rfl

theorem forceHeld_ends {a b : Bool} {sl : Slot} {s0 : State} (hab : a = true ∨ b = true) (hv : Notifies u v)
    (he : urgentEnds u.call.state (openKind u) = true) (hb : BareCall u sl) :
    CallEnded .incident u.now (heldUrged a b u) (finish s0 (forceHeld a b v)) sl := by
  have hvault : CallEnded .incident u.now (urged .vaultForced u) (finish s0 (raiseIncident .vaultForced v)) sl :=
    urgent_ends rfl hv he hb
  cases a with
  | false => cases b with
    | false => exact absurd hab (by decide)
    | true => exact urgent_ends rfl hv he hb
  | true => cases b with
    | false => exact hvault
    | true =>
      have hover : (raiseIncident .vaultForced v).call.state = .idle ∨ (raiseIncident .vaultForced v).call.state = .abandoned := by
        have hstate := hvault.2.2.1
        rw [finish_call] at hstate
        rw [hstate]
        split
        · exact .inl rfl
        · exact .inr rfl
      have hpass := urgent_passes (k := .housingForced) rfl (Notifies.refl (s := raiseIncident .vaultForced v))
        (urgentEnds_over hover)
      exact hvault.urgedAfter hpass (hv.linkKept (linkKept_of_kept (forceHeld_kept (v := true) (w := true))))

theorem heldUrged_only {a b : Bool} : OnlyChanges [.incd, .rpt] s (heldUrged a b s) := by
  have hvault : OnlyChanges [.incd, .rpt] s (if a then urged .vaultForced s else s) := by
    split
    · exact urged_only
    · exact .refl
  unfold heldUrged
  dsimp only
  split
  · exact hvault.step urged_only (List.Subset.refl _)
  · exact hvault

theorem heldUrged_rpt (a b : Bool) (s : State) :
    (heldUrged a b s).rpt = if a = true ∨ b = true then rptUrged s.now s.rpt else s.rpt := by
  cases a with
  | false => cases b <;> rfl
  | true => cases b with
    | false => rfl
    | true => exact rptUrged_twice s.now s.rpt

theorem countOccurrence_incd_of {k : IncidentKind} (hi : t.incd = s.incd) (hc : t.store.clock = s.store.clock) :
    (countOccurrence k t).incd = (countOccurrence k s).incd := by
  rw [countOccurrence_incd, countOccurrence_incd, hi, hc]

theorem countOccurrence_clock (k : IncidentKind) (s : State) : (countOccurrence k s).store.clock = s.store.clock :=
  (countOccurrence_only .clock (by decide)).1

/-! ### What each event does (O59) -/

theorem keyOn_effect :
    let t := finish s (turnKeyOn s)
    LinkKept s t ∧ t.vault = { s.vault with
        keyOn := true, service := .service, graceTimer := none, vaultGrace := false, housingGrace := false
        progress := if s.vault.vaultOpen = true ∧ s.vault.progress = none then some s.store.clock
          else s.vault.progress }
      ∧ OnlyChanges [.vault, .pins, .samplers] s t :=
  ⟨linkKept_of_kept turnKeyOn_kept, (finish_vault ..).trans (turnKeyOn_vault s), only_finish turnKeyOn_only⟩

theorem keyOff_effect :
    let t := finish s (turnKeyOff s)
    LinkKept s t
      ∧ t.vault = (if s.vault.vaultOpen = true ∨ s.vault.housingOpen = true then
            { s.vault with keyOn := false, service := .serviceGrace, graceTimer := some (s.now + 60000),
                           vaultGrace := s.vault.vaultOpen, housingGrace := s.vault.housingOpen }
          else { s.vault with keyOn := false, service := .normal, graceTimer := none, vaultGrace := false,
                              housingGrace := false })
      ∧ Posted [⟨.service, serviceNotice .keyOff t⟩] s t ∧ OnlyChanges [.vault, .pins, .samplers] s t := by
  intro t
  have honly : OnlyChanges [.vault, .pins, .samplers] s (turnKeyOff s) := by
    rw [turnKeyOff_eq]; exact keyedOff_only.step (postService_notifies ..).only (List.nil_subset _)
  have htells : Tells [⟨.service, serviceNotice .keyOff (keyedOff s)⟩] s (turnKeyOff s) := by
    rw [turnKeyOff_eq]
    exact (Tells.of_same (keyedOff_link s) (keyedOff_only .config (by decide))).trans (tells_post ..)
  have hvault : (turnKeyOff s).vault = (keyedOff s).vault := (postService_notifies ..).same .vault
  have htvault : t.vault = (keyedOff s).vault := (finish_vault ..).trans hvault
  have hnotice : serviceNotice .keyOff t = serviceNotice .keyOff (keyedOff s) := serviceNotice_of_vault htvault
  obtain ⟨hlink, hposted, -⟩ := finish_event turnKeyOff_kept htells
    (congrArg RateBlock.phase (honly .rate (by decide))).symm (creditKey_of_only honly (by decide))
  rw [hnotice]
  exact ⟨hlink, htvault.trans (keyedOff_vault s), hposted, only_finish honly⟩

/-- A door opened outside SERVICE. -/
theorem doorForced_effect {k : IncidentKind} {c : ServiceCause} {f : VaultBlock → VaultBlock} (hk : severityOf k = .urgent)
    (honly : OnlyChanges [.vault, .pins, .samplers] s u) (hlink : u.link = s.link) (hvault : u.vault = f s.vault) :
    let t := finish s (raiseIncident k (postService c u))
    (urgentEnds s.call.state (openKind s) = false →
        t.vault = f s.vault ∧ t.incd = (countOccurrence k s).incd
          ∧ t.body.rpt = { s with rpt := rptUrged s.now s.rpt }.body.rpt ∧ t.call = s.call
          ∧ OnlyChanges [.vault, .pins, .samplers, .incd, .rpt] s t)
      ∧ (∀ sl, urgentEnds s.call.state (openKind s) = true → BareCall s sl →
          ∃ u, u.vault = f s.vault ∧ u.incd = (countOccurrence k s).incd
            ∧ u.body.rpt = { s with rpt := rptUrged s.now s.rpt }.body.rpt
            ∧ OnlyChanges [.vault, .pins, .samplers, .incd, .rpt] s u ∧ LinkKept s u
            ∧ CallEnded .incident s.now u t sl) := by
  have hnow : u.now = s.now := honly .now (by decide)
  have hcall : u.call = s.call := honly .call (by decide)
  have hrate : u.rate = s.rate := honly .rate (by decide)
  have hcoin : u.coin = s.coin := honly .coin (by decide)
  have hlog : u.store.log = s.store.log := honly .log (by decide)
  have hincd : (countOccurrence k u).incd = (countOccurrence k s).incd :=
    countOccurrence_incd_of (honly .incd (by decide)) (honly .clock (by decide)).1
  have hrpt : (urged k u).body.rpt = { s with rpt := rptUrged s.now s.rpt }.body.rpt := by
    have hsettled : settledRpt u.rpt = settledRpt s.rpt := honly .rpt (by decide)
    show settledRpt (rptUrged u.now u.rpt) = settledRpt (rptUrged s.now s.rpt)
    rw [settledRpt_urged, settledRpt_urged, hsettled, hnow]
  have hends : urgentEnds u.call.state (openKind u) = urgentEnds s.call.state (openKind s) := by
    unfold openKind; rw [hcall]
  have hurged : OnlyChanges [.vault, .pins, .samplers, .incd, .rpt] s (urged k u) :=
    (honly.wider (by decide)).step urged_only (by decide)
  intro t
  refine ⟨fun he => ?_, fun sl he hb => ?_⟩
  · have hbody : t.body = (urged k u).body :=
      (finish_body ..).trans (urgent_passes hk (postService_notifies c u) (hends.trans he)).body
    exact ⟨(same_of_body hbody .vault : _ = u.vault).trans hvault, (same_of_body hbody .incd).trans hincd,
      (same_of_body hbody .rpt).trans hrpt, (same_of_body hbody .call : _ = u.call).trans hcall,
      hurged.step (only_of_body (l := []) hbody) (List.nil_subset _)⟩
  · have hbare : BareCall u sl := by
      unfold BareCall; rw [hcall, hrate, hcoin, hlog]; exact hb
    have hkeptlink : LinkKept s (urged k u) := by
      unfold LinkKept
      show u.link.outstanding = _ ∧ u.link.turn = _ ∧ (_ → u.link.tx = _ ∧ u.link.reply = _)
      rw [hlink]
      exact ⟨rfl, rfl, fun _ => ⟨rfl, rfl⟩⟩
    rw [← hnow]
    exact ⟨urged k u, hvault, hincd, by rw [hnow]; exact hrpt, hurged, hkeptlink,
      urgent_ends hk (postService_notifies c u) (hends.trans he) hbare⟩

/-- The state at the closing of the vault door, and of the housing door. -/
def vaultShut (s : State) : State := graceClosing s.vault.housingOpen false s.vault.housingGrace (setVaultDoor false s)

def housingShut (s : State) : State := graceClosing s.vault.vaultOpen s.vault.vaultGrace false (setHousingDoor false s)

theorem endCondition_keeps {k : IncidentKind} {c : ServiceCause} (h : OnlyChanges [.vault, .pins, .samplers] s u) :
    (endCondition k (postService c u)).vault = u.vault
      ∧ (endCondition k (postService c u)).incd = (endCondition k s).incd
      ∧ (endCondition k (postService c u)).store.clock = s.store.clock
      ∧ OnlyChanges [.vault, .pins, .samplers, .incd] s (endCondition k (postService c u)) := by
  have hp := postService_notifies c u
  have hincd : (postService c u).incd = s.incd := (hp.same .incd : _ = u.incd).trans (h .incd (by decide))
  have honly : OnlyChanges [.vault, .pins, .samplers, .incd] s (endCondition k (postService c u)) :=
    ((h.wider (by decide)).step hp.only (List.nil_subset _)).step endCondition_only (by decide)
  exact ⟨(endCondition_only .vault (by decide) : _ = (postService c u).vault).trans (hp.same .vault),
    endCondition_incd hincd, (honly .clock (by decide)).1, honly⟩

theorem vaultShut_only : OnlyChanges [.vault, .pins, .samplers] s (vaultShut s) :=
  setVaultDoor_only.step graceClosing_only (by decide)

theorem housingShut_only : OnlyChanges [.vault, .pins, .samplers] s (housingShut s) :=
  setHousingDoor_only.step graceClosing_only (by decide)

/-- VAULT_DOOR_CLOSED, before the collection completes. -/
def vaultClosing (s : State) : State := endCondition .vaultForced (postService .vaultDoorClosed (vaultShut s))

theorem vaultDoorClosed_effect :
    let t := finish s (completeCollection (closingOf s.vault.service) (vaultClosing s))
    LinkKept s t
      ∧ t.vault.vaultOpen = false ∧ t.vault.progress = none
      ∧ t.vault.service = (if s.vault.service = .serviceGrace ∧ s.vault.housingOpen = false then .normal
          else s.vault.service)
      ∧ (s.vault.progress = none → t.incd = (endCondition .vaultForced s).incd ∧ t.vault.counters = s.vault.counters
          ∧ t.vault.number = s.vault.number ∧ t.vault.last = s.vault.last)
      ∧ (∀ opened, s.vault.progress = some opened → t.vault.counters = {} ∧ t.vault.number = nextNumber s.vault.number
          ∧ t.vault.last = some ⟨t.vault.number, opened, s.store.clock, s.vault.counters,
              if s.vault.service = .normal then .inNormal else .inService⟩)
      ∧ OnlyChanges [.vault, .pins, .samplers, .incd] s t := by
  intro t
  obtain ⟨hkeeps, hincd, hclock, honly⟩ := endCondition_keeps (k := .vaultForced) (c := .vaultDoorClosed) (vaultShut_only (s := s))
  obtain ⟨timer, x, y, hshut⟩ := graceClosing_vault s.vault.housingOpen false s.vault.housingGrace (setVaultDoor false s)
  have hvault : (vaultClosing s).vault = _ := hkeeps.trans hshut
  have hkept : Kept True s (completeCollection (closingOf s.vault.service) (vaultClosing s)) :=
    .after completeCollection_kept (.after endCondition_kept (.after post_kept (.after graceClosing_kept setVaultDoor_kept)))
  have htvault : t.vault = (completeCollection (closingOf s.vault.service) (vaultClosing s)).vault := finish_vault ..
  have htonly : OnlyChanges [.vault, .pins, .samplers, .incd] s t :=
    only_finish (honly.step completeCollection_only (by decide))
  cases hp : s.vault.progress with
  | none =>
    have hprogress : (vaultClosing s).vault.progress = none := by rw [hvault]; exact hp
    have hdone : completeCollection (closingOf s.vault.service) (vaultClosing s) = vaultClosing s :=
      completeCollection_none hprogress
    have htincd : t.incd = (vaultClosing s).incd := by rw [← hdone]; exact finish_incd ..
    rw [htvault, hdone, hvault]
    exact ⟨linkKept_of_kept hkept, rfl, hp, rfl, fun _ => ⟨htincd.trans hincd, rfl, rfl, rfl⟩,
      fun o ho => (nomatch ho), htonly⟩
  | some o =>
    have hprogress : (vaultClosing s).vault.progress = some o := by rw [hvault]; exact hp
    have hover : t.vault = _ := htvault.trans ((completeCollection_vault hprogress).trans (vaultRefresh_vault _))
    have hrecord : (collectionOver (closingOf s.vault.service) o (vaultClosing s)).vault = _ :=
      (show _ = { (vaultClosing s).vault with
        number := nextNumber (vaultClosing s).vault.number
        last := some ⟨nextNumber (vaultClosing s).vault.number, o, s.store.clock, (vaultClosing s).vault.counters,
          closingOf s.vault.service⟩
        counters := {}, progress := none } by rw [← hclock]; rfl)
    rw [hover, hrecord, hvault, closingOf_eq]
    exact ⟨linkKept_of_kept hkept, rfl, rfl, rfl, fun hx => (nomatch hx),
      fun o' ho => by obtain rfl := Option.some.inj ho; exact ⟨rfl, rfl, rfl⟩, htonly⟩

theorem housingDoorClosed_effect :
    let t := finish s (endCondition .housingForced (postService .housingDoorClosed (housingShut s)))
    LinkKept s t
      ∧ t.vault.housingOpen = false ∧ t.vault.counters = s.vault.counters ∧ t.vault.progress = s.vault.progress
      ∧ t.vault.service = (if s.vault.service = .serviceGrace ∧ s.vault.vaultOpen = false then .normal
          else s.vault.service)
      ∧ t.incd = (endCondition .housingForced s).incd ∧ OnlyChanges [.vault, .pins, .samplers, .incd] s t := by
  intro t
  obtain ⟨hkeeps, hincd, -, honly⟩ := endCondition_keeps (k := .housingForced) (c := .housingDoorClosed) (housingShut_only (s := s))
  obtain ⟨timer, x, y, hshut⟩ := graceClosing_vault s.vault.vaultOpen s.vault.vaultGrace false (setHousingDoor false s)
  have htvault : t.vault = _ := (finish_vault ..).trans (hkeeps.trans hshut)
  have hkept : Kept True s (endCondition .housingForced (postService .housingDoorClosed (housingShut s))) :=
    .after endCondition_kept (.after post_kept (.after graceClosing_kept setHousingDoor_kept))
  rw [htvault]
  exact ⟨linkKept_of_kept hkept, rfl, rfl, rfl, rfl, (finish_incd ..).trans hincd, only_finish honly⟩

/-- VAULT_DOOR_OPENED. -/
def vaultOpened (s : State) : State :=
  let u := postService .vaultDoorOpened (setVaultDoor true s)
  if s.vault.service = .service then startCollection u else raiseIncident .vaultForced u

/-- HOUSING_DOOR_OPENED. -/
def housingOpened (s : State) : State :=
  let u := postService .housingDoorOpened (setHousingDoor true s)
  if s.vault.service = .service then u else raiseIncident .housingForced u

theorem vaultOpened_kept {wired : Prop} : Kept wired s (vaultOpened s) := by
  unfold vaultOpened
  dsimp only
  split
  · exact .after startCollection_kept (.after post_kept setVaultDoor_kept)
  · exact .after raiseIncident_kept (.after post_kept setVaultDoor_kept)

theorem housingOpened_kept {wired : Prop} : Kept wired s (housingOpened s) := by
  unfold housingOpened
  dsimp only
  split
  · exact .after post_kept setHousingDoor_kept
  · exact .after raiseIncident_kept (.after post_kept setHousingDoor_kept)

theorem vaultOpened_service (h : s.vault.service = .service) :
    Notifies (collectionOpen (setVaultDoor true s)) (vaultOpened s) := by
  have hopened : vaultOpened s = startCollection (postService .vaultDoorOpened (setVaultDoor true s)) := if_pos h
  rw [hopened]
  exact ((postService_notifies ..).update collectionOpen rfl (fun _ => rfl)).trans (startCollection_notifies _)

theorem vaultOpenedInService_effect (h : s.vault.service = .service) :
    OnlyChanges [.vault, .pins, .samplers] s (finish s (vaultOpened s))
      ∧ (finish s (vaultOpened s)).vault =
        { s.vault with vaultOpen := true, progress := some (s.vault.progress.getD s.store.clock) } := by
  have hn := vaultOpened_service h
  have hopen : OnlyChanges [.vault] (setVaultDoor true s) (collectionOpen (setVaultDoor true s)) := only_vault .refl (by decide)
  exact ⟨only_finish ((setVaultDoor_only.step hopen (by decide)).step hn.only (List.nil_subset _)),
    (finish_vault ..).trans (hn.same .vault)⟩

theorem housingOpenedInService_effect (h : s.vault.service = .service) :
    OnlyChanges [.vault, .pins, .samplers] s (finish s (housingOpened s))
      ∧ (finish s (housingOpened s)).vault = { s.vault with housingOpen := true } := by
  have hopened : housingOpened s = postService .housingDoorOpened (setHousingDoor true s) := if_pos h
  have hn := postService_notifies .housingDoorOpened (setHousingDoor true s)
  rw [hopened]
  exact ⟨only_finish (setHousingDoor_only.step hn.only (List.nil_subset _)), (finish_vault ..).trans (hn.same .vault)⟩

theorem linkKept_of_link (h : t.link = s.link) : LinkKept s t := by
  unfold LinkKept; rw [h]; exact ⟨rfl, rfl, fun _ => ⟨rfl, rfl⟩⟩

/-- The map after the grace timer's expiry. -/
theorem heldUrged_incd (a b : Bool) (h : OnlyChanges [.now, .vault] s u) :
    (heldUrged a b u).incd = if a = true then
        (if b = true then (countOccurrence .housingForced (countOccurrence .vaultForced s)).incd
          else (countOccurrence .vaultForced s).incd)
      else if b = true then (countOccurrence .housingForced s).incd else s.incd := by
  have hincd : u.incd = s.incd := h .incd (by decide)
  have hclock : u.store.clock = s.store.clock := (h .clock (by decide)).1
  have hvault : (countOccurrence .vaultForced u).incd = (countOccurrence .vaultForced s).incd :=
    countOccurrence_incd_of hincd hclock
  cases a with
  | false => cases b with
    | false => exact hincd
    | true => exact countOccurrence_incd_of hincd hclock
  | true => cases b with
    | false => exact hvault
    | true =>
      exact countOccurrence_incd_of (s := countOccurrence .vaultForced s) (t := urged .vaultForced u) hvault
        (hclock.trans (countOccurrence_clock ..).symm)

theorem graceOver_call {d : Nat} : (graceOver d s).call = s.call := graceOver_only .call (by decide)

theorem graceOver_ends (d : Nat) (s : State) :
    urgentEnds (graceOver d s).call.state (openKind (graceOver d s)) = urgentEnds s.call.state (openKind s) := by
  unfold openKind; rw [graceOver_call]

theorem graceOver_bare {d : Nat} {sl : Slot} (h : BareCall s sl) : BareCall (graceOver d s) sl := by
  have hrate : (graceOver d s).rate = s.rate := graceOver_only .rate (by decide)
  have hcoin : (graceOver d s).coin = s.coin := graceOver_only .coin (by decide)
  have hlog : (graceOver d s).store.log = s.store.log := graceOver_only .log (by decide)
  unfold BareCall
  rw [graceOver_call, hrate, hcoin, hlog]
  exact h

theorem graceExpired_kept {wired : Prop} {d : Nat} : Kept wired s (graceExpired d s) :=
  .after forceHeld_kept (.after post_kept (.after setService_kept reach_kept))

theorem graceExpired_passes {d : Nat} (he : urgentEnds s.call.state (openKind s) = false) :
    (graceExpired d s).body = (heldUrged s.vault.vaultGrace s.vault.housingGrace (graceOver d s)).body :=
  (forceHeld_passes _ _ (postService_notifies ..) ((graceOver_ends d s).trans he)).body

theorem graceExpired_ends {d : Nat} {sl : Slot} {s0 : State} (hheld : s.vault.vaultGrace = true ∨ s.vault.housingGrace = true)
    (he : urgentEnds s.call.state (openKind s) = true) (hb : BareCall s sl) :
    CallEnded .incident (graceOver d s).now (heldUrged s.vault.vaultGrace s.vault.housingGrace (graceOver d s))
      (finish s0 (graceExpired d s)) sl :=
  forceHeld_ends hheld (postService_notifies ..) ((graceOver_ends d s).trans he) (graceOver_bare hb)

theorem heldUrged_link (a b : Bool) (s : State) : (heldUrged a b s).link = s.link := by
  cases a <;> cases b <;> rfl

theorem graceOver_vault (d : Nat) (s : State) : (graceOver d s).vault =
    { s.vault with service := .normal, graceTimer := none, vaultGrace := false, housingGrace := false } := rfl

end Sys2Proof.Machine

open Sys2Proof Sys2Proof.Machine

/-- Settles O59: each event is its new vault, and the occurrence or the condition end that the door makes. -/
theorem keyAndDoorsMoveTheServiceState : Obligations.KeyAndDoorsMoveTheServiceState := by
  intro s ha hr
  refine ⟨fun hk => ?_, fun hk => ?_, fun hv => ?_, fun hh => ?_, fun hv => ?_, fun hh => ?_, fun d hd hs he => ?_,
    fun d sl hd hs hheld he hb => ?_⟩
  · exact ⟨_, exec_switch ha hr (by rw [hk]; rfl), keyOn_effect⟩
  · exact ⟨_, exec_switch ha hr hk, keyOff_effect⟩
  · refine ⟨finish s (vaultOpened s), exec_switch ha hr (by rw [hv]; rfl), linkKept_of_kept vaultOpened_kept,
      vaultOpenedInService_effect, ?_⟩
    have hforced := doorForced_effect (k := .vaultForced) (c := .vaultDoorOpened) (f := fun v => { v with vaultOpen := true })
      rfl (setVaultDoor_only (s := s) (b := true)) rfl rfl
    by_cases hs : s.vault.service = .service
    · exact ⟨fun hns => absurd hs hns, fun sl hns => absurd hs hns⟩
    · have hopened : vaultOpened s = raiseIncident .vaultForced (postService .vaultDoorOpened (setVaultDoor true s)) := if_neg hs
      rw [hopened]
      exact ⟨fun _ => hforced.1, fun sl _ => hforced.2 sl⟩
  · refine ⟨finish s (housingOpened s), exec_switch ha hr (by rw [hh]; rfl), linkKept_of_kept housingOpened_kept,
      housingOpenedInService_effect, ?_⟩
    have hforced := doorForced_effect (k := .housingForced) (c := .housingDoorOpened)
      (f := fun v => { v with housingOpen := true }) rfl (setHousingDoor_only (s := s) (b := true)) rfl rfl
    by_cases hs : s.vault.service = .service
    · exact ⟨fun hns => absurd hs hns, fun sl hns => absurd hs hns⟩
    · have hopened : housingOpened s = raiseIncident .housingForced (postService .housingDoorOpened (setHousingDoor true s)) :=
        if_neg hs
      rw [hopened]
      exact ⟨fun _ => hforced.1, fun sl _ => hforced.2 sl⟩
  · exact ⟨_, exec_switch ha hr hv, vaultDoorClosed_effect⟩
  · exact ⟨_, exec_switch ha hr hh, housingDoorClosed_effect⟩
  · have hbody := (finish_body s (graceExpired d s)).trans (graceExpired_passes (d := d) he)
    have honly : OnlyChanges [.now, .vault] s (graceOver d s) := graceOver_only
    have hincd := (same_of_body hbody .incd).trans (heldUrged_incd s.vault.vaultGrace s.vault.housingGrace honly)
    have hheld := heldUrged_only (a := s.vault.vaultGrace) (b := s.vault.housingGrace) (s := graceOver d s)
    have hnow := (same_of_body hbody .now).trans (hheld .now (by decide))
    refine ⟨_, exec_graceExpired ha hd hs, linkKept_of_kept graceExpired_kept, hnow,
      (same_of_body hbody .vault).trans (hheld .vault (by decide)), ?_⟩
    rw [hincd]
    refine ⟨fun hv hh => by rw [hv, hh]; rfl, fun hv hh => by rw [hv, hh]; rfl, fun hv hh => by rw [hv, hh]; rfl,
      fun hv hh => by rw [hv, hh]; rfl, ?_,
      ((honly.wider (by decide)).step hheld (by decide)).step (only_of_body (l := []) hbody) (List.nil_subset _)⟩
    have hrpt := same_of_body hbody .rpt
    rw [hrpt, hnow]
    show settledRpt (heldUrged _ _ _).rpt = _
    rw [heldUrged_rpt]
    split
    · rfl
    · rfl
  · have hkeeps := heldUrged_only (a := s.vault.vaultGrace) (b := s.vault.housingGrace) (s := graceOver d s)
    have hnow : (heldUrged s.vault.vaultGrace s.vault.housingGrace (graceOver d s)).now = (graceOver d s).now :=
      hkeeps .now (by decide)
    have hended := graceExpired_ends (d := d) (s0 := s) hheld he hb
    rw [← hnow] at hended
    refine ⟨_, _, exec_graceExpired ha hd hs, (graceOver_only.wider (by decide)).step hkeeps (by decide),
      linkKept_of_link (heldUrged_link ..), hnow, ?_, (hkeeps .vault (by decide)).trans (graceOver_vault d s), hended⟩
    rw [hnow]
    show settledRpt (heldUrged _ _ _).rpt = _
    rw [heldUrged_rpt, if_pos hheld]
    rfl

end

section
/-! The handset lifted in IDLE and in CLEARING, and replaced in CLEARING (O43). -/

namespace Sys2Proof.Machine

variable {s t u v : State}

/-! ### The service level and the credit view, by what they read -/

/-- What the service level reads (R3). -/
theorem serviceLevel_of_only {l : List Part} (h : OnlyChanges l s t)
    (hl : ∀ p ∈ [Part.config, .bank, .incd, .vault, .coin, .log], p ∉ l)
    (hf : t.rpt.urgentFailures = s.rpt.urgentFailures) : serviceLevel t = serviceLevel s := by
  have hconfig : t.config = s.config := h .config (hl _ (by decide))
  have hbank : t.bank = s.bank := h .bank (hl _ (by decide))
  have hincd : t.incd = s.incd := h .incd (hl _ (by decide))
  have hvault : t.vault = s.vault := h .vault (hl _ (by decide))
  have hcoin : t.coin = s.coin := h .coin (hl _ (by decide))
  have hlog : t.store.log = s.store.log := h .log (hl _ (by decide))
  unfold serviceLevel emergencyOnly standingRefusal activeBank urgentUnreported cordCutActive vaultAtCapacity
    vaultLoad
  rw [hconfig, hbank, hincd, hvault, hcoin, hlog, hf]

theorem creditKey_of_slots (hr : t.rate = s.rate) (hk : t.coin = s.coin) (ho : t.call.openSlot = s.call.openSlot)
    (hclosing : t.call.closingSlot = s.call.closingSlot) (hstart : t.call.atStart = s.call.atStart) :
    creditKey s = creditKey t := by
  unfold creditKey openCarried callE ownEscrow escrowElsewhere
  rw [hr, hk, ho, hclosing, hstart]

theorem finish_creditKey (s0 s : State) : creditKey (finish s0 s) = creditKey s :=
  creditKey_of_same (finish_rate s0 s).symm (finish_call s0 s).symm (finish_coin s0 s).symm

/-! ### The attempt aborted (R167) -/

/-- RPT's block after an attempt has been aborted. -/
def abortedRpt (s : State) : RptBlock :=
  { leftRpt s.rpt with state := if reportWanted s then .readyToStart else .idle }

/-- The state after an attempt has been aborted. -/
def aborted (s : State) : State := { s with line := (release s).line, rpt := abortedRpt s }

theorem abortAttempt_notifies (c : AbortCause) (h : attempting s.rpt.state = true) :
    Notifies (aborted s) (abortAttempt c s) := by
  have hw : reportWanted (leaveAttempt s) = reportWanted s :=
    reportWanted_of_same (leaveAttempt_only .incd (by decide)) (leaveAttempt_only .config (by decide))
  have hleft : restState (leaveAttempt s) = aborted s := by
    unfold restState aborted abortedRpt
    rw [hw, leaveAttempt_eq, release_eq]
  have habort : abortAttempt c s = postReport (.aborted c) (reached s.rpt (.aborted c)) (restState (leaveAttempt s)) :=
    if_pos h
  rw [habort, hleft]
  exact notifies_post ..

theorem abortAttempt_none {c : AbortCause} (h : attempting s.rpt.state = false) : abortAttempt c s = s :=
  if_neg (by rw [h]; decide)

theorem aborted_only : OnlyChanges [.line, .rpt] s (aborted s) := by
  intro p hp
  cases p
  case clock => exact ⟨rfl, rfl⟩
  case line | rpt => exact absurd (by decide) hp
  all_goals rfl

/-- R167: the step that has aborted an attempt. -/
theorem aborted_finish {s0 : State} (h : u.rpt = abortedRpt s) :
    let t := finish s0 u
    attempting t.rpt.state = false ∧ t.rpt.blocks = none ∧ t.rpt.failures = s.rpt.failures
      ∧ t.rpt.backoffTimer = s.rpt.backoffTimer := by
  intro t
  obtain ⟨q, hq⟩ := finish_rpt_eq s0 u
  rw [hq, h]
  refine ⟨?_, rfl, rfl, rfl⟩
  unfold abortedRpt
  cases reportWanted s <;> cases reportWanted u <;> rfl

/-! ### A call begun (R8) -/

/-- R8 step 2: the slot of a call that begins. -/
def newSlot (s : State) : Slot := { record := newRecord s, offAt := s.now, base := enteredCoins s.coin }

/-- R29: collection cleared and started. -/
def collectionBegun (s : State) : KeysBlock :=
  { s.keys with
    collection := .awaitFirst, buffer := [], best := none
    firstDigitTimer := some (s.now + 20000), interDigitTimer := none }

/-- R8: the level computed, the record opened and collection started. -/
def callOpened (s : State) : State :=
  { s with
    call := { s.call with
      level := some (serviceLevel s), openSlot := some (newSlot s), refundAsked := false, replaced := false
      heldFollowOn := false, aliveTimer := some (s.now + 1000) }
    keys := collectionBegun s }

/-- R8: the state in which a call has begun. -/
def callBegun (s : State) : State := inState .collecting (callOpened s)

/-- R8: CALL_STATE as a call begins. -/
def begunNotice (s : State) : List Byte := [1] ++ le1 (serviceLevel s).code ++ [0]

theorem beginCall_eq (s : State) : beginCall s = setCallState .collecting (postHook (callOpened s)) := rfl

theorem beginCall_notifies (s : State) : Notifies (callBegun s) (beginCall s) := by
  rw [beginCall_eq]
  exact ((postHook_notifies (callOpened s)).update (inState .collecting) rfl (fun _ => rfl)).trans
    (setCallState_notifies ..)

theorem setCallState_tells (st : CallState) (s : State) :
    Tells [⟨.callState, callStateNotice (inState st s)⟩] s (setCallState st s) :=
  Tells.trans (ns := []) (u := inState st s) (.of_same rfl rfl) (tells_post ..)

theorem postHook_tells (s : State) : Tells [⟨.hook, le1 s.keys.hook.code⟩] s (postHook s) := tells_post ..

theorem beginCall_tells (s : State) :
    Tells [⟨.hook, le1 s.keys.hook.code⟩, ⟨.callState, begunNotice s⟩] s (beginCall s) := by
  have hopened : Tells [] s (callOpened s) := .of_same rfl rfl
  have hhook : Tells [⟨.hook, le1 s.keys.hook.code⟩] s (postHook (callOpened s)) := hopened.trans (postHook_tells (callOpened s))
  have hnotice : callStateNotice (inState .collecting (postHook (callOpened s))) = begunNotice s := by
    obtain ⟨l, -, hp⟩ := postHook_notifies (callOpened s)
    rw [hp]; rfl
  have hstate := setCallState_tells .collecting (postHook (callOpened s))
  rw [hnotice] at hstate
  exact hhook.trans hstate

theorem callBegun_only : OnlyChanges [.call, .keys] s (callBegun s) := by
  intro p hp
  cases p
  case clock => exact ⟨rfl, rfl⟩
  case call | keys => exact absurd (by decide) hp
  all_goals rfl

/-! ### The hook (R28) -/

/-- The state in which the handset has been lifted. -/
def lifted (s : State) : State := setHook .offHook s

theorem exec_hookOff (ha : alive s = true) (hr : s.store.start.hookRead = true) (hh : s.keys.hook = .onHook) :
    exec .hookOff s = .next (finish s (callHookOff (abortAttempt .hookOff (lifted s)))) :=
  exec_alive ha (if_pos ⟨hr, hh⟩)

theorem callHookOff_idle (h : s.call.state = .idle) : callHookOff s = beginCall s := by unfold callHookOff; rw [h]

theorem callHookOff_clearing (h : s.call.state = .clearing) :
    callHookOff s = if pathD s then moveToClosing s else clearingTone (postHook s) := by unfold callHookOff; rw [h]

theorem callHookOn_clearing (h : s.call.state = .clearing) : callHookOn s =
    clearingTone { postHook s with call := { (postHook s).call with replaced := true } } := by
  unfold callHookOn; rw [h]

/-- R18 path (d). -/
theorem pathD_iff (s : State) : pathD s = true ↔ s.call.replaced = true ∧ s.rate.phase = .inactive
    ∧ s.coin.transit = none ∧ s.call.refundAsked = true ∧ s.coin.run = .callEnd ∧ s.call.closingSlot = none := by
  simp [pathD, and_assoc]

/-! ### What each event does (O43) -/

/-- What a call that begins opens and starts. -/
theorem begins_effect {s0 : State} (h : OnlyChanges [.call, .keys, .pins, .samplers, .line, .rpt] s v)
    (hf : v.rpt.urgentFailures = s.rpt.urgentFailures) (hk : v.keys = { s.keys with hook := .offHook }) :
    let t := finish s0 (beginCall v)
    t.call.state = .collecting ∧ t.call.level = some (serviceLevel s) ∧ t.call.earpiece = .ready
      ∧ t.call.openSlot = some
          { record := { offHook := s.store.clock, mode := s.config.ratingMode,
                        flags := { clockUnset := s.store.clock.isNone } },
            offAt := s.now, base := s.coin.gone + s.coin.escrow.length }
      ∧ t.keys = { s.keys with hook := .offHook, collection := .awaitFirst, buffer := [], best := none,
                               firstDigitTimer := some (s.now + 20000), interDigitTimer := none } := by
  intro t
  have hcall : t.call = (callBegun v).call := (finish_call ..).trans ((beginCall_notifies v).same .call)
  have hkeys : t.keys = collectionBegun v := (finish_keys ..).trans ((beginCall_notifies v).same .keys)
  have hlevel : serviceLevel v = serviceLevel s := serviceLevel_of_only h (by decide) hf
  have hclock : v.store.clock = s.store.clock := (h .clock (by decide)).1
  have hconfig : v.config = s.config := h .config (by decide)
  have hnow : v.now = s.now := h .now (by decide)
  have hcoin : v.coin = s.coin := h .coin (by decide)
  have hslot : newSlot v = newSlot s := by unfold newSlot newRecord; rw [hclock, hconfig, hnow, hcoin]
  have hopen : (callBegun v).call.openSlot = some (newSlot v) := rfl
  have hlev : (callBegun v).call.level = some (serviceLevel v) := rfl
  rw [hcall, hkeys, hopen, hlev, hslot, hlevel]
  refine ⟨rfl, rfl, rfl, rfl, ?_⟩
  unfold collectionBegun
  rw [hk, hnow]

theorem lifted_only : OnlyChanges [.keys, .pins, .samplers] s (lifted s) := setHook_only

theorem lifted_keys (s : State) : (lifted s).keys = { s.keys with hook := .offHook } := rfl

theorem beginsAlone_effect :
    let t := finish s (beginCall (lifted s))
    OnlyChanges [.call, .keys, .pins, .samplers] s t
      ∧ (creditKey s = creditKey t → Posted [⟨.hook, [1]⟩, ⟨.callState, [1] ++ le1 (serviceLevel s).code ++ [0]⟩] s t) := by
  have honly : OnlyChanges [.call, .keys, .pins, .samplers] s (beginCall (lifted s)) :=
    (lifted_only.wider (by decide)).step beginCall_only (by decide)
  have hlevel : serviceLevel (lifted s) = serviceLevel s := serviceLevel_of_only lifted_only (by decide) rfl
  have htells : Tells [⟨.hook, [1]⟩, ⟨.callState, begunNotice (lifted s)⟩] s (beginCall (lifted s)) :=
    (Tells.of_same (s := s) (t := lifted s) rfl rfl).trans (beginCall_tells (lifted s))
  have hnotice : begunNotice (lifted s) = [1] ++ le1 (serviceLevel s).code ++ [0] := by unfold begunNotice; rw [hlevel]
  rw [hnotice] at htells
  refine ⟨only_finish honly, fun hk => ?_⟩
  rw [finish_creditKey] at hk
  exact (finish_event (.after beginCall_kept setHook_kept) htells (congrArg RateBlock.phase (honly .rate (by decide))).symm
    hk).2.1

theorem beginsAborting_effect (h : attempting s.rpt.state = true) :
    let t := finish s (beginCall (abortAttempt .hookOff (lifted s)))
    OnlyChanges [.call, .keys, .pins, .samplers, .line, .rpt] s t
      ∧ t.line = (release s).line ∧ attempting t.rpt.state = false ∧ t.rpt.blocks = none
      ∧ t.rpt.failures = s.rpt.failures ∧ t.rpt.backoffTimer = s.rpt.backoffTimer := by
  have hn := abortAttempt_notifies (s := lifted s) .hookOff h
  have honly : OnlyChanges [.call, .keys, .pins, .samplers, .line, .rpt] s (abortAttempt .hookOff (lifted s)) :=
    (lifted_only.wider (by decide)).step abortAttempt_only (by decide)
  have hbegun := beginCall_notifies (abortAttempt .hookOff (lifted s))
  have hreleased : (release (lifted s)).line = (release s).line := by rw [release_line, release_line]; rfl
  have hline : (abortAttempt .hookOff (lifted s)).line = (release s).line :=
    (hn.same .line).trans hreleased
  have hrpt : (beginCall (abortAttempt .hookOff (lifted s))).rpt = abortedRpt (lifted s) := by
    obtain ⟨l, -, hb⟩ := hbegun
    obtain ⟨l', -, ha⟩ := hn
    rw [hb, ha]; rfl
  exact ⟨only_finish (honly.step beginCall_only (by decide)),
    (finish_line ..).trans ((beginCall_only .line (by decide)).trans hline), aborted_finish (s := lifted s) hrpt⟩

/-- The state before the call of R18 path (d) begins. -/
def closingMoved (s : State) : State :=
  { s with call := { s.call with closingSlot := s.call.openSlot, openSlot := none } }

theorem moveToClosing_eq (s : State) : moveToClosing s = beginCall (closingMoved s) := rfl

theorem closingMoved_only : OnlyChanges [.call] s (closingMoved s) := only_call .refl (by decide)

/-- R6, R18: a hook event in CLEARING that begins no call. -/
def clearingHook (h : Hook) (replaced : Bool) (s : State) : State :=
  clearingTone { postHook (setHook h s) with call := { s.call with replaced := replaced } }

theorem clearingTone_lifted : clearingTone (postHook (lifted s)) = clearingHook .offHook s.call.replaced s := by
  obtain ⟨l, -, hl⟩ := postHook_notifies (lifted s)
  unfold clearingHook
  rw [show postHook (setHook .offHook s) = _ from hl, hl]
  rfl

theorem clearingHook_effect (h : Hook) (replaced : Bool) (s : State) :
    let t := finish s (clearingHook h replaced s)
    t.call = { s.call with replaced := replaced, earpiece := stateTone h .clearing, toneSince := s.now }
      ∧ t.keys = { s.keys with hook := h } ∧ OnlyChanges [.call, .keys, .pins, .samplers] s t
      ∧ Posted [⟨.hook, le1 h.code⟩] s t := by
  intro t
  obtain ⟨l, hl, hp⟩ := postHook_notifies (setHook h s)
  have heq : clearingHook h replaced s = { setHook h s with
      call := { s.call with replaced := replaced, earpiece := stateTone h .clearing, toneSince := s.now }, link := l } := by
    unfold clearingHook; rw [hp]; rfl
  have honly : OnlyChanges [.call, .keys, .pins, .samplers] s (clearingHook h replaced s) := by
    rw [heq]
    exact OnlyChanges.step (m := []) (only_call (setHook_only.wider (by decide)) (by decide))
      (Notifies.only (s := { setHook h s with
        call := { s.call with replaced := replaced, earpiece := stateTone h .clearing, toneSince := s.now } })
        ⟨l, hl, rfl⟩) (List.nil_subset _)
  have htells : Tells [⟨.hook, le1 h.code⟩] s (clearingHook h replaced s) := by
    have hposted : Tells [⟨.hook, le1 h.code⟩] (setHook h s) (postHook (setHook h s)) := postHook_tells (setHook h s)
    have hbegun : Tells [] s (setHook h s) := .of_same rfl rfl
    have hrest : Tells [] (postHook (setHook h s)) (clearingHook h replaced s) := .of_same rfl rfl
    exact (hbegun.trans hposted).trans hrest
  have hkept : Kept True s (clearingHook h replaced s) :=
    .after clearingTone_kept (.after (.of_call _) (.after post_kept setHook_kept))
  have hcredit : creditKey s = creditKey (clearingHook h replaced s) := by
    rw [heq]; exact creditKey_of_slots rfl rfl rfl rfl rfl
  refine ⟨(finish_call ..).trans ?_, (finish_keys ..).trans ?_, only_finish honly,
    (finish_event hkept htells (congrArg RateBlock.phase (honly .rate (by decide))).symm hcredit).2.1⟩
  · rw [heq]
  · rw [heq]; rfl

theorem callHookOn_replaced (h : s.call.state = .clearing) :
    callHookOn (setHook .onHook s) = clearingHook .onHook true s := by
  obtain ⟨l, -, hl⟩ := postHook_notifies (setHook .onHook s)
  rw [callHookOn_clearing (s := setHook .onHook s) h]
  unfold clearingHook
  rw [hl]
  rfl

end Sys2Proof.Machine

open Sys2Proof Sys2Proof.Machine

/-- Settles O43: a call begun is `callBegun`, after an attempt aborted or the ended record moved to the closing slot. -/
theorem hookOffBeginsACall : Obligations.HookOffBeginsACall := by
  refine ⟨fun s ha hr hh hs => ?_, fun s ha hr hh hs hrpt => ?_, fun s ha hr hh hs => ?_⟩
  · have hidle : (abortAttempt .hookOff (lifted s)).call.state = .idle :=
      (congrArg CallBlock.state (abortAttempt_only .call (by decide) : _ = (lifted s).call)).trans hs
    have honly : OnlyChanges [.call, .keys, .pins, .samplers, .line, .rpt] s (abortAttempt .hookOff (lifted s)) :=
      (lifted_only.wider (by decide)).step abortAttempt_only (by decide)
    have hkeys : (abortAttempt .hookOff (lifted s)).keys = { s.keys with hook := .offHook } :=
      (abortAttempt_only .keys (by decide)).trans (lifted_keys s)
    have hfailures : (abortAttempt .hookOff (lifted s)).rpt.urgentFailures = s.rpt.urgentFailures := by
      cases h : attempting (lifted s).rpt.state with
      | false => rw [abortAttempt_none h]; rfl
      | true => obtain ⟨l, -, hl⟩ := abortAttempt_notifies .hookOff h; rw [hl]; rfl
    refine ⟨finish s (beginCall (abortAttempt .hookOff (lifted s))), ?_, ?_, ?_⟩
    · rw [exec_hookOff ha hr hh, callHookOff_idle hidle]
    · exact linkKept_of_kept (.after beginCall_kept (.after abortAttempt_kept setHook_kept))
    · obtain ⟨hstate, hlevel, htone, hopen, hk⟩ := begins_effect (s0 := s) honly hfailures hkeys
      refine ⟨hstate, hlevel, htone, hopen, hk, fun hno => ?_, fun hat => beginsAborting_effect hat⟩
      rw [abortAttempt_none (s := lifted s) hno]
      exact beginsAlone_effect
  · have hclearing : (lifted s).call.state = .clearing := hs
    have hexec : exec .hookOff s = .next (finish s (callHookOff (lifted s))) := by
      rw [exec_hookOff ha hr hh, abortAttempt_none (s := lifted s) hrpt]
    refine ⟨_, hexec, linkKept_of_kept (.after callHookOff_kept setHook_kept), fun hf => ?_, fun hf => ?_⟩
    · have hmoves : callHookOff (lifted s) = beginCall (closingMoved (lifted s)) := by
        rw [callHookOff_clearing hclearing, if_pos ((pathD_iff (lifted s)).2 hf), moveToClosing_eq]
      have honly : OnlyChanges [.call, .keys, .pins, .samplers] s (closingMoved (lifted s)) :=
        (lifted_only.wider (by decide)).step closingMoved_only (by decide)
      rw [hmoves]
      obtain ⟨hstate, hlevel, htone, hopen, hk⟩ := begins_effect (s0 := s) (v := closingMoved (lifted s))
        (honly.wider (by decide)) rfl rfl
      have hclosing : (finish s (beginCall (closingMoved (lifted s)))).call.closingSlot = s.call.openSlot := by
        rw [finish_call, (beginCall_notifies (closingMoved (lifted s))).same .call]; rfl
      exact ⟨hclosing, hstate, hlevel, htone, hopen, hk, only_finish (honly.step beginCall_only (by decide))⟩
    · have hstays : callHookOff (lifted s) = clearingTone (postHook (lifted s)) := by
        rw [callHookOff_clearing hclearing, if_neg (fun hp => hf ((pathD_iff (lifted s)).1 hp))]
      rw [hstays, clearingTone_lifted]
      exact clearingHook_effect .offHook s.call.replaced s
  · refine ⟨_, exec_hookOn ha hr hh, linkKept_of_kept (.after callHookOn_kept setHook_kept), ?_⟩
    rw [callHookOn_replaced hs]
    exact clearingHook_effect .onHook true s

end

section
/-! The line's guard end, dial tone, and the end of sending and of a string (O47). -/

namespace Sys2Proof.Machine

variable {s t u v : State}

/-! ### CALL's block after a change of state -/

theorem inState_only {st : CallState} : OnlyChanges [.call] s (inState st s) := only_call .refl (by decide)

/-! ### The guard end (R44) -/

/-- R44: the line free at the end of the guard. -/
def guardOver (d : Nat) (s : State) : State :=
  { s with now := max s.now d, line := { s.line with state := .free, guardTimer := none } }

theorem exec_guardEnd {d : Nat} (ha : alive s = true) (hd : s.line.guardTimer = some d) (hs : s.line.state = .guard) :
    exec .guardEnd s = .next (finish s (guardReport (guardOver d s))) :=
  exec_alive ha (by simp only [hd]; exact if_pos hs)

theorem guardOver_only {d : Nat} : OnlyChanges [.now, .line] s (guardOver d s) := by
  intro p hp
  cases p
  case clock => exact ⟨rfl, rfl⟩
  case now | line => exact absurd (by decide) hp
  all_goals rfl

theorem guardReport_other (h1 : s.call.state ≠ .waitLine) (h2 : s.call.state ≠ .followOnClearing) : guardReport s = s := by
  unfold guardReport
  cases h : s.call.state with
  | waitLine => exact absurd h h1
  | followOnClearing => exact absurd h h2
  | idle | collecting | awaitDeposit | seizing | sending | ringing | connected | clearing | abandoned => rfl

theorem guardReport_waits (h : s.call.state = .waitLine) : guardReport s = lineRequest s := by unfold guardReport; rw [h]

theorem guardReport_follows (h : s.call.state = .followOnClearing) : guardReport s = followOnCollect s := by
  unfold guardReport; rw [h]

/-- R11, R42: a request for the free line seizes it. -/
theorem lineRequest_free (hf : s.line.state = .free) (ho : s.line.owner = .none)
    (hd : unsendable s.config.sendingMethod (s.keys.buffer.map Symbol.dtmf) = false) :
    lineRequest s = setCallState .seizing (seize .call (s.keys.buffer.map Symbol.dtmf) s) := by
  unfold lineRequest
  rw [if_neg (by rw [ho]; decide), requestSeizure_free hf hd]

/-- R23: collection as the guard of a follow-on end is over. -/
def followOnOpened (s : State) : State :=
  { s with
    call := { s.call with level := some (serviceLevel s) }
    keys := { s.keys with collection := .awaitFirst, firstDigitTimer := some (s.now + 20000) } }

theorem followOnCollect_eq (s : State) : followOnCollect s = setCallState .collecting (followOnOpened s) := rfl

theorem followOnOpened_only : OnlyChanges [.call, .keys] s (followOnOpened s) := by
  intro p hp
  cases p
  case clock => exact ⟨rfl, rfl⟩
  case call | keys => exact absurd (by decide) hp
  all_goals rfl

/-! ### Dial tone and sending (R47, R53) -/

theorem exec_dialToneRecognised (ha : alive s = true) (hs : s.line.state = .seizedWaitTone)
    (hr : s.line.reported = false) (hd : s.line.progress.dialTiming = true) :
    exec .dialToneRecognised s = .next (finish s (toneReport (beginSending s))) :=
  exec_alive ha (if_pos ⟨hs, hr, hd⟩)

theorem toneReport_line (s : State) : (toneReport s).line = s.line := by
  unfold toneReport
  split
  · split
    · exact (setCallState_notifies _ _).same .line
    · rfl
  · rfl
  · rfl

theorem toneReport_call (ho : s.line.owner = .call) (hs : s.call.state = .seizing) :
    toneReport s = setCallState .sending s := by unfold toneReport; rw [ho]; exact if_pos hs

theorem toneReport_rpt (ho : s.line.owner = .rpt) :
    toneReport s = { s with rpt := { s.rpt with state := .dial } } := by unfold toneReport; rw [ho]

theorem exec_sendingComplete {d : Nat} (ha : alive s = true) (hd : s.line.sendTimer = some d)
    (hs : s.line.state = .sending) (hr : s.line.reported = false) :
    exec .sendingComplete s = .next (finish s (sentReport (enterSeized (reach (some d) s)))) :=
  exec_alive ha (by simp only [hd]; exact if_pos ⟨hs, hr⟩)

theorem sentReport_line (s : State) : (sentReport s).line = s.line := by
  unfold sentReport
  split
  · split
    · exact (setCallState_notifies _ _).same .line
    · rfl
  · rfl
  · rfl

/-- R12: the answer timer started. -/
def answerAwaited (s : State) : State :=
  { s with call := { s.call with answerTimer := some (s.now + s.config.answerWait * 1000) } }

theorem sentReport_call (ho : s.line.owner = .call) (hs : s.call.state = .sending) :
    sentReport s = setCallState .ringing (answerAwaited s) := by unfold sentReport; rw [ho]; exact if_pos hs

theorem sentReport_rpt (ho : s.line.owner = .rpt) : sentReport s =
    { s with rpt := { s.rpt with state := .awaitReady, readyTimer := some (s.now + 30000) } } := by
  unfold sentReport; rw [ho]; rfl

/-! ### The end of a string (R56) -/

/-- R56: the sender IDLE and the centre channel started anew. -/
def stringSent (d : Nat) (s : State) : State :=
  { s with now := max s.now d, line := { s.line with sender := none, centre := { active := true } } }

theorem exec_sendComplete {l : List Dtmf} {d : Nat} (ha : alive s = true) (hd : s.line.sender = some (l, d))
    (hl : listening s.line = true) (hs : s.rpt.state = .send) :
    exec .sendComplete s = .next (finish s (sendDone (stringSent d s))) :=
  exec_alive ha (by simp only [hd]; rw [if_pos hl]; exact if_pos hs)

/-- R163, R164: RPT's block as a string has been sent. -/
def stringDone (s : State) : RptBlock :=
  if (blockInHand s.rpt).isSome then { s.rpt with state := .awaitAck, ackTimer := some (s.now + 4000) }
  else { s.rpt with state := .close, closeTimer := some (s.now + 3000) }

theorem sendDone_eq (s : State) : sendDone s = { s with rpt := stringDone s } := by
  unfold sendDone stringDone
  cases blockInHand s.rpt with
  | none => rfl
  | some b => rfl

/-! ### What each event does (O47) -/

theorem guardReport_now (s : State) : (guardReport s).now = s.now := by
  unfold guardReport
  split
  · exact lineRequest_only .now (by decide)
  · exact followOnCollect_only .now (by decide)
  all_goals rfl

theorem guardEnd_kept {wired : Prop} {d : Nat} : Kept wired s (guardReport (guardOver d s)) :=
  .after guardReport_kept (.of_core rfl)

theorem guardEnd_seizes {d : Nat} (hw : s.call.state = .waitLine) (ho : s.line.owner = .none)
    (hu : unsendable s.config.sendingMethod (s.keys.buffer.map Symbol.dtmf) = false) :
    let t := finish s (guardReport (guardOver d s))
    t.line.state = .seizedWaitTone ∧ t.line.owner = .call ∧ t.line.digits = s.keys.buffer.map Symbol.dtmf
      ∧ t.line.dialToneTimer = some (max s.now d + s.config.dialToneWait * 1000) ∧ t.call.state = .seizing
      ∧ OnlyChanges [.now, .line, .call, .start, .incd] s t := by
  intro t
  have hreport : guardReport (guardOver d s) =
      setCallState .seizing (seize .call (s.keys.buffer.map Symbol.dtmf) (guardOver d s)) :=
    (guardReport_waits (s := guardOver d s) hw).trans (lineRequest_free (s := guardOver d s) rfl ho hu)
  have hline : t.line = (seize .call (s.keys.buffer.map Symbol.dtmf) (guardOver d s)).line := by
    refine (finish_line ..).trans ?_
    rw [hreport]; exact (setCallState_notifies ..).same .line
  have hcall : t.call.state = .seizing := by
    have hfinish : t.call = _ := finish_call ..
    rw [hfinish, hreport, (setCallState_notifies ..).same .call]; rfl
  obtain ⟨hstate, howner, hdigits, htimer⟩ := seize_line .call (s.keys.buffer.map Symbol.dtmf) (guardOver d s)
  rw [← hline] at hstate howner hdigits htimer
  have honly : OnlyChanges [.now, .line, .call, .start, .incd] s (guardReport (guardOver d s)) := by
    rw [hreport]
    have hseized : OnlyChanges [.now, .line, .call, .start, .incd] s
        (seize .call (s.keys.buffer.map Symbol.dtmf) (guardOver d s)) :=
      (guardOver_only.wider (by decide)).step seize_only (by decide)
    exact (hseized.step inState_only (by decide)).step (setCallState_notifies ..).only (List.nil_subset _)
  exact ⟨hstate, howner, hdigits, htimer, hcall, only_finish honly⟩

theorem guardEnd_collects {d : Nat} (hf : s.call.state = .followOnClearing) :
    let t := finish s (guardReport (guardOver d s))
    t.line = { s.line with state := .free, guardTimer := none }
      ∧ t.call.state = .collecting ∧ t.call.level = some (serviceLevel s)
      ∧ t.keys = { s.keys with collection := .awaitFirst, firstDigitTimer := some (max s.now d + 20000) }
      ∧ OnlyChanges [.now, .line, .call, .keys] s t := by
  intro t
  have hreport : guardReport (guardOver d s) = setCallState .collecting (followOnOpened (guardOver d s)) :=
    (guardReport_follows (s := guardOver d s) hf).trans (followOnCollect_eq _)
  have hn := setCallState_notifies .collecting (followOnOpened (guardOver d s))
  rw [← hreport] at hn
  have hcall : t.call = (inState .collecting (followOnOpened (guardOver d s))).call := (finish_call ..).trans (hn.same .call)
  have hlevel : serviceLevel (guardOver d s) = serviceLevel s := serviceLevel_of_only guardOver_only (by decide) rfl
  have htlevel : t.call.level = some (serviceLevel (guardOver d s)) := by rw [hcall]; rfl
  have honly : OnlyChanges [.now, .line, .call, .keys] s (inState .collecting (followOnOpened (guardOver d s))) :=
    ((guardOver_only.wider (by decide)).step followOnOpened_only (by decide)).step inState_only (by decide)
  exact ⟨(finish_line ..).trans (hn.same .line), by rw [hcall]; rfl, htlevel.trans (congrArg some hlevel),
    (finish_keys ..).trans (hn.same .keys), only_finish (honly.step hn.only (List.nil_subset _))⟩

theorem dialTone_effect :
    let t := finish s (toneReport (beginSending s))
    LinkKept s t ∧ t.line.state = .sending ∧ t.line.dialToneTimer = none
      ∧ t.line.sendTimer = some (s.now + sendMs s.line.method s.line.digits)
      ∧ t.line.progress = { s.line.progress with dialTiming := false }
      ∧ (s.line.owner = .call → s.call.state = .seizing → t.call.state = .sending ∧ OnlyChanges [.line, .call] s t)
      ∧ (s.line.owner = .rpt → t.rpt.state = .dial ∧ OnlyChanges [.line, .rpt] s t) := by
  intro t
  have hline : t.line = (beginSending s).line := (finish_line ..).trans (toneReport_line _)
  rw [hline]
  refine ⟨linkKept_of_kept (.after toneReport_kept beginSending_kept), rfl, rfl, rfl, rfl, fun ho hs => ?_, fun ho => ?_⟩
  · have hn := setCallState_notifies .sending (beginSending s)
    have hreport : toneReport (beginSending s) = setCallState .sending (beginSending s) :=
      toneReport_call (s := beginSending s) ho hs
    have hcall : t.call = (inState .sending (beginSending s)).call :=
      (finish_call ..).trans (by rw [hreport]; exact hn.same .call)
    have honly : OnlyChanges [.line, .call] s (toneReport (beginSending s)) := by
      rw [hreport]
      exact ((beginSending_only.wider (by decide)).step inState_only (by decide)).step hn.only (List.nil_subset _)
    exact ⟨by rw [hcall]; rfl, only_finish honly⟩
  · have hreport := toneReport_rpt (s := beginSending s) ho
    have honly : OnlyChanges [.line, .rpt] s (toneReport (beginSending s)) := by
      rw [hreport]; exact only_rpt (beginSending_only.wider (by decide)) (by decide)
    obtain ⟨q, hq⟩ := finish_rpt_eq s (toneReport (beginSending s))
    refine ⟨?_, only_finish honly⟩
    rw [show t.rpt = _ from hq, hreport]
    rfl

/-- R53: the line has sent the digits. -/
def digitsSent (d : Nat) (s : State) : State := enterSeized (reach (some d) s)

theorem digitsSent_only {d : Nat} : OnlyChanges [.now, .line] s (digitsSent d s) :=
  (only_reach.wider (by decide)).step enterSeized_only (by decide)

theorem sendingComplete_effect {d : Nat} :
    let t := finish s (sentReport (digitsSent d s))
    LinkKept s t ∧ t.now = max s.now d ∧ t.line.state = .seized
      ∧ t.line.reference = (if s.pins.loopCurrent = true then s.pins.polarity else s.line.polaritySeen)
      ∧ t.line.sendTimer = none
      ∧ (s.line.owner = .call → s.call.state = .sending → t.line.meter.active = true ∧ t.line.centre.active = false
          ∧ speechPath t.line = true ∧ t.call.state = .ringing
          ∧ t.call.answerTimer = some (t.now + s.config.answerWait * 1000) ∧ OnlyChanges [.now, .line, .call] s t)
      ∧ (s.line.owner = .rpt → t.line.centre.active = true ∧ t.line.meter.active = false
          ∧ t.rpt.state = .awaitReady ∧ t.rpt.readyTimer = some (t.now + 30000)
          ∧ OnlyChanges [.now, .line, .rpt] s t) := by
  intro t
  have hline : t.line = (digitsSent d s).line := (finish_line ..).trans (sentReport_line _)
  have hnow : t.now = max s.now d := by
    refine (finish_now ..).trans ?_
    unfold sentReport
    split
    · split
      · exact (setCallState_notifies _ _).same .now
      · rfl
    · rfl
    · rfl
  rw [hline, hnow]
  refine ⟨linkKept_of_kept (.after sentReport_kept (.after enterSeized_kept reach_kept)), rfl, rfl, rfl, rfl,
    fun ho hs => ?_, fun ho => ?_⟩
  · have hreport : sentReport (digitsSent d s) = setCallState .ringing (answerAwaited (digitsSent d s)) :=
      sentReport_call (s := digitsSent d s) ho hs
    have hn := setCallState_notifies .ringing (answerAwaited (digitsSent d s))
    have hcall : t.call = (inState .ringing (answerAwaited (digitsSent d s))).call :=
      (finish_call ..).trans (by rw [hreport]; exact hn.same .call)
    have honly : OnlyChanges [.now, .line, .call] s (sentReport (digitsSent d s)) := by
      rw [hreport]
      have hawaited : OnlyChanges [.call] (digitsSent d s) (answerAwaited (digitsSent d s)) := only_call .refl (by decide)
      exact (((digitsSent_only.wider (by decide)).step hawaited (by decide)).step inState_only (by decide)).step hn.only
        (List.nil_subset _)
    rw [hcall]
    exact ⟨decide_eq_true ho, decide_eq_false (by rw [show (reach (some d) s).line.owner = _ from ho]; decide),
      by unfold speechPath; exact (decide_eq_true (by exact ho) : _ = true), rfl, rfl, only_finish honly⟩
  · have hreport := sentReport_rpt (s := digitsSent d s) ho
    have honly : OnlyChanges [.now, .line, .rpt] s (sentReport (digitsSent d s)) := by
      rw [hreport]; exact only_rpt (digitsSent_only.wider (by decide)) (by decide)
    obtain ⟨q, hq⟩ := finish_rpt_eq s (sentReport (digitsSent d s))
    have hrpt : t.rpt = _ := hq
    rw [hrpt, hreport]
    exact ⟨decide_eq_true ho, decide_eq_false (by rw [show (reach (some d) s).line.owner = _ from ho]; decide), rfl, rfl,
      only_finish honly⟩

theorem sendComplete_effect {d : Nat} :
    let t := finish s (sendDone (stringSent d s))
    LinkKept s t ∧ Posted [] s t ∧ t.now = max s.now d
      ∧ t.line = { s.line with sender := none, centre := { active := true } }
      ∧ ((blockInHand s.rpt).isSome = true →
          t.rpt = { s.rpt with state := .awaitAck, ackTimer := some (t.now + 4000), quietSince := t.rpt.quietSince })
      ∧ ((blockInHand s.rpt).isNone = true →
          t.rpt = { s.rpt with state := .close, closeTimer := some (t.now + 3000), quietSince := t.rpt.quietSince })
      ∧ OnlyChanges [.now, .line, .rpt] s t := by
  intro t
  have hstring : OnlyChanges [.now, .line] s (stringSent d s) := by
    intro p hp
    cases p
    case clock => exact ⟨rfl, rfl⟩
    case now | line => exact absurd (by decide) hp
    all_goals rfl
  have honly : OnlyChanges [.now, .line, .rpt] s (sendDone (stringSent d s)) :=
    (hstring.wider (by decide)).step sendDone_only (by decide)
  have hdone := sendDone_eq (stringSent d s)
  obtain ⟨hlink, hposted, -⟩ := finish_silent (s := s) (u := sendDone (stringSent d s))
    (.after sendDone_kept (.of_core rfl)) (by rw [hdone]; rfl) (by rw [hdone]; rfl) (by rw [hdone]; rfl)
    (creditKey_of_only honly (by decide))
  obtain ⟨q, hq⟩ := finish_rpt_eq s (sendDone (stringSent d s))
  have hrpt : t.rpt = _ := hq
  have hnow : t.now = max s.now d := (finish_now ..).trans (sendDone_only .now (by decide))
  rw [hdone] at hrpt
  refine ⟨hlink, hposted, hnow, (finish_line ..).trans (sendDone_only .line (by decide)), fun hb => ?_, fun hb => ?_,
    only_finish honly⟩
  · have hd : stringDone (stringSent d s) = { s.rpt with state := .awaitAck, ackTimer := some (max s.now d + 4000) } :=
      if_pos hb
    rw [hnow, hrpt, show ({ stringSent d s with rpt := stringDone (stringSent d s) } : State).rpt = _ from hd]
    rfl
  · have hd : stringDone (stringSent d s) = { s.rpt with state := .close, closeTimer := some (max s.now d + 3000) } :=
      if_neg (by rw [show (blockInHand (stringSent d s).rpt) = none from Option.isNone_iff_eq_none.1 hb]; decide)
    rw [hnow, hrpt, show ({ stringSent d s with rpt := stringDone (stringSent d s) } : State).rpt = _ from hd]
    rfl

end Sys2Proof.Machine

open Sys2Proof Sys2Proof.Machine

/-- Settles O47: each event is its change of LINE, and what the owner of the line makes of the report. -/
theorem lineSeizesSendsAndReports : Obligations.LineSeizesSendsAndReports := by
  refine fun s ha => ⟨fun d hd hs => ?_, fun hs hr hd => ?_, fun d hd hs hr => ?_, fun l d hd hl hs => ?_⟩
  · refine ⟨_, exec_guardEnd ha hd hs, linkKept_of_kept guardEnd_kept, ?_, fun h1 h2 => ?_, guardEnd_seizes,
      guardEnd_collects⟩
    · exact (finish_now ..).trans (guardReport_now _)
    · rw [guardReport_other (s := guardOver d s) h1 h2]
      exact (finish_silent (s := s) (u := guardOver d s) (.of_core rfl) rfl rfl rfl (creditKey_of_same rfl rfl rfl)).2
  · exact ⟨_, exec_dialToneRecognised ha hs hr hd, dialTone_effect⟩
  · exact ⟨_, exec_sendingComplete ha hd hs hr, sendingComplete_effect⟩
  · exact ⟨_, exec_sendComplete ha hd hl hs, sendComplete_effect⟩

end

section
/-! The loop-current watch, the line-voltage watch and the tone detector (O48). -/

namespace Sys2Proof.Machine

variable {s t u v : State}

/-! ### The call-progress channel (R47, R48) -/

theorem busyCount_run (c : ProgressChannel) : (busyCount c).run = c.run := by
  unfold busyCount
  split
  · rfl
  · split <;> rfl

theorem busyCount_dialTiming (c : ProgressChannel) : (busyCount c).dialTiming = c.dialTiming := by
  unfold busyCount
  split
  · rfl
  · split <;> rfl

theorem busyCount_busyWatch (c : ProgressChannel) : (busyCount c).busyWatch = c.busyWatch := by
  unfold busyCount
  split
  · rfl
  · split <;> rfl

/-- The channel with the interval taken by its run. -/
def progressGrown (c : ProgressChannel) : ProgressChannel := { c with run := c.run.grow }

/-- The channel with the interval counted by the busy watch. -/
def progressCounted (c : ProgressChannel) : ProgressChannel :=
  if c.busyWatch then busyCount (progressGrown c) else progressGrown c

theorem progressCounted_run (c : ProgressChannel) : (progressCounted c).run = ⟨c.run.tone, c.run.ms + 5⟩ := by
  unfold progressCounted
  split
  · rw [busyCount_run]; rfl
  · rfl

theorem progressCounted_dialTiming (c : ProgressChannel) : (progressCounted c).dialTiming = c.dialTiming := by
  unfold progressCounted
  split
  · rw [busyCount_dialTiming]; rfl
  · rfl

theorem progressCounted_busyWatch (c : ProgressChannel) : (progressCounted c).busyWatch = c.busyWatch := by
  unfold progressCounted
  split
  · rw [busyCount_busyWatch]; rfl
  · rfl

theorem progressInterval_active {c : ProgressChannel} (p : Bool) (h : c.active = true) :
    (progressInterval p c).1 = turnProgress p (progressCounted c) := by
  unfold progressInterval
  rw [if_pos h]
  rfl

theorem Run.eq_iff (r : Run) (b : Bool) (n : Nat) : r = ⟨b, n⟩ ↔ r.tone = b ∧ r.ms = n := by
  cases r; simp

/-- R48: the third cycle is complete at 400 ms of the silence after a whole tone run. -/
theorem busyCount_third (c : ProgressChannel) :
    ((busyCount (progressGrown c)).cycles = 3 ∧ c.cycles ≠ 3)
      ↔ c.cycles = 2 ∧ c.runOk = true ∧ c.run = ⟨false, 395⟩ := by
  rw [Run.eq_iff]
  unfold busyCount progressGrown Run.grow detectorMs
  dsimp only
  by_cases hlong : 600 < c.run.ms + 5
  · rw [if_pos hlong]
    simp only
    omega
  · rw [if_neg hlong]
    by_cases hc : (!c.run.tone && c.run.ms + 5 == 400 && c.runOk) = true
    · rw [if_pos hc]
      simp only [Bool.and_eq_true, Bool.not_eq_true', beq_iff_eq] at hc
      obtain ⟨⟨htone, hms⟩, hok⟩ := hc
      simp only [htone, hok, true_and]
      omega
    · rw [if_neg hc]
      simp only [Bool.and_eq_true, Bool.not_eq_true', beq_iff_eq] at hc
      constructor
      · rintro ⟨h3, hn⟩; exact absurd h3 hn
      · rintro ⟨-, hok, htone, hms⟩; exact absurd ⟨⟨htone, by omega⟩, hok⟩ hc

theorem progressCounted_third (c : ProgressChannel) :
    ((progressCounted c).busyWatch = true ∧ (progressCounted c).cycles = 3 ∧ c.cycles ≠ 3)
      ↔ c.busyWatch = true ∧ c.cycles = 2 ∧ c.runOk = true ∧ c.run = ⟨false, 395⟩ := by
  rw [progressCounted_busyWatch]
  refine and_congr_right fun hw => ?_
  unfold progressCounted
  rw [if_pos hw]
  exact busyCount_third c

/-- R47, R48: what an interval of the channel recognises. -/
theorem progressInterval_events {c : ProgressChannel} (p : Bool) :
    (Instr.dialToneRecognised ∈ (progressInterval p c).2
        ↔ c.active = true ∧ c.dialTiming = true ∧ c.run = ⟨true, 295⟩)
      ∧ (Instr.busyRecognised ∈ (progressInterval p c).2
        ↔ c.active = true ∧ c.busyWatch = true ∧ c.cycles = 2 ∧ c.runOk = true ∧ c.run = ⟨false, 395⟩)
      ∧ ∀ x ∈ (progressInterval p c).2, x = .dialToneRecognised ∨ x = .busyRecognised := by
  cases ha : c.active with
  | false =>
    have hnone : (progressInterval p c).2 = [] := by unfold progressInterval; rw [if_neg (by rw [ha]; decide)]
    rw [hnone]
    simp
  | true =>
    have hevents : (progressInterval p c).2 =
        (if ((progressCounted c).dialTiming && (progressCounted c).run.tone && (progressCounted c).run.ms == 300) = true
          then [.dialToneRecognised] else [])
        ++ (if ((progressCounted c).busyWatch && (progressCounted c).cycles == 3 && c.cycles != 3) = true
          then [.busyRecognised] else []) := by
      unfold progressInterval
      rw [if_pos ha]
      rfl
    have hdial : ((progressCounted c).dialTiming && (progressCounted c).run.tone && (progressCounted c).run.ms == 300) = true
        ↔ c.dialTiming = true ∧ c.run = ⟨true, 295⟩ := by
      rw [progressCounted_dialTiming, progressCounted_run, Run.eq_iff]
      simp [and_assoc]
    have hbusy : ((progressCounted c).busyWatch && (progressCounted c).cycles == 3 && c.cycles != 3) = true
        ↔ c.busyWatch = true ∧ c.cycles = 2 ∧ c.runOk = true ∧ c.run = ⟨false, 395⟩ := by
      rw [← progressCounted_third]
      simp [and_assoc]
    rw [hevents]
    refine ⟨?_, ?_, ?_⟩
    · rw [and_iff_right rfl, ← hdial, List.mem_append, List.mem_ite_nil_right, List.mem_ite_nil_right]
      simp
    · rw [and_iff_right rfl, ← hbusy, List.mem_append, List.mem_ite_nil_right, List.mem_ite_nil_right]
      simp
    · intro x hx
      rw [List.mem_append, List.mem_ite_nil_right, List.mem_ite_nil_right] at hx
      exact hx.imp (fun h => List.mem_singleton.1 h.2) (fun h => List.mem_singleton.1 h.2)

theorem turnProgress_run (p : Bool) (c : ProgressChannel) :
    (turnProgress p c).run = if c.run.tone = p then c.run else ⟨p, 0⟩ := by
  unfold turnProgress; split <;> rfl

/-- R48: a tone run that ends before 400 ms resets the count. -/
theorem turnProgress_cycles (p : Bool) (c : ProgressChannel) : (turnProgress p c).cycles =
    if c.run.tone = true ∧ p = false ∧ c.run.ms < 400 then 0 else c.cycles := by
  unfold turnProgress endTone
  cases c.run.tone <;> cases p
  · rfl
  · rfl
  · by_cases hs : c.run.ms < 400
    · simp [hs]
    · by_cases hl : c.run.ms ≤ 600 <;> simp [hs, hl]
  · rfl

/-- R48: a tone run of 400 to 600 ms may be followed by the silence of a cycle; a silence that ends may not. -/
theorem turnProgress_runOk {p : Bool} {c : ProgressChannel} :
    (c.run.tone = true → p = false → 400 ≤ c.run.ms → c.run.ms ≤ 600 → (turnProgress p c).runOk = true)
      ∧ (c.run.tone = false → p = true → (turnProgress p c).runOk = false) := by
  unfold turnProgress endTone
  constructor
  · rintro ht rfl hl hh
    rw [if_neg (by rw [ht]; decide), if_pos ht, if_neg (by omega), if_pos hh]
  · rintro ht rfl
    rw [if_neg (by rw [ht]; decide), if_neg (by rw [ht]; decide)]

theorem runAfter_grown (p : Bool) (r : Run) :
    (if r.tone = p then (⟨r.tone, r.ms + 5⟩ : Run) else ⟨p, 0⟩) = runAfter p r := by
  unfold runAfter
  split
  · next h => rw [h]
  · rfl

theorem busyCount_cycles (c : ProgressChannel) : (busyCount c).cycles =
    if 600 < c.run.ms then 0
    else if c.run.tone = false ∧ c.run.ms = 400 ∧ c.runOk = true then c.cycles + 1 else c.cycles := by
  unfold busyCount
  by_cases hl : 600 < c.run.ms
  · rw [if_pos hl, if_pos hl]
  · rw [if_neg hl, if_neg hl]
    by_cases hc : (!c.run.tone && c.run.ms == 400 && c.runOk) = true
    · rw [if_pos hc, if_pos (by simpa [and_assoc] using hc)]
    · rw [if_neg hc, if_neg (by simpa [and_assoc] using hc)]

/-- R48: the count of busy cycles after an interval. -/
theorem progressInterval_counts {c : ProgressChannel} (p : Bool) (ha : c.active = true) (hw : c.busyWatch = true) :
    BusyCounted p c (progressInterval p c).1 := by
  have hcounted : progressCounted c = busyCount (progressGrown c) := if_pos hw
  have hrun := progressCounted_run c
  have htone : (progressCounted c).run.tone = c.run.tone := by rw [hrun]
  have hms : (progressCounted c).run.ms = c.run.ms + 5 := by rw [hrun]
  have hcycles : (progressCounted c).cycles = if 600 < c.run.ms + 5 then 0
      else if c.run.tone = false ∧ c.run.ms + 5 = 400 ∧ c.runOk = true then c.cycles + 1 else c.cycles := by
    rw [hcounted]; exact busyCount_cycles _
  rw [progressInterval_active p ha]
  have hfinal := turnProgress_cycles p (progressCounted c)
  obtain ⟨hok, hnot⟩ := turnProgress_runOk (p := p) (c := progressCounted c)
  rw [htone, hms] at hfinal hok
  rw [htone] at hnot
  rw [hcycles] at hfinal
  unfold BusyCounted
  refine ⟨?_, fun hl => ?_, fun hs ht => ⟨fun hp => ?_, fun hp hn => ?_, fun hp hn => ⟨?_, hok ht hp hn hs⟩⟩,
    fun hs ht => ⟨?_, hnot ht⟩⟩
  · rw [turnProgress_run, hrun]
    exact runAfter_grown p c.run
  · rw [hfinal, if_pos hl, ite_self]
  · rw [hfinal, hp, ht, if_neg (by simp), if_neg (by omega), if_neg (by simp)]
  · rw [hfinal, if_pos ⟨ht, hp, hn⟩]
  · rw [hfinal, ht, if_neg (by omega), if_neg (by omega), if_neg (by simp)]
  · rw [hfinal, ht, if_neg (by simp), if_neg (by omega)]
    simp only [true_and]

/-! ### The meter channel (R49) -/

theorem meterInterval_active {c : MeterChannel} (p : Bool) (n : Nat) (h : c.active = true) :
    meterInterval p n c = ((turnMeter p n (growMeter c).1).1, (growMeter c).2 ++ (turnMeter p n (growMeter c).1).2) :=
  if_pos h

/-- A burst takes the interval that has ended. -/
def burstGrown (b : Burst) : Burst := ⟨b.ms + 5, b.minimum, b.judged || decide (500 < b.ms + 5)⟩

theorem growMeter_burst {c : MeterChannel} {b : Burst} (hk : c.broken = false) (h : c.burst = some b) :
    growMeter c = ({ c with burst := some (burstGrown b) },
      if b.judged = false ∧ 500 < b.ms + 5 then [.meterPulse true] else []) := by
  unfold growMeter burstGrown
  rw [if_neg (by rw [hk]; decide), h]
  dsimp only [detectorMs]
  cases hj : b.judged <;> by_cases hl : 500 < b.ms + 5 <;> simp [hl]

theorem growMeter_silence {c : MeterChannel} (hk : c.broken = false) (h : c.burst = none) :
    growMeter c = (if c.ignoring then c else { c with gap := c.gap.map (· + 5) }, []) := by
  unfold growMeter
  rw [if_neg (by rw [hk]; decide), h]
  dsimp only [detectorMs]
  split <;> rfl

theorem turnMeter_burst {c : MeterChannel} {b : Burst} (p : Bool) (n : Nat) (h : c.burst = some b) :
    turnMeter p n c = if p then (c, []) else ({ c with burst := none, gap := some 0 }, endedBurst b) := by
  unfold turnMeter; rw [h]

theorem turnMeter_ignoring {c : MeterChannel} (p : Bool) (n : Nat) (h : c.burst = none) (hi : c.ignoring = true) :
    turnMeter p n c = (if p then c else { c with ignoring := false, gap := some 0 }, []) := by
  unfold turnMeter; rw [h]; exact if_pos hi

theorem turnMeter_silence {c : MeterChannel} (p : Bool) (n : Nat) (h : c.burst = none) (hi : c.ignoring = false) :
    turnMeter p n c = (if p then
        (if c.gap.all (fun g => decide (100 ≤ g)) then { c with burst := some ⟨0, n, false⟩ } else { c with ignoring := true })
      else c, []) := by
  unfold turnMeter
  rw [h]
  dsimp only
  rw [if_neg (by rw [hi]; decide)]
  split <;> rfl

/-- R49: the burst and the silence after an interval. -/
theorem meterInterval_times {c : MeterChannel} (p : Bool) (n : Nat) (ha : c.active = true) (hk : c.broken = false) :
    BurstTimed p n c (meterInterval p n c).1 := by
  rw [meterInterval_active p n ha]
  refine ⟨fun x hx => ?_, fun hb hi => ?_, fun hb hi => ?_⟩
  · rw [growMeter_burst hk hx, turnMeter_burst p n (b := burstGrown x) rfl]
    exact ⟨fun hp => by rw [if_pos hp]; rfl, fun hp => by rw [hp]; exact ⟨rfl, rfl⟩⟩
  · rw [growMeter_silence hk hb, if_neg (by rw [hi]; decide),
      turnMeter_silence (c := { c with gap := c.gap.map (· + 5) }) p n hb hi]
    refine ⟨fun hp => ?_, fun hp hg => ?_, fun g hp hg hl => ?_, fun g hp hg hl => ?_⟩
    · rw [hp]; exact ⟨hb, rfl⟩
    · rw [if_pos hp, hg]; rfl
    · have hlast : (c.gap.map (· + 5)).all (fun g => decide (100 ≤ g)) = true := by rw [hg]; exact decide_eq_true hl
      rw [if_pos hp]
      dsimp only
      rw [if_pos hlast]
    · have hlast : ¬ (c.gap.map (· + 5)).all (fun g => decide (100 ≤ g)) = true := by
        rw [hg]; exact fun hx => absurd (of_decide_eq_true hx) (Nat.not_le.2 hl)
      rw [if_pos hp]
      dsimp only
      rw [if_neg hlast]
      exact ⟨hb, rfl⟩
  · rw [growMeter_silence hk hb, if_pos hi, turnMeter_ignoring p n hb hi]
    exact ⟨by split <;> exact hb, fun hp => by rw [if_pos hp]; exact hi, fun hp => by rw [hp]; exact ⟨rfl, rfl⟩⟩

theorem mem_endedBurst (b : Burst) (x : Instr) :
    x ∈ endedBurst b ↔ (b.judged = false ∧ b.minimum ≤ b.ms) ∧ x = .meterPulse false := by
  unfold endedBurst
  rw [List.mem_ite_nil_right]
  simp

theorem growMeter_pulses {c : MeterChannel} : ∀ x ∈ (growMeter c).2, ∃ b, x = .meterPulse b := by
  unfold growMeter
  dsimp only
  split
  · simp
  · split
    · split <;> simp
    · split <;> simp

theorem turnMeter_silent {c : MeterChannel} {p : Bool} {n : Nat} (h : c.burst = none) : (turnMeter p n c).2 = [] := by
  cases hi : c.ignoring with
  | false => rw [turnMeter_silence p n h hi]
  | true => rw [turnMeter_ignoring p n h hi]

theorem turnMeter_pulses {c : MeterChannel} {p : Bool} {n : Nat} : ∀ x ∈ (turnMeter p n c).2, ∃ b, x = .meterPulse b := by
  intro x hx
  cases h : c.burst with
  | none => rw [turnMeter_silent h] at hx; cases hx
  | some b =>
    rw [turnMeter_burst p n h] at hx
    cases p with
    | true => cases hx
    | false => exact ⟨_, ((mem_endedBurst b x).1 hx).2⟩

theorem growMeter_silent {c : MeterChannel} (hk : c.broken = false) (h : c.burst = none) :
    (growMeter c).2 = [] ∧ (growMeter c).1.burst = none := by
  rw [growMeter_silence hk h]
  refine ⟨rfl, ?_⟩
  dsimp only
  split <;> exact h

/-- R49: the pulses an interval recognises. -/
theorem meterInterval_events {c : MeterChannel} (p : Bool) (n : Nat) :
    (c.broken = false →
      (Instr.meterPulse true ∈ (meterInterval p n c).2
        ↔ c.active = true ∧ ∃ x, c.burst = some x ∧ x.judged = false ∧ 500 < x.ms + 5)
      ∧ (Instr.meterPulse false ∈ (meterInterval p n c).2
        ↔ c.active = true ∧ p = false
          ∧ ∃ x, c.burst = some x ∧ x.judged = false ∧ x.minimum ≤ x.ms + 5 ∧ x.ms + 5 ≤ 500))
      ∧ ∀ x ∈ (meterInterval p n c).2, ∃ b, x = .meterPulse b := by
  cases ha : c.active with
  | false =>
    have hnone : (meterInterval p n c).2 = [] := by unfold meterInterval; rw [if_neg (by rw [ha]; decide)]
    rw [hnone]
    simp
  | true =>
    rw [meterInterval_active p n ha]
    refine ⟨fun hk => ?_, fun x hx => (List.mem_append.1 hx).elim (growMeter_pulses x) (turnMeter_pulses x)⟩
    cases hb : c.burst with
    | none =>
      obtain ⟨hgrown, hsilent⟩ := growMeter_silent hk hb
      rw [hgrown, turnMeter_silent hsilent]
      simp
    | some b =>
      rw [growMeter_burst hk hb, turnMeter_burst p n (b := burstGrown b) rfl]
      have hlong : Instr.meterPulse true ∉ (if p = true then (({ c with burst := some (burstGrown b) } : MeterChannel), [])
          else ({ { c with burst := some (burstGrown b) } with burst := none, gap := some 0 }, endedBurst (burstGrown b))).2 := by
        cases p <;> simp [mem_endedBurst]
      constructor
      · rw [List.mem_append, or_iff_left hlong, List.mem_ite_nil_right]
        simp
      · rw [List.mem_append, List.mem_ite_nil_right]
        cases p <;> simp [mem_endedBurst, burstGrown]
        tauto

/-! ### The centre channel (R51, R52) -/

/-- The channel with the interval taken by its run. -/
def centreGrown (c : CentreChannel) : CentreChannel := { c with run := c.run.grow }

/-- What the presence judged makes of the run in progress. -/
def turnCentre (p : Bool) (c : CentreChannel) : CentreChannel :=
  if c.run.tone = p then c else { (if c.hold then c else endCentre c) with run := ⟨p, 0⟩ }

/-- R52: the channel as 400 ms of silence have passed since a delivery. -/
def silenceHeard (c : CentreChannel) : CentreChannel :=
  { centreGrown c with hold := false, count := 0, latest := none, candidate := none }

theorem centreInterval_held {c : CentreChannel} (p : Bool) (ha : c.active = true) (hh : c.hold = true) :
    centreInterval p c = (turnCentre p (if c.run.tone = false ∧ 400 ≤ c.run.ms + 5 then silenceHeard c
      else centreGrown c), []) := by
  have hiff : (!c.run.grow.tone && decide (400 ≤ c.run.grow.ms)) = true ↔ c.run.tone = false ∧ 400 ≤ c.run.ms + 5 := by
    show (!c.run.tone && decide (400 ≤ c.run.ms + 5)) = true ↔ _
    simp
  unfold centreInterval
  rw [if_pos ha]
  dsimp only
  rw [if_pos hh]
  by_cases hs : c.run.tone = false ∧ 400 ≤ c.run.ms + 5
  · rw [if_pos hs, if_pos (hiff.2 hs)]
    rfl
  · rw [if_neg hs, if_neg (fun hx => hs (hiff.1 hx))]
    rfl

theorem centreInterval_free {c : CentreChannel} (p : Bool) (ha : c.active = true) (hh : c.hold = false) :
    centreInterval p c = (turnCentre p (growCentre (centreGrown c)).1, (growCentre (centreGrown c)).2) := by
  unfold centreInterval
  rw [if_pos ha]
  dsimp only
  rw [if_neg (show ¬ c.hold = true by rw [hh]; decide)]
  rfl

theorem growCentre_tone {c : CentreChannel} (h : c.run.tone = true) :
    growCentre c = ({ c with count := if 640 < c.run.ms then 0 else c.count },
      if c.run.ms = 1000 then [.cadenceRecognised .bye] else []) := by
  unfold growCentre
  rw [if_pos h]
  by_cases hb : c.run.ms = 1000
  · rw [if_pos hb, if_pos hb, if_pos (by omega)]
  · rw [if_neg hb, if_neg hb]
    split <;> rfl

/-- R51: a repetition is complete at 160 ms of the silence after a tone run of its window. -/
theorem growCentre_repeats {c : CentreChannel} {k : Cadence} (h : c.run = ⟨false, 160⟩) (hk : c.candidate = some k) :
    growCentre c = (repetition k c, if (repetition k c).count = 2 then [.cadenceRecognised k] else []) := by
  unfold growCentre
  rw [h, if_neg (by decide), if_pos rfl, hk]

theorem growCentre_silence {c : CentreChannel} (h : c.run.tone = false)
    (hk : c.run.ms ≠ 160 ∨ c.candidate = none) :
    growCentre c = (if 240 < c.run.ms then { c with count := 0, candidate := none } else c, []) := by
  unfold growCentre
  rw [if_neg (by rw [h]; decide)]
  by_cases hm : c.run.ms = 160
  · rw [if_pos hm, hk.resolve_left (fun hx => hx hm), if_neg (by omega)]
  · rw [if_neg hm]
    split <;> rfl

theorem repetition_two (k : Cadence) (c : CentreChannel) :
    (repetition k c).count = 2 ↔ c.latest = some k ∧ c.count = 1 := by
  unfold repetition
  dsimp only
  split
  · next h => simp [h]
  · next h => simp [h]

theorem turnCentre_run (p : Bool) (c : CentreChannel) : (turnCentre p c).run = if c.run.tone = p then c.run else ⟨p, 0⟩ := by
  unfold turnCentre; split <;> rfl

theorem endCentre_hold (c : CentreChannel) : (endCentre c).hold = c.hold := by
  unfold endCentre
  split
  · split <;> rfl
  · rfl

theorem turnCentre_hold (p : Bool) (c : CentreChannel) : (turnCentre p c).hold = c.hold := by
  unfold turnCentre
  split
  · rfl
  · dsimp only
    split
    · rfl
    · exact endCentre_hold c

theorem cadenceWindow_eq (n : Nat) : cadenceWindow n = windowOf n := by
  unfold cadenceWindow windowOf
  split
  · rfl
  · split <;> split <;> first | rfl | omega

/-- R51: the presence judged ends a run of the channel, and keeps its counts but for a tone run outside the windows. -/
theorem endCentre_tone {c : CentreChannel} (h : c.run.tone = true) :
    (endCentre c).candidate = windowOf c.run.ms
      ∧ (endCentre c).count = if windowOf c.run.ms = none then 0 else c.count := by
  unfold endCentre
  rw [if_pos h, cadenceWindow_eq]
  cases hw : windowOf c.run.ms with
  | none => exact ⟨rfl, rfl⟩
  | some k => exact ⟨rfl, rfl⟩

theorem endCentre_silence {c : CentreChannel} (h : c.run.tone = false) : endCentre c = { c with candidate := none } :=
  if_neg (by rw [h]; decide)

theorem growCentre_events (c : CentreChannel) :
    (∀ k, Instr.cadenceRecognised k ∈ (growCentre c).2
        ↔ (c.run = ⟨true, 1000⟩ ∧ k = .bye)
          ∨ (c.run = ⟨false, 160⟩ ∧ c.candidate = some k ∧ c.latest = some k ∧ c.count = 1))
      ∧ ∀ x ∈ (growCentre c).2, ∃ k, x = .cadenceRecognised k := by
  simp only [Run.eq_iff]
  cases ht : c.run.tone with
  | true =>
    rw [growCentre_tone ht]
    simp [List.mem_ite_nil_right]
  | false =>
    by_cases hr : c.run.ms = 160 ∧ c.candidate ≠ none
    · obtain ⟨hms, hc⟩ := hr
      obtain ⟨k, hk⟩ := Option.ne_none_iff_exists'.1 hc
      rw [growCentre_repeats ((Run.eq_iff ..).2 ⟨ht, hms⟩) hk]
      simp only [List.mem_ite_nil_right, List.mem_singleton, repetition_two, hms, hk]
      refine ⟨fun j => ⟨?_, ?_⟩, fun x hx => ⟨k, hx.2⟩⟩
      · rintro ⟨⟨hl, hn⟩, hj⟩
        obtain rfl : j = k := by injection hj
        exact .inr (by simp [hl, hn])
      · rintro (⟨⟨hx, -⟩, -⟩ | ⟨-, hj, hl, hn⟩)
        · exact absurd hx (by decide)
        · obtain rfl := Option.some.inj hj
          exact ⟨⟨hl, hn⟩, rfl⟩
    · have hno : c.run.ms ≠ 160 ∨ c.candidate = none := by
        by_cases hm : c.run.ms = 160
        · exact .inr (not_not.1 fun hx => hr ⟨hm, hx⟩)
        · exact .inl hm
      rw [growCentre_silence ht hno]
      refine ⟨fun k => ⟨fun hx => (nomatch hx), ?_⟩, fun x hx => (nomatch hx)⟩
      rintro (⟨⟨hx, -⟩, -⟩ | ⟨⟨-, hm⟩, hk, -⟩)
      · exact absurd hx (by decide)
      · exact absurd ⟨hm, by rw [hk]; exact Option.some_ne_none k⟩ hr

/-- R51, R52: what an interval of the channel recognises. -/
theorem centreInterval_events {c : CentreChannel} (p : Bool) :
    (∀ k, Instr.cadenceRecognised k ∈ (centreInterval p c).2
        ↔ c.active = true ∧ c.hold = false
          ∧ ((c.run = ⟨true, 995⟩ ∧ k = .bye)
            ∨ (c.run = ⟨false, 155⟩ ∧ c.candidate = some k ∧ c.latest = some k ∧ c.count = 1)))
      ∧ ∀ x ∈ (centreInterval p c).2, ∃ k, x = .cadenceRecognised k := by
  cases ha : c.active with
  | false =>
    have hnone : (centreInterval p c).2 = [] := by unfold centreInterval; rw [if_neg (by rw [ha]; decide)]
    rw [hnone]
    simp
  | true =>
    cases hh : c.hold with
    | true => rw [centreInterval_held p ha hh]; simp
    | false =>
      have hgrown (b : Bool) (n : Nat) : (centreGrown c).run = ⟨b, n + 5⟩ ↔ c.run = ⟨b, n⟩ := by
        rw [Run.eq_iff, Run.eq_iff]
        exact and_congr_right' (show c.run.ms + 5 = n + 5 ↔ _ by omega)
      obtain ⟨hevents, honly⟩ := growCentre_events (centreGrown c)
      rw [centreInterval_free p ha hh]
      refine ⟨fun k => ?_, honly⟩
      rw [hevents, hgrown true 995, hgrown false 155]
      simp [centreGrown]

theorem turnCentre_silence {c : CentreChannel} (p : Bool) (h : c.run.tone = false) :
    (turnCentre p c).count = c.count ∧ (turnCentre p c).latest = c.latest := by
  unfold turnCentre
  split
  · exact ⟨rfl, rfl⟩
  · dsimp only
    split
    · exact ⟨rfl, rfl⟩
    · rw [endCentre_silence h]; exact ⟨rfl, rfl⟩

theorem growCentre_keeps (c : CentreChannel) : (growCentre c).1.run = c.run ∧ (growCentre c).1.hold = c.hold := by
  unfold growCentre repetition
  split
  · split
    · exact ⟨rfl, rfl⟩
    · split <;> exact ⟨rfl, rfl⟩
  · split
    · split <;> exact ⟨rfl, rfl⟩
    · split <;> exact ⟨rfl, rfl⟩

theorem turnCentre_goes {c : CentreChannel} {p : Bool} (h : c.run.tone = p) : turnCentre p c = c := if_pos h

theorem turnCentre_ends {c : CentreChannel} {p : Bool} (hh : c.hold = false) (h : c.run.tone ≠ p) :
    turnCentre p c = { endCentre c with run := ⟨p, 0⟩ } := by
  unfold turnCentre; rw [if_neg h, if_neg (by rw [hh]; decide)]

/-- R52: the 400 ms of silence after a delivery. -/
theorem centreInterval_waits {c : CentreChannel} (p : Bool) (ha : c.active = true) (hh : c.hold = true) :
    RepetitionsCounted p c (centreInterval p c).1 := by
  have hiff : (!c.run.tone && decide (400 ≤ c.run.ms + 5)) = true ↔ c.run.tone = false ∧ 400 ≤ c.run.ms + 5 := by simp
  have hrun : (centreInterval p c).1.run = runAfter p c.run := by
    rw [centreInterval_held p ha hh, turnCentre_run, ← runAfter_grown]
    split <;> rfl
  refine ⟨hrun, fun _ => ?_, fun hx => absurd (hx.symm.trans hh) (by decide)⟩
  rw [centreInterval_held p ha hh]
  dsimp only
  by_cases hs : c.run.tone = false ∧ 400 ≤ c.run.ms + 5
  · rw [if_pos hs, turnCentre_hold, hiff.2 hs]
    exact ⟨rfl, fun _ => (turnCentre_silence p (c := silenceHeard c) hs.1).1⟩
  · have hnot : (!c.run.tone && decide (400 ≤ c.run.ms + 5)) = false := by
      cases hb : (!c.run.tone && decide (400 ≤ c.run.ms + 5)) with
      | false => rfl
      | true => exact absurd (hiff.1 hb) hs
    rw [if_neg hs, turnCentre_hold, hnot]
    exact ⟨hh, fun hx => absurd (hx.symm.trans (show (centreGrown c).hold = true from hh)) (by decide)⟩

/-- R51, R52: the repetitions after an interval. -/
theorem centreInterval_counts {c : CentreChannel} (p : Bool) (ha : c.active = true) :
    RepetitionsCounted p c (centreInterval p c).1 := by
  cases hh : c.hold with
  | true => exact centreInterval_waits p ha hh
  | false =>
    obtain ⟨hrun, hhold⟩ := growCentre_keeps (centreGrown c)
    have hgrown : (centreGrown c).run = ⟨c.run.tone, c.run.ms + 5⟩ := rfl
    have hfree : (growCentre (centreGrown c)).1.hold = false := hhold.trans hh
    rw [centreInterval_free p ha hh]
    refine ⟨?_, fun hx => absurd (hx.symm.trans hh) (by decide), fun _ => ⟨?_, fun ht hl => ?_, fun ht hp => ?_,
      fun ht hl => ?_, fun k hr hk => ?_⟩⟩
    · rw [turnCentre_run, hrun, hgrown]; exact runAfter_grown p c.run
    · rw [turnCentre_hold]; exact hfree
    · have hcount : (growCentre (centreGrown c)).1.count = 0 := by
        rw [growCentre_tone (c := centreGrown c) ht]
        exact if_pos hl
      by_cases hp : (growCentre (centreGrown c)).1.run.tone = p
      · rw [turnCentre_goes hp]; exact hcount
      · rw [turnCentre_ends hfree hp]
        show (endCentre _).count = 0
        rw [(endCentre_tone (by rw [hrun]; exact ht)).2, hcount, ite_self]
    · have hturns : (growCentre (centreGrown c)).1.run.tone ≠ p := by rw [hrun, hgrown, ht, hp]; decide
      obtain ⟨hwindow, hcount⟩ := endCentre_tone (c := (growCentre (centreGrown c)).1) (by rw [hrun]; exact ht)
      rw [turnCentre_ends hfree hturns]
      rw [hrun, hgrown] at hwindow hcount
      exact ⟨hwindow, fun hw => hcount.trans (if_pos hw)⟩
    · have hsilent : (growCentre (centreGrown c)).1.run.tone = false := by rw [hrun]; exact ht
      have hgrow := growCentre_silence (c := centreGrown c) ht (.inl (by show c.run.ms + 5 ≠ 160; omega))
      rw [(turnCentre_silence p hsilent).1, hgrow]
      show (if 240 < c.run.ms + 5 then _ else _ : CentreChannel).count = 0
      rw [if_pos hl]
    · have hsilent : (growCentre (centreGrown c)).1.run.tone = false := by rw [hrun, hgrown, hr]
      have hrun160 : (centreGrown c).run = ⟨false, 160⟩ := by rw [hgrown, hr]
      obtain ⟨hcount, hlatest⟩ := turnCentre_silence p hsilent
      rw [hcount, hlatest, growCentre_repeats hrun160 (k := k) hk]
      exact ⟨rfl, rfl⟩

/-! ### Loop current (R45, R49) -/

/-- R45: the watch armed, with loop current present. -/
def currentThere (s : State) : State :=
  { s with pins := { s.pins with loopCurrent := true }, line := { s.line with armed := true, absentSince := none } }

theorem takeHeld_none (h : s.rate.held = []) : takeHeld s = (s, .nothing) := by unfold takeHeld; rw [h]

theorem exec_loopCurrentPresent (ha : alive s = true) (hw : watchRuns s.line = true) :
    exec .loopCurrentPresent s = .next (finish s (currentReturns (setCurrent true s))) := exec_alive ha (if_pos hw)

theorem currentReturns_eq (h : s.line.absentSince = none ∨ s.rate.held = []) :
    currentReturns (setCurrent true s) = currentThere s := by
  unfold currentReturns
  dsimp only
  split
  next hsome =>
    have hheld : s.rate.held = [] := h.resolve_left (fun hx => by
      have hs : s.line.absentSince.isSome = true := hsome
      rw [hx] at hs; cases hs)
    show actVerdict (takeHeld (currentThere s)) = _
    rw [takeHeld_none (s := currentThere s) hheld]
    rfl
  next => rfl

/-- R45, R49: an absence of loop current begins to be timed. -/
def currentGone (s : State) : State :=
  { s with
    pins := { s.pins with loopCurrent := false }
    line := { s.line with
      absentSince := some s.now
      meter := meterCut (decide (s.line.detectorTimer = s.after detectorMs)) s.line.meter } }

theorem exec_loopCurrentAbsent (ha : alive s = true) (hw : watchRuns s.line = true) (harmed : s.line.armed = true)
    (habsent : s.line.absentSince = none) : exec .loopCurrentAbsent s = .next (finish s (currentGone s)) :=
  exec_alive ha (if_pos ⟨hw, harmed, habsent⟩)

/-! ### Line voltage (R60) -/

/-- R60: the state in which a run of more than 2 s against the watch has ended. -/
def voltageTurned (since : Nat) (v : Bool) (s : State) : State :=
  { s with
    now := max s.now (since + 2001), pins := { s.pins with voltage := v }
    line := { s.line with voltSince := none } }

theorem voltageRunEnd_eq {since : Nat} {v : Bool} (h : s.line.voltSince = some since) :
    setVoltage v (voltageRunEnd s) = voltageTurned since v s := by
  unfold voltageRunEnd; rw [h]; rfl

theorem voltageWatched_of (hl : loopClosed s.line.state = false) (hr : s.store.start.voltageRead = true) :
    voltageWatched s = true := by unfold voltageWatched; rw [hl, hr]; rfl

theorem exec_voltageAbsent {since : Nat} (ha : alive s = true) (hl : loopClosed s.line.state = false)
    (hr : s.store.start.voltageRead = true) (hs : s.line.voltSince = some since) (hw : s.line.watch = .present) :
    exec .voltageAbsent s = .next (finish s (countOccurrence .lineCut (setWatch .cut (voltageTurned since false s)))) :=
  exec_alive ha (by
    rw [if_pos (⟨voltageWatched_of hl hr, hw⟩ : voltageWatched s = true ∧ s.line.watch = .present), voltageRunEnd_eq hs])

theorem exec_voltagePresent {since : Nat} (ha : alive s = true) (hl : loopClosed s.line.state = false)
    (hr : s.store.start.voltageRead = true) (hs : s.line.voltSince = some since) (hw : s.line.watch = .cut) :
    exec .voltagePresent s = .next (finish s (endCondition .lineCut (setWatch .present (voltageTurned since true s)))) :=
  exec_alive ha (by
    rw [if_pos (⟨voltageWatched_of hl hr, hw⟩ : voltageWatched s = true ∧ s.line.watch = .cut), voltageRunEnd_eq hs])

theorem voltageTurned_only {since : Nat} {v : Bool} : OnlyChanges [.now, .pins, .line] s (voltageTurned since v s) := by
  intro p hp
  cases p
  case clock => exact ⟨rfl, rfl⟩
  case now | pins | line => exact absurd (by decide) hp
  all_goals rfl

theorem setWatch_notifies (w : Watch) (s : State) : Notifies { s with line := { s.line with watch := w } } (setWatch w s) :=
  notifies_post ..

theorem watchTurned_only {since : Nat} {v : Bool} {w : Watch} :
    OnlyChanges [.now, .pins, .line] s (setWatch w (voltageTurned since v s)) :=
  OnlyChanges.step (only_line voltageTurned_only (by decide)) (setWatch_notifies ..).only (List.nil_subset _)

theorem voltageAbsent_effect {since : Nat} :
    let t := finish s (countOccurrence .lineCut (setWatch .cut (voltageTurned since false s)))
    LinkKept s t ∧ t.now = max s.now (since + 2001)
      ∧ t.line = { s.line with watch := .cut, voltSince := none } ∧ t.incd = (countOccurrence .lineCut s).incd
      ∧ OnlyChanges [.now, .pins, .line, .incd] s t := by
  have hturned : OnlyChanges [.now, .pins, .line] s (setWatch .cut (voltageTurned since false s)) := watchTurned_only
  refine ⟨linkKept_of_kept (.after countOccurrence_kept (.after setWatch_kept (.of_core rfl))), ?_, ?_, ?_, ?_⟩
  · exact (finish_now ..).trans ((countOccurrence_only .now (by decide)).trans ((setWatch_notifies ..).same .now))
  · exact (finish_line ..).trans ((countOccurrence_only .line (by decide)).trans (setWatch_line ..))
  · exact (finish_incd ..).trans
      (countOccurrence_incd_of (hturned .incd (by decide)) (hturned .clock (by decide)).1)
  · exact only_finish ((hturned.wider (by decide)).step countOccurrence_only (by decide))

theorem voltagePresent_effect {since : Nat} :
    let t := finish s (endCondition .lineCut (setWatch .present (voltageTurned since true s)))
    LinkKept s t ∧ t.now = max s.now (since + 2001)
      ∧ t.line = { s.line with watch := .present, voltSince := none } ∧ t.incd = (endCondition .lineCut s).incd
      ∧ OnlyChanges [.now, .pins, .line, .incd] s t := by
  have hturned : OnlyChanges [.now, .pins, .line] s (setWatch .present (voltageTurned since true s)) := watchTurned_only
  refine ⟨linkKept_of_kept (.after endCondition_kept (.after setWatch_kept (.of_core rfl))), ?_, ?_, ?_, ?_⟩
  · exact (finish_now ..).trans ((endCondition_only .now (by decide)).trans ((setWatch_notifies ..).same .now))
  · exact (finish_line ..).trans ((endCondition_only .line (by decide)).trans (setWatch_line ..))
  · exact (finish_incd ..).trans (endCondition_incd (hturned .incd (by decide)))
  · exact only_finish ((hturned.wider (by decide)).step endCondition_only (by decide))

/-! ### The detector's interval (R47 to R52) -/

theorem exec_toneDetectorInterval {d : Nat} {p m c : Bool} (ha : alive s = true) (hd : s.line.detectorTimer = some d)
    (hl : listening s.line = true) :
    exec (.toneDetectorInterval p m c) s = .next (finish s (detectorInterval p m c (reach (some d) s))) :=
  exec_alive ha (by simp only [hd]; exact if_pos hl)

theorem mem_raised_progress {x : Instr} {l a b c : List Instr} (hb : x ∉ b) (hc : x ∉ c) :
    x ∈ l ++ a ++ b ++ c ↔ x ∈ l ∨ x ∈ a := by simp [hb, hc]

theorem mem_raised_meter {x : Instr} {l a b c : List Instr} (ha : x ∉ a) (hc : x ∉ c) :
    x ∈ l ++ a ++ b ++ c ↔ x ∈ l ∨ x ∈ b := by simp [ha, hc]

theorem mem_raised_centre {x : Instr} {l a b c : List Instr} (ha : x ∉ a) (hb : x ∉ b) :
    x ∈ l ++ a ++ b ++ c ↔ x ∈ l ∨ x ∈ c := by simp [ha, hb]

theorem detectorInterval_recognises {d : Nat} {p m c : Bool} (s : State) :
    ToneRecognised m s (detectorInterval p m c (reach (some d) s)) := by
  obtain ⟨hdial, hbusy, honlyP⟩ := progressInterval_events (c := s.line.progress) p
  obtain ⟨hpulses, honlyM⟩ := meterInterval_events (c := s.line.meter) (m && currentPresent s.line) s.config.meterMinBurst
  obtain ⟨hcadences, honlyC⟩ := centreInterval_events (c := s.line.centre) c
  have hraised : (detectorInterval p m c (reach (some d) s)).raised =
      s.raised ++ (progressInterval p s.line.progress).2
        ++ (meterInterval (m && currentPresent s.line) s.config.meterMinBurst s.line.meter).2
        ++ (centreInterval c s.line.centre).2 := rfl
  have hdialM : Instr.dialToneRecognised ∉ (meterInterval (m && currentPresent s.line) s.config.meterMinBurst s.line.meter).2 :=
    fun hx => nomatch honlyM _ hx
  have hdialC : Instr.dialToneRecognised ∉ (centreInterval c s.line.centre).2 := fun hx => nomatch honlyC _ hx
  have hbusyM : Instr.busyRecognised ∉ (meterInterval (m && currentPresent s.line) s.config.meterMinBurst s.line.meter).2 :=
    fun hx => nomatch honlyM _ hx
  have hbusyC : Instr.busyRecognised ∉ (centreInterval c s.line.centre).2 := fun hx => nomatch honlyC _ hx
  have hpulseP (b : Bool) : Instr.meterPulse b ∉ (progressInterval p s.line.progress).2 :=
    fun hx => nomatch honlyP _ hx
  have hpulseC (b : Bool) : Instr.meterPulse b ∉ (centreInterval c s.line.centre).2 := fun hx => nomatch honlyC _ hx
  have hcadenceP (k : Cadence) : Instr.cadenceRecognised k ∉ (progressInterval p s.line.progress).2 :=
    fun hx => nomatch honlyP _ hx
  have hcadenceM (k : Cadence) : Instr.cadenceRecognised k ∉
      (meterInterval (m && currentPresent s.line) s.config.meterMinBurst s.line.meter).2 := fun hx => nomatch honlyM _ hx
  unfold ToneRecognised
  dsimp only
  rw [hraised, mem_raised_progress hdialM hdialC, hdial, mem_raised_progress hbusyM hbusyC, hbusy]
  refine ⟨.rfl, .rfl, fun hk => ?_, fun k => ?_⟩
  · rw [mem_raised_meter (hpulseP _) (hpulseC _), mem_raised_meter (hpulseP _) (hpulseC _), (hpulses hk).1, (hpulses hk).2]
    exact ⟨.rfl, .rfl⟩
  · rw [mem_raised_centre (hcadenceP k) (hcadenceM k), hcadences]

end Sys2Proof.Machine

open Sys2Proof Sys2Proof.Machine

/-- Settles O48: the two watches by their events, and the detector's interval channel by channel. -/
theorem lineInputsAreWatched : Obligations.LineInputsAreWatched := by
  refine fun s ha => ⟨fun hw h => ?_, fun hw harmed habsent => ?_, fun hl hr => ⟨fun since hs hw => ?_, fun since hs hw => ?_⟩,
    fun d p m c hd hl => ?_⟩
  · have hthere := currentReturns_eq h
    refine ⟨_, exec_loopCurrentPresent ha hw, ?_⟩
    rw [hthere]
    exact finish_silent (s := s) (u := currentThere s) (.of_core rfl) rfl rfl rfl (creditKey_of_same rfl rfl rfl)
  · obtain ⟨hlink, hposted, hbody⟩ :=
      finish_silent (s := s) (u := currentGone s) (.of_core rfl) rfl rfl rfl (creditKey_of_same rfl rfl rfl)
    have hmeter : (finish s (currentGone s)).line.meter = (currentGone s).line.meter := by rw [finish_line]
    refine ⟨_, exec_loopCurrentAbsent ha hw harmed habsent, hlink, hposted, ?_, ?_⟩
    · rw [hbody, hmeter]; rfl
    · rw [hmeter]; exact meterCut_burst ..
  · exact ⟨_, exec_voltageAbsent ha hl hr hs hw, voltageAbsent_effect⟩
  · exact ⟨_, exec_voltagePresent ha hl hr hs hw, voltagePresent_effect⟩
  · have honly : OnlyChanges [.now, .line, .raised] s (detectorInterval p m c (reach (some d) s)) :=
      (only_reach.wider (by decide)).step detectorInterval_only (by decide)
    obtain ⟨hlink, hposted, -⟩ := finish_silent (s := s) (u := detectorInterval p m c (reach (some d) s)) (.of_core rfl)
      rfl rfl rfl (creditKey_of_same rfl rfl rfl)
    have hraised := same_of_body (finish_body s (detectorInterval p m c (reach (some d) s))) .raised
    have hrecognised := detectorInterval_recognises (d := d) (p := p) (m := m) (c := c) s
    have hline := finish_line s (detectorInterval p m c (reach (some d) s))
    have hnow := finish_now s (detectorInterval p m c (reach (some d) s))
    refine ⟨_, exec_toneDetectorInterval ha hd hl, hlink, hposted, hnow, ?_, only_finish honly, fun h1 h2 _ h4 _ => ?_, ?_,
      fun h1 h2 => ?_, fun h1 h2 => ?_, fun h1 => ?_⟩
    · rw [hline, hnow]; rfl
    · rw [hraised]
      exact hrecognised.1.2 (.inr ⟨h1, h2, h4⟩)
    · unfold ToneRecognised
      rw [hraised]
      exact hrecognised
    · rw [hline]; exact progressInterval_counts p h1 h2
    · rw [hline]; exact meterInterval_times _ _ h1 h2
    · rw [hline]; exact centreInterval_counts c h1

end

section
/-! A FOLLOW-ON end (R21, R22, R106), and the states of the keys (O41). -/

namespace Sys2Proof.Machine

variable {s t u v : State}

/-! ### The follow-on end -/

/-- A call whose follow-on end nothing holds back: its account open, no earlier record, and room in the log. -/
abbrev FollowsOn (s : State) (sl : Slot) : Prop :=
  s.call.openSlot = some sl ∧ s.call.closingSlot = none ∧ s.call.atStart = [] ∧ s.coin.run = .none
    ∧ s.store.log.records.length < 64 ∧ s.rate.phase ≠ .inactive ∧ s.rate.phase ≠ .ended

/-- The slot of a call at its follow-on end, before its account is copied. -/
def followSlot (s : State) (sl : Slot) : Slot := endSlot .followOn s.store.clock s.now s.keys.buffer none sl

/-- R106: the state in which the account of a follow-on end is to be closed. -/
def followBegun (s : State) (sl : Slot) : State :=
  { s with
    call := { s.call with openSlot := some (followSlot s sl), heldFollowOn := false, warningTimer := none }
    rate := { s.rate with graceTimer := none, graceExpired := false, period := none, superTimer := none, held := [] } }

/-- R22: the ended call's slot, with its account, as the log takes it. -/
def followClosed (s : State) (sl : Slot) : Slot :=
  (((followSlot s sl).modify (copyAccount (keptAccount (accountOver (followBegun s sl)).rate))).modify
    (fun x => { x with carriedOut := s.rate.acct.unused, passedOn := escrowSum s.coin.escrow }))

/-- R22 step 6: the slot of the next call. -/
def followNext (s : State) : Slot :=
  { record := { follows := some s.store.log.nextSeq, offHook := s.store.clock, carriedIn := s.rate.acct.unused,
                takenOver := escrowSum s.coin.escrow, mode := s.config.ratingMode,
                flags := { clockUnset := s.store.clock.isNone } },
    offAt := s.now, base := s.coin.gone }

/-- R22, R29: the next call's record in the open slot, and collection cleared. -/
def followOpened (n : Slot) (i : Nat) (s : State) : State :=
  inState .followOnClearing (keysClear { s with call := { s.call with
    openSlot := some n, aliveTimer := some (i + 1000), refundAsked := false, replaced := false } })

/-- R43: CALL's line released. -/
def lineLet (s : State) : State := { s with line := lineFreed s }

/-- The state after a follow-on end, but for its notices. -/
def followedOn (s : State) (sl : Slot) : State :=
  followOpened (followNext s) s.now
    (logged (followClosed s sl) (lineLet (accountCopied (accountOver (followBegun s sl)))))

theorem copyClosed_followBegun {sl : Slot} (h : s.rate.phase ≠ .ended) :
    Notifies (accountCopied (accountOver (followBegun s sl))) (copyClosed (accountEnded (followBegun s sl))) := by
  have hended : Notifies (accountOver (followBegun s sl)) (accountEnded (followBegun s sl)) :=
    accountEnded_notifies (s := followBegun s sl) h
  have hphase : (accountEnded (followBegun s sl)).rate.phase = .ended := congrArg RateBlock.phase (hended.same .rate)
  rw [copyClosed_eq (by rw [hphase]; decide)]
  exact hended.update accountCopied rfl (fun _ => rfl)

theorem ownEscrow_open (hclosing : s.call.closingSlot = none) (hstart : s.call.atStart = []) (hrun : s.coin.run = .none) :
    escrowElsewhere s = false ∧ ownEscrow s = escrowSum s.coin.escrow := by
  have helse : escrowElsewhere s = false := by unfold escrowElsewhere; rw [hclosing, hstart, hrun]; rfl
  refine ⟨helse, ?_⟩
  unfold ownEscrow
  rw [helse]
  rfl

theorem closeForFollowOn_eq (s : State) (sl : Slot) :
    closeForFollowOn (setOpen (some (endSlot .followOn s.store.clock s.now s.keys.buffer none sl))
      { s with call := { s.call with heldFollowOn := false, warningTimer := none } }) = accountEnded (followBegun s sl) :=
  rfl

theorem followOnEnd_eq {sl : Slot} {x : State} (ho : s.call.openSlot = some sl)
    (hx : copyClosed (accountEnded (followBegun s sl)) = x) :
    let r := storeSlot ((x.call.openSlot.getD (followSlot s sl)).modify
      (fun y => { y with carriedOut := s.rate.acct.unused, passedOn := ownEscrow s })) (releaseCallLine x)
    followOnEnd s = setCallState .followOnClearing (keysClear { r.1 with call := { r.1.call with
      openSlot := some { record := followingRecord s s.store.clock s.rate.acct.unused (ownEscrow s) r.2, offAt := s.now,
                         base := if escrowElsewhere s then enteredCoins s.coin else s.coin.gone }
      aliveTimer := some (s.now + 1000), refundAsked := false, replaced := false } }) := by
  intro r
  unfold followOnEnd
  rw [ho]
  dsimp only
  rw [closeForFollowOn_eq, hx, show endSlot .followOn s.store.clock s.now s.keys.buffer none sl = followSlot s sl from rfl,
    show storeSlot _ (releaseCallLine x) = r from rfl]
  rfl

/-- R22: the log takes the ended record, and the next call's record follows it. -/
theorem followOnEnd_notifies {sl : Slot} (h : FollowsOn s sl) : Notifies (followedOn s sl) (followOnEnd s) := by
  obtain ⟨ho, hclosing, hstart, hrun, hlog, -, hended⟩ := h
  obtain ⟨helse, hown⟩ := ownEscrow_open hclosing hstart hrun
  have hcopied := copyClosed_followBegun (sl := sl) hended
  generalize hx : copyClosed (accountEnded (followBegun s sl)) = x at hcopied
  have hend := followOnEnd_eq ho hx
  have hopen : x.call.openSlot = some ((followSlot s sl).modify
      (copyAccount (keptAccount (accountOver (followBegun s sl)).rate))) :=
    (congrArg CallBlock.openSlot (hcopied.same .call) :)
  have hlet : Notifies (lineLet (accountCopied (accountOver (followBegun s sl)))) (releaseCallLine x) := by
    rw [releaseCallLine_eq]; exact hcopied.update lineLet rfl (fun _ => rfl)
  have hletlog : (releaseCallLine x).store.log = s.store.log := hlet.same .log
  obtain ⟨hstored, hseq⟩ := storeSlot_stored (s := releaseCallLine x) (followClosed s sl) (by rw [hletlog]; exact hlog)
  have hclosed : (x.call.openSlot.getD (followSlot s sl)).modify
      (fun y => { y with carriedOut := s.rate.acct.unused, passedOn := ownEscrow s }) = followClosed s sl := by
    rw [hopen, hown]; rfl
  dsimp only at hend
  rw [hclosed, hseq, hletlog, hown, helse] at hend
  rw [hend]
  have hlogged := (hlet.update (logged (followClosed s sl)) rfl (fun _ => rfl)).trans hstored
  exact (hlogged.update (followOpened (followNext s) s.now) rfl (fun _ => rfl)).trans (setCallState_notifies ..)

theorem clockAt_now (s : State) : clockAt s s.now = s.store.clock := by
  unfold clockAt
  cases s.store.clock with
  | none => rfl
  | some c => simp

theorem copyAccount_follow {sl : Slot} (s : State) (r : CallRecord) :
    copyAccount (keptAccount (accountOver (followBegun s sl)).rate) r = ratedRecord [] (keptAccount s.rate) r := by
  have hacct : (accountOver (followBegun s sl)).rate.acct = s.rate.acct.closedWith 0 := close_charge s.rate.acct 0
  unfold copyAccount ratedRecord keptAccount
  dsimp only
  rw [hacct]
  rfl

theorem followClosed_record {sl : Slot} (s : State) : { (followClosed s sl).record with seq := s.store.log.nextSeq } =
    { ratedRecord [] (keptAccount s.rate) (endedRecord .followOn s.now s sl) with
      carriedOut := s.rate.acct.unused, passedOn := escrowSum s.coin.escrow } := by
  unfold followClosed Slot.modify
  dsimp only
  rw [copyAccount_follow]
  unfold endedRecord
  rw [clockAt_now]
  rfl

/-- R21, R22, R106: a follow-on end. -/
theorem followOnEnded {sl : Slot} {s0 : State} (h : FollowsOn s sl) : FollowOnEnded s (finish s0 (followOnEnd s)) sl := by
  have hn := followOnEnd_notifies h
  have hbody := (finish_body s0 (followOnEnd s)).trans hn.body
  have hcall : (finish s0 (followOnEnd s)).call = (followedOn s sl).call := same_of_body hbody .call
  have hlog : (finish s0 (followOnEnd s)).store.log = (followedOn s sl).store.log := same_of_body hbody .log
  refine ⟨?_, ?_, ?_, ?_, ?_, ?_, only_finish (followOnEnd_only.wider (by decide)), ?_, ?_, ?_, linkKept_of_kept followOnEnd_kept⟩
  · unfold LogTook
    rw [hlog]
    show ({ s.store.log with
      records := s.store.log.records ++ [{ (followClosed s sl).record with seq := s.store.log.nextSeq }]
      nextSeq := nextSeq s.store.log.nextSeq, handed := some (followClosed s sl).offAt } : LogArea) = _
    rw [followClosed_record]
    rfl
  · rw [hcall]; rfl
  · rw [hcall]; rfl
  · rw [hcall]; rfl
  · rw [hcall]; rfl
  · exact same_of_body hbody .keys
  · exact same_of_body hbody .rate
  · exact same_of_body hbody .bank
  · exact (same_of_body hbody .line : _ = lineFreed s).trans (lineFreed_eq s)

/-! ### What leaves the key states as they are -/

/-- The key states read the same in both states. -/
def SameCells (s t : State) : Prop := t.keys.cells = s.keys.cells

theorem SameCells.trans (h : SameCells s u) (g : SameCells u t) : SameCells s t := Eq.trans g h

theorem SameCells.of_only {l : List Part} (h : OnlyChanges l s t) (hl : .keys ∉ l) : SameCells s t :=
  congrArg KeysBlock.cells (h .keys hl : t.keys = s.keys)

theorem beginCall_cells : SameCells s (beginCall s) :=
  (congrArg KeysBlock.cells ((beginCall_notifies s).same .keys : _ = collectionBegun s) : _)

theorem leaveClearing_cells : SameCells s (leaveClearing s) := by
  unfold leaveClearing
  split
  · exact .of_only enterIdle_only (by decide)
  · split
    · exact beginCall_cells
    · exact .of_only enterAbandoned_only (by decide)

theorem storeOpen_cells : SameCells s (storeOpen s) := by
  unfold storeOpen
  split
  · rfl
  · split
    · refine SameCells.trans ?_ leaveClearing_cells
      exact .of_only (l := [.call, .log]) ((setOpen_only.wider (by decide)).step storeSlot_only (by decide)) (by decide)
    · rfl

theorem progress_cells : SameCells s (progress s) := by
  have hbefore : OnlyChanges [.call, .coin, .vault, .incd, .log, .rate, .bank] s
      (takeReport (askRefund (clearAccount (storeClosing (storeAtStart (takeReport s)))))) :=
    (((((takeReport_only.wider (by decide)).step storeAtStart_only (by decide)).step storeClosing_only (by decide)).step
      clearAccount_only (by decide)).step askRefund_only (by decide)).step takeReport_only (by decide)
  exact (SameCells.of_only hbefore (by decide)).trans storeOpen_cells

theorem keysStop_cells : SameCells s (keysStop s) := rfl

theorem endCall_cells {c : EndCause} {n : Nat} : SameCells s (endCall c n s) := by
  have hafter : OnlyChanges [.call, .line, .rate] (keysStop (fixEnd c n s))
      (tellRateEnd n (releaseCallLine (setCallState .clearing (keysStop (fixEnd c n s))))) :=
    ((setCallState_only.wider (by decide)).step releaseCallLine_only (by decide)).step tellRateEnd_only (by decide)
  exact ((SameCells.of_only fixEnd_only (by decide)).trans keysStop_cells).trans
    ((SameCells.of_only hafter (by decide)).trans progress_cells)

theorem lineRequest_cells : SameCells s (lineRequest s) := by
  unfold lineRequest
  split
  · exact .of_only (l := [.call, .line, .rpt])
      ((abortAttempt_only.wider (by decide)).step setCallState_only (by decide)) (by decide)
  · have hseized := requestSeizure_only (o := .call) (d := s.keys.buffer.map Symbol.dtmf) (s := s)
    split
    next s1 heq =>
      rw [heq] at hseized
      exact (SameCells.of_only hseized (by decide)).trans (.of_only setCallState_only (by decide))
    next s1 heq =>
      rw [heq] at hseized
      exact (SameCells.of_only hseized (by decide)).trans endCall_cells
    next s1 a heq =>
      rw [heq] at hseized
      split
      · exact .of_only hseized (by decide)
      · exact (SameCells.of_only hseized (by decide)).trans (.of_only setCallState_only (by decide))

theorem checkNumber_cells {k : NumberKind} {l : ServiceLevel} : SameCells s (checkNumber k l s) := by
  unfold checkNumber
  split
  · exact endCall_cells
  · split
    · exact endCall_cells
    · split
      · exact endCall_cells
      · split
        · unfold depositCheck
          dsimp only
          split
          · exact SameCells.trans (.of_only (l := [.call]) (only_call .refl (by decide)) (by decide)) lineRequest_cells
          · exact .of_only (l := [.call])
              ((only_call (only_call .refl (by decide)) (by decide)).step setCallState_only (by decide)) (by decide)
        · exact lineRequest_cells

theorem complete_cells {k : NumberKind} {c : Option Nat} : SameCells s (complete k c s) := by
  have hcomplete : SameCells (keysStop s) (numberComplete k c (keysStop s)) := by
    unfold numberComplete
    split
    · have hbefore : OnlyChanges [.call] (keysStop s) (modifyOpen (fun r => { r with kind := k, cls := c })
          { keysStop s with call := { (keysStop s).call with level := some (serviceLevel (keysStop s)) } }) :=
        OnlyChanges.step (only_call .refl (by decide)) modifyOpen_only (by decide)
      exact (SameCells.of_only hbefore (by decide)).trans checkNumber_cells
    · rfl
  exact (keysStop_cells.trans hcomplete).trans (.of_only (only_of_body (l := []) (post_body ..)) nofun)

theorem analyseStored_cells : SameCells s (analyseStored s) := by
  have hposted {p : List Byte} : SameCells s (post .dialled p { s with keys := { s.keys with best := analyse s } }) :=
    SameCells.trans (u := { s with keys := { s.keys with best := analyse s } }) rfl
      (.of_only (only_of_body (l := []) (post_body ..)) nofun)
  unfold analyseStored
  split
  · exact SameCells.trans (u := { s with keys := { s.keys with best := none } }) rfl complete_cells
  · dsimp only
    split
    · split
      · exact SameCells.trans (u := { s with keys := { s.keys with best := analyse s } }) rfl complete_cells
      · exact hposted
    · exact hposted

theorem storeSymbol_cells {x : Symbol} : SameCells s (storeSymbol x s) := by
  unfold storeSymbol
  split
  · refine SameCells.trans (SameCells.trans (u := { s with keys := { s.keys with
      buffer := s.keys.buffer ++ [x], collection := .collectingDigits, firstDigitTimer := none
      interDigitTimer := s.after (s.config.interDigit * 1000) } }) rfl ?_) analyseStored_cells
    unfold symbolTold
    split
    · rfl
    · rfl
  · rfl

theorem hashPress_cells : SameCells s (hashPress s) := by
  unfold hashPress
  split
  · split
    next m _ =>
      split
      · exact SameCells.trans (u := { s with keys := { s.keys with best := some m } }) rfl complete_cells
      · rfl
    · rfl
  · rfl

theorem followBegun_only {sl : Slot} : OnlyChanges [.call, .rate] s (followBegun s sl) := by
  intro p hp
  cases p
  case clock => exact ⟨rfl, rfl⟩
  case call | rate => exact absurd (by decide) hp
  all_goals rfl

theorem followOnEnd_cells : SameCells s (followOnEnd s) := by
  cases ho : s.call.openSlot with
  | none => unfold followOnEnd; rw [ho]; rfl
  | some sl =>
    have hcleared (x : State) : SameCells x (setCallState .followOnClearing (keysClear x)) :=
      SameCells.trans (u := keysClear x) rfl (.of_only setCallState_only (by decide))
    have hclosed : OnlyChanges [.call, .rate, .bank] s (copyClosed (accountEnded (followBegun s sl))) :=
      ((followBegun_only.wider (by decide)).step accountEnded_only (by decide)).step copyClosed_only (by decide)
    rw [followOnEnd_eq ho rfl]
    refine SameCells.trans ?_ (hcleared _)
    exact .of_only (l := [.call, .rate, .bank, .line, .log]) (only_call (((hclosed.wider (by decide)).step
      releaseCallLine_only (by decide)).step storeSlot_only (by decide)) (by decide)) (by decide)

theorem deliverPress_cells {k : Key} : SameCells s (deliverPress k s) := by
  unfold deliverPress
  split
  · unfold followOnPress
    split
    · split
      · exact followOnEnd_cells
      · rfl
    · rfl
  all_goals split
  · exact hashPress_cells
  · rfl
  · exact storeSymbol_cells
  · rfl
  · exact storeSymbol_cells
  · rfl

/-! ### The key cells (R24, R25) -/

theorem keyIndex_lt (k : Key) : keyIndex k < 13 := by
  cases k with
  | digit d => exact Nat.lt_of_lt_of_le d.isLt (by decide)
  | star | hash | followOn => decide

theorem keyIndex_injective {j k : Key} (h : keyIndex j = keyIndex k) : j = k := by
  have hdigit (d : Fin 10) (n : Nat) (hn : 10 ≤ n) : d.val ≠ n := by have := d.isLt; omega
  cases j with
  | digit d =>
    cases k with
    | digit e => exact congrArg Key.digit (Fin.ext h)
    | star | hash | followOn => exact absurd h (hdigit d _ (by decide))
  | star =>
    cases k with
    | digit e => exact absurd h.symm (hdigit e _ (by decide))
    | star => rfl
    | hash | followOn => exact absurd h (by decide)
  | hash =>
    cases k with
    | digit e => exact absurd h.symm (hdigit e _ (by decide))
    | hash => rfl
    | star | followOn => exact absurd h (by decide)
  | followOn =>
    cases k with
    | digit e => exact absurd h.symm (hdigit e _ (by decide))
    | followOn => rfl
    | star | hash => exact absurd h (by decide)

theorem cellOf_setCell (k : Key) (c : KeyCell) (h : s.keys.cells.length = 13) : cellOf k (setCell k c s).keys = c := by
  unfold cellOf setCell
  rw [List.getD_eq_getElem?_getD, List.getElem?_set_self (by rw [h]; exact keyIndex_lt k)]
  rfl

theorem cellOf_setCell_other {j k : Key} (c : KeyCell) (h : j ≠ k) :
    cellOf j (setCell k c s).keys = cellOf j s.keys := by
  unfold cellOf setCell
  rw [List.getD_eq_getElem?_getD, List.getD_eq_getElem?_getD,
    List.getElem?_set_ne (fun he => h (keyIndex_injective he).symm)]

theorem settleCrossing_only {k : Key} {b : Bool} : OnlyChanges [.pins, .samplers] s (settleCrossing k b s) := by
  intro p hp
  cases p
  case clock => exact ⟨rfl, rfl⟩
  case pins | samplers => exact absurd (by decide) hp
  all_goals rfl

theorem exec_keyPress {k : Key} (ha : alive s = true) (hr : s.store.start.keysRead = true) :
    exec (.keyPress k) s = .next (finish s (pressKey k (settleCrossing k true s))) := exec_alive ha (if_pos hr)

theorem exec_keyRelease {k : Key} (ha : alive s = true) (hr : s.store.start.keysRead = true) :
    exec (.keyRelease k) s = .next (finish s (releaseKey k (settleCrossing k false s))) := exec_alive ha (if_pos hr)

theorem exec_stuckTimerExpiry {k : Key} {d : Nat} (ha : alive s = true) (hd : (cellOf k s.keys).stuckTimer = some d) :
    exec (.stuckTimerExpiry k) s = .next (finish s (stickKey k (reach (some d) s))) :=
  exec_alive ha (by simp only [hd])

/-- A key's new state, once its contact has been debounced closed. -/
def keyClosed (k : Key) (st : KeyState) (s : State) : State :=
  setCell k { state := st, stuckTimer := some (s.now + 20000) } (settleCrossing k true s)

theorem keyClosed_only {k : Key} {st : KeyState} : OnlyChanges [.keys, .pins, .samplers] s (keyClosed k st s) :=
  (settleCrossing_only.wider (by decide)).step setCell_only (by decide)

theorem keyClosed_kept {wired : Prop} {k : Key} {st : KeyState} : Kept wired s (keyClosed k st s) :=
  .after setCell_kept settleCrossing_kept

theorem keyClosed_cell {k : Key} {st : KeyState} (h : s.keys.cells.length = 13) :
    cellOf k (keyClosed k st s).keys = ⟨st, some (s.now + 20000), false⟩
      ∧ ∀ j, j ≠ k → cellOf j (keyClosed k st s).keys = cellOf j s.keys :=
  ⟨cellOf_setCell (s := settleCrossing k true s) k _ h, fun _ hj => cellOf_setCell_other (s := settleCrossing k true s) _ hj⟩

theorem pressKey_blocked {k : Key} (h : (cellOf k s.keys).state = .released) (ho : otherPressed k s.keys = true) :
    pressKey k (settleCrossing k true s) = keyClosed k .blocked s := by
  have hc : (cellOf k (settleCrossing k true s).keys).state = .released := h
  unfold pressKey
  rw [hc]
  exact if_pos ho

theorem pressKey_pressed {k : Key} (h : (cellOf k s.keys).state = .released) (ho : otherPressed k s.keys = false) :
    pressKey k (settleCrossing k true s) = deliverPress k (keyClosed k .pressed s) := by
  have hc : (cellOf k (settleCrossing k true s).keys).state = .released := h
  have hno : ¬ otherPressed k (settleCrossing k true s).keys = true := fun hx => absurd (hx.symm.trans ho) (by decide)
  unfold pressKey
  rw [hc]
  exact if_neg hno

theorem pressKey_closed {k : Key} (h : (cellOf k s.keys).state ≠ .released) :
    pressKey k (settleCrossing k true s) = settleCrossing k true s := by
  unfold pressKey
  have hc : (cellOf k (settleCrossing k true s).keys).state = (cellOf k s.keys).state := rfl
  rw [hc]
  cases hs : (cellOf k s.keys).state with
  | released => exact absurd hs h
  | pressed | blocked | stuck => rfl

/-- A step that posts nothing and leaves the credit view. -/
theorem finish_quiet {l : List Part} (hkept : Kept True s u) (h : OnlyChanges l s u) (hlink : u.link = s.link)
    (hl : ∀ p ∈ [Part.config, .rate, .call, .coin], p ∉ l) :
    LinkKept s (finish s u) ∧ Posted [] s (finish s u) ∧ OnlyChanges l s (finish s u) :=
  have hsilent := finish_silent hkept hlink (h .config (hl _ (by decide)))
    (congrArg RateBlock.phase (h .rate (hl _ (by decide)) : u.rate = s.rate)).symm
    (creditKey_of_only h (fun p hp => hl p (List.mem_cons_of_mem _ hp)))
  ⟨hsilent.1, hsilent.2.1, only_finish h⟩

theorem deliverPress_ignored {k : Key} (hk : k ≠ .followOn) (h : collecting s.keys.collection = false) :
    deliverPress k s = s := by
  have hno : ¬ collecting s.keys.collection = true := by rw [h]; decide
  unfold deliverPress
  cases k with
  | followOn => exact absurd rfl hk
  | digit | star | hash => exact if_neg hno

theorem followOnPress_ignored (h : s.call.state ≠ .connected ∨ openKind s ≠ .charged ∨ s.rate.phase = .grace) :
    followOnPress s = s := by
  refine if_neg ?_
  rintro ⟨h1, h2, h3⟩
  exact h.elim (fun hx => hx h1) (fun hx => hx.elim (fun hy => hy h2) (fun hy => h3 hy))

/-- R21: a press held. -/
def followOnHeld (s : State) : State := { s with call := { s.call with heldFollowOn := true } }

theorem followOnPress_acts (h1 : s.call.state = .connected) (h2 : openKind s = .charged) (h3 : s.rate.phase ≠ .grace) :
    followOnPress s = if s.rate.acct.due = 0 then followOnEnd s
      else followOnHeld s := if_pos ⟨h1, h2, h3⟩

/-! ### What each event does (O41) -/

theorem keyBlocked_effect {k : Key} (hlen : s.keys.cells.length = 13) :
    let t := finish s (keyClosed k .blocked s)
    cellOf k t.keys = ⟨.blocked, some (s.now + 20000), false⟩ ∧ (∀ j, j ≠ k → cellOf j t.keys = cellOf j s.keys)
      ∧ OnlyChanges [.keys, .pins, .samplers] s t ∧ Posted [] s t := by
  intro t
  obtain ⟨-, hposted, honly⟩ := finish_quiet (keyClosed_kept (k := k) (st := .blocked)) keyClosed_only rfl (by decide)
  obtain ⟨hcell, hother⟩ := keyClosed_cell (k := k) (st := .blocked) hlen
  have hkeys : t.keys = (keyClosed k .blocked s).keys := finish_keys ..
  rw [hkeys]
  exact ⟨hcell, hother, honly, hposted⟩

theorem keyPressed_effect {k : Key} (hlen : s.keys.cells.length = 13) :
    let t := finish s (deliverPress k (keyClosed k .pressed s))
    cellOf k t.keys = ⟨.pressed, some (s.now + 20000), false⟩ ∧ (∀ j, j ≠ k → cellOf j t.keys = cellOf j s.keys)
      ∧ (k ≠ .followOn → collecting s.keys.collection = false →
          OnlyChanges [.keys, .pins, .samplers] s t ∧ Posted [] s t
          ∧ t.keys.buffer = s.keys.buffer ∧ t.keys.collection = s.keys.collection)
      ∧ (k = .followOn → s.call.state ≠ .connected ∨ openKind s ≠ .charged ∨ s.rate.phase = .grace →
          OnlyChanges [.keys, .pins, .samplers] s t ∧ Posted [] s t)
      ∧ (k = .followOn → s.call.state = .connected → openKind s = .charged → s.rate.phase ≠ .grace →
          (0 < s.rate.acct.due → t.call = { s.call with heldFollowOn := true }
            ∧ OnlyChanges [.keys, .call, .pins, .samplers] s t ∧ Posted [] s t)
          ∧ ∀ sl, s.rate.acct.due = 0 → rating s = true → s.call.openSlot = some sl → s.call.closingSlot = none →
            s.call.atStart = [] → s.coin.run = .none → s.store.log.records.length < 64 →
            ∃ u, OnlyChanges [.keys, .pins, .samplers] s u ∧ LinkKept s u
              ∧ u.keys = { s.keys with cells := t.keys.cells } ∧ FollowOnEnded u t sl) := by
  intro t
  have hcells : t.keys.cells = (keyClosed k .pressed s).keys.cells :=
    (congrArg KeysBlock.cells (finish_keys s _)).trans deliverPress_cells
  have hsame (j : Key) : cellOf j t.keys = cellOf j (keyClosed k .pressed s).keys := by unfold cellOf; rw [hcells]
  obtain ⟨hcell, hother⟩ := keyClosed_cell (k := k) (st := .pressed) hlen
  obtain ⟨-, hposted, honly⟩ := finish_quiet (keyClosed_kept (s := s) (k := k) (st := .pressed)) keyClosed_only rfl (by decide)
  refine ⟨(hsame k).trans hcell, fun j hj => (hsame j).trans (hother j hj), fun hk hc => ?_, fun hk hf => ?_,
    fun hk hs hkind hp => ⟨fun hd => ?_, fun sl hd hr ho hclosing hstart hrun hlog => ?_⟩⟩
  · have hignored : deliverPress k (keyClosed k .pressed s) = keyClosed k .pressed s := deliverPress_ignored hk hc
    have hkeys : t.keys = (keyClosed k .pressed s).keys := by
      rw [← hignored]; exact finish_keys ..
    show OnlyChanges _ s (finish s (deliverPress k _)) ∧ Posted [] s (finish s (deliverPress k _)) ∧ _
    rw [hignored, hkeys]
    exact ⟨honly, hposted, rfl, rfl⟩
  · subst hk
    have hignored : deliverPress .followOn (keyClosed .followOn .pressed s) = keyClosed .followOn .pressed s :=
      followOnPress_ignored (s := keyClosed .followOn .pressed s) hf
    show OnlyChanges _ s (finish s (deliverPress .followOn _)) ∧ Posted [] s (finish s (deliverPress .followOn _))
    rw [hignored]
    exact ⟨honly, hposted⟩
  · subst hk
    have hheld : deliverPress .followOn (keyClosed .followOn .pressed s) = followOnHeld (keyClosed .followOn .pressed s) :=
      (followOnPress_acts (s := keyClosed .followOn .pressed s) hs hkind hp).trans (if_neg (Nat.ne_of_gt hd))
    have honly : OnlyChanges [.keys, .call, .pins, .samplers] s (followOnHeld (keyClosed .followOn .pressed s)) :=
      only_call (keyClosed_only.wider (by decide)) (by decide)
    have hsilent := finish_silent (s := s) (u := followOnHeld (keyClosed .followOn .pressed s))
      (.after (.of_call _) keyClosed_kept) rfl rfl rfl (creditKey_of_slots rfl rfl rfl rfl rfl)
    show (finish s (deliverPress .followOn _)).call = _ ∧ OnlyChanges _ s (finish s (deliverPress .followOn _))
      ∧ Posted [] s (finish s (deliverPress .followOn _))
    rw [hheld]
    exact ⟨finish_call .., only_finish honly, hsilent.2.1⟩
  · subst hk
    have hends : deliverPress .followOn (keyClosed .followOn .pressed s) = followOnEnd (keyClosed .followOn .pressed s) :=
      (followOnPress_acts (s := keyClosed .followOn .pressed s) hs hkind hp).trans (if_pos hd)
    obtain ⟨hinactive, hended⟩ := rating_phase hr
    refine ⟨keyClosed .followOn .pressed s, keyClosed_only, linkKept_of_link rfl, ?_, ?_⟩
    · rw [hcells]; rfl
    · show FollowOnEnded _ (finish s (deliverPress .followOn _)) sl
      rw [hends]
      exact followOnEnded ⟨ho, hclosing, hstart, hrun, hlog, hinactive, hended⟩

theorem releaseKey_released {k : Key} (h : (cellOf k s.keys).state = .released) : releaseKey k s = s := by
  unfold releaseKey; rw [h]

theorem releaseKey_other {k : Key} (h : (cellOf k s.keys).state ≠ .released) : releaseKey k s =
    if (keyStuckHeld s.keys && !keyStuckHeld (setCell k {} s).keys) = true then endCondition .keyStuck (setCell k {} s)
    else setCell k {} s := by
  unfold releaseKey
  cases hs : (cellOf k s.keys).state with
  | released => exact absurd hs h
  | pressed | blocked | stuck => rfl

theorem keyRelease_effect {k : Key} :
    let t := finish s (releaseKey k (settleCrossing k false s))
    LinkKept s t
      ∧ ((cellOf k s.keys).state ≠ .released →
          t.keys = { s.keys with cells := s.keys.cells.set (keyIndex k) ⟨.released, none, false⟩ }
          ∧ t.incd = (if keyStuckHeld s.keys = true ∧ keyStuckHeld t.keys = false then (endCondition .keyStuck s).incd
              else s.incd)
          ∧ OnlyChanges [.keys, .pins, .samplers, .incd] s t)
      ∧ ((cellOf k s.keys).state = .released → t.keys = s.keys ∧ OnlyChanges [.pins, .samplers] s t) := by
  intro t
  refine ⟨linkKept_of_kept (.after releaseKey_kept settleCrossing_kept), fun h => ?_, fun h => ?_⟩
  · have hreleased := releaseKey_other (s := settleCrossing k false s) h
    have honly : OnlyChanges [.keys, .pins, .samplers, .incd] s (releaseKey k (settleCrossing k false s)) :=
      (settleCrossing_only.wider (by decide)).step releaseKey_only (by decide)
    have hkeys : t.keys = (setCell k {} (settleCrossing k false s)).keys := by
      refine (finish_keys ..).trans ?_
      rw [hreleased]
      split
      · exact endCondition_only .keys (by decide)
      · rfl
    have hincd : t.incd = (releaseKey k (settleCrossing k false s)).incd := finish_incd ..
    refine ⟨hkeys, ?_, only_finish honly⟩
    rw [hincd, hkeys, hreleased]
    have hiff : (keyStuckHeld (settleCrossing k false s).keys
          && !keyStuckHeld (setCell k {} (settleCrossing k false s)).keys) = true
        ↔ keyStuckHeld s.keys = true ∧ keyStuckHeld (setCell k {} (settleCrossing k false s)).keys = false := by
      rw [Bool.and_eq_true, Bool.not_eq_true']
      rfl
    by_cases hc : keyStuckHeld s.keys = true ∧ keyStuckHeld (setCell k {} (settleCrossing k false s)).keys = false
    · rw [if_pos (hiff.2 hc), if_pos hc]
      exact endCondition_incd rfl
    · rw [if_neg (fun hx => hc (hiff.1 hx)), if_neg hc]
      rfl
  · have hstays := releaseKey_released (s := settleCrossing k false s) h
    have hthe : t = finish s (settleCrossing k false s) := by rw [← hstays]
    rw [hthe]
    exact ⟨finish_keys .., only_finish settleCrossing_only⟩

/-- R26: the key's new state at the expiry of its stuck timer. -/
def keyStuck (k : Key) (s : State) : State :=
  setCell k { cellOf k s.keys with state := .stuck, stuckTimer := none } s

theorem stickKey_eq {k : Key} (h : (cellOf k s.keys).state = .pressed ∨ (cellOf k s.keys).state = .blocked) :
    stickKey k s = countOccurrence .keyStuck (keyStuck k s) := by
  unfold stickKey keyStuck
  dsimp only
  obtain h | h := h
  · rw [h]
  · rw [h]

theorem stuckTimer_effect {k : Key} {d : Nat} (hlen : s.keys.cells.length = 13)
    (h : (cellOf k s.keys).state = .pressed ∨ (cellOf k s.keys).state = .blocked) :
    let t := finish s (stickKey k (reach (some d) s))
    LinkKept s t ∧ t.now = max s.now d
      ∧ cellOf k t.keys = { cellOf k s.keys with state := .stuck, stuckTimer := none }
      ∧ (∀ j, j ≠ k → cellOf j t.keys = cellOf j s.keys) ∧ t.incd = (countOccurrence .keyStuck s).incd
      ∧ OnlyChanges [.now, .keys, .incd] s t := by
  intro t
  have hstuck := stickKey_eq (s := reach (some d) s) h
  have hkeys : t.keys = (keyStuck k (reach (some d) s)).keys := by
    refine (finish_keys ..).trans ?_
    rw [hstuck]
    exact countOccurrence_only .keys (by decide)
  have hincd : t.incd = (countOccurrence .keyStuck s).incd := by
    refine (finish_incd ..).trans ?_
    rw [hstuck]
    exact countOccurrence_incd_of rfl rfl
  have honly : OnlyChanges [.now, .keys, .incd] s (stickKey k (reach (some d) s)) :=
    (only_reach.wider (by decide)).step stickKey_only (by decide)
  rw [hkeys]
  exact ⟨linkKept_of_kept (.after stickKey_kept reach_kept), (finish_now ..).trans (stickKey_only .now (by decide)),
    cellOf_setCell (s := reach (some d) s) k _ hlen, fun _ hj => cellOf_setCell_other (s := reach (some d) s) _ hj, hincd,
    only_finish honly⟩

theorem settled_effect {k : Key} :
    let t := finish s (settleCrossing k true s)
    t.keys = s.keys ∧ OnlyChanges [.pins, .samplers] s t ∧ Posted [] s t :=
  have hquiet := finish_quiet (settleCrossing_kept (s := s) (k := k) (b := true)) settleCrossing_only rfl (by decide)
  ⟨finish_keys .., hquiet.2.2, hquiet.2.1⟩

end Sys2Proof.Machine

open Sys2Proof Sys2Proof.Machine

/-- Settles O41: a key's cell is set, and a press is delivered after that; a FOLLOW-ON end is `followOnEnded`. -/
theorem keysPressBlockStickAndRelease : Obligations.KeysPressBlockStickAndRelease := by
  intro k s ha hr hlen
  refine ⟨⟨_, exec_keyPress ha hr, linkKept_of_kept (.after pressKey_kept settleCrossing_kept), fun hc ho => ?_, fun hc ho => ?_,
    fun hc => ?_⟩, ⟨_, exec_keyRelease ha hr, keyRelease_effect⟩, fun d hd hc => ⟨_, exec_stuckTimerExpiry ha hd,
      stuckTimer_effect hlen hc⟩⟩
  · rw [pressKey_blocked hc ho]
    exact keyBlocked_effect hlen
  · rw [pressKey_pressed hc ho]
    exact keyPressed_effect hlen
  · rw [pressKey_closed hc]
    exact settled_effect

end

section
/-! A dialled symbol, a completed number, and what CALL makes of it (O42). -/

namespace Sys2Proof.Machine

variable {s t u v : State}

/-! ### The best match (R34) -/

theorem leads_iff (p l : List Symbol) : leads p l = true ↔ p <+: l := by
  induction p generalizing l with
  | nil => simp [leads]
  | cons x xs ih =>
    cases l with
    | nil => simp [leads]
    | cons y ys => simp [leads, ih, List.cons_prefix_cons]

theorem bestMatch_none (buffer : List Symbol) (table : List TableEntry) :
    bestMatch buffer table = none ↔ ∀ e ∈ table, leads e.digits buffer = false := by
  induction table with
  | nil => simp [bestMatch]
  | cons e es ih =>
    cases h : leads e.digits buffer with
    | true => simp [bestMatch, h]
    | false => simp [bestMatch, h, ih]

theorem bestMatch_some {buffer : List Symbol} {table : List TableEntry} {m : TableEntry}
    (h : bestMatch buffer table = some m) : m ∈ table ∧ m.digits <+: buffer
      ∧ ∀ e ∈ table, e.digits <+: buffer → e.digits.length ≤ m.digits.length := by
  induction table generalizing m with
  | nil => cases h
  | cons e es ih =>
    cases hl : leads e.digits buffer with
    | false =>
      have hrest : bestMatch buffer es = some m := by rw [bestMatch, hl] at h; exact h
      obtain ⟨hmem, hprefix, hmax⟩ := ih hrest
      refine ⟨List.mem_cons_of_mem e hmem, hprefix, fun e' he' hp => ?_⟩
      obtain rfl | he' := List.mem_cons.1 he'
      · exact absurd ((leads_iff ..).2 hp) (by rw [hl]; decide)
      · exact hmax e' he' hp
    | true =>
      have hthe : longer e (bestMatch buffer es) = m := by
        rw [bestMatch, hl] at h; exact Option.some.inj h
      have hlead : e.digits <+: buffer := (leads_iff ..).1 hl
      cases hb : bestMatch buffer es with
      | none =>
        rw [hb] at hthe
        obtain rfl : e = m := hthe
        refine ⟨List.mem_cons_self, hlead, fun e' he' hp => ?_⟩
        obtain rfl | he' := List.mem_cons.1 he'
        · exact Nat.le_refl _
        · exact absurd ((leads_iff ..).2 hp) (by rw [(bestMatch_none ..).1 hb e' he']; decide)
      | some n =>
        obtain ⟨hmem, hprefix, hmax⟩ := ih hb
        rw [hb] at hthe
        unfold longer at hthe
        dsimp only at hthe
        by_cases hlt : n.digits.length < e.digits.length
        · rw [if_pos hlt] at hthe
          obtain rfl := hthe
          refine ⟨List.mem_cons_self, hlead, fun e' he' hp => ?_⟩
          obtain rfl | he' := List.mem_cons.1 he'
          · exact Nat.le_refl _
          · exact Nat.le_trans (hmax e' he' hp) (Nat.le_of_lt hlt)
        · rw [if_neg hlt] at hthe
          obtain rfl := hthe
          refine ⟨List.mem_cons_of_mem e hmem, hprefix, fun e' he' hp => ?_⟩
          obtain rfl | he' := List.mem_cons.1 he'
          · exact Nat.not_lt.1 hlt
          · exact hmax e' he' hp

/-! ### The line requested (R11) -/

theorem unsendable_symbols (m : SendingMethod) (l : List Symbol) :
    unsendable m (l.map Symbol.dtmf) = true ↔ m = .loopPulse ∧ Symbol.star ∈ l := by
  have hany : (l.map Symbol.dtmf).any (fun x => match x with | .digit _ => false | _ => true) = true
      ↔ Symbol.star ∈ l := by
    induction l with
    | nil => simp
    | cons x xs ih => cases x <;> simp_all [Symbol.dtmf]
  unfold unsendable
  rw [Bool.and_eq_true, decide_eq_true_iff]
  exact and_congr_right' hany

/-- R11: a request that can be sent is a change of CALL's state, after what it makes of LINE and RPT. -/
theorem lineRequest_cases (hs : s.call.state ≠ .waitLine)
    (hd : unsendable s.config.sendingMethod (s.keys.buffer.map Symbol.dtmf) = false) :
    (s.line.owner = .rpt ∧ lineRequest s = setCallState .waitLine (abortAttempt .lineRequest s))
      ∨ (s.line.owner ≠ .rpt ∧ s.line.state = .free
        ∧ lineRequest s = setCallState .seizing (seize .call (s.keys.buffer.map Symbol.dtmf) s))
      ∨ (s.line.owner ≠ .rpt ∧ s.line.state ≠ .free ∧ lineRequest s = setCallState .waitLine s) := by
  unfold lineRequest
  by_cases ho : s.line.owner = .rpt
  · exact .inl ⟨ho, if_pos ho⟩
  · rw [if_neg ho]
    cases hl : s.line.state with
    | free =>
      rw [requestSeizure_free hl hd]
      exact .inr (.inl ⟨ho, rfl, rfl⟩)
    | guard | seizedWaitTone | sending | seized =>
      refine .inr (.inr ⟨ho, nofun, ?_⟩)
      unfold requestSeizure
      rw [hl]
      exact if_neg hs

/-- R11: what a request leaves of the call, and the line it has asked for. -/
theorem lineRequest_keeps (hs : s.call.state ≠ .waitLine)
    (hd : unsendable s.config.sendingMethod (s.keys.buffer.map Symbol.dtmf) = false) :
    (lineRequest s).call.openSlot = s.call.openSlot ∧ (lineRequest s).call.level = s.call.level
      ∧ (lineRequest s).keys = s.keys := by
  have htold {st : CallState} {x : State} (hst : callExists st = true) (h : OnlyChanges [.line, .rpt, .start, .incd] s x) :
      (setCallState st x).call.openSlot = s.call.openSlot ∧ (setCallState st x).call.level = s.call.level
        ∧ (setCallState st x).keys = s.keys := by
    have hcall : x.call = s.call := h .call (by decide)
    have hkeys : (setCallState st x).keys = x.keys := (setCallState_notifies st x).same .keys
    rw [(setCallState_notifies st x).same .call, hkeys]
    have hlevel : levelIn st x.call.level = x.call.level := if_pos hst
    exact ⟨(congrArg CallBlock.openSlot hcall : x.call.openSlot = _), hlevel.trans (congrArg CallBlock.level hcall), h .keys (by decide)⟩
  obtain ⟨-, h⟩ | ⟨-, -, h⟩ | ⟨-, -, h⟩ := lineRequest_cases hs hd
  · rw [h]; exact htold rfl (abortAttempt_only.wider (by decide))
  · rw [h]; exact htold rfl (seize_only.wider (by decide))
  · rw [h]; exact htold rfl .refl

theorem seize_read {o : Owner} {d : List Dtmf} (h : s.store.start.voltageRead = true) :
    OnlyChanges [.line] s (seize o d s) := by
  unfold seize
  rw [abandonVoltageReading_read h]
  exact only_line .refl (by decide)

theorem inState_notifies {st : CallState} {w : State} (h : Notifies (setCallState st s) w) : Notifies (inState st s) w :=
  (setCallState_notifies st s).trans h

/-- R11: the request, stated from the state before CALL's and KEYS' own changes. -/
theorem lineRequested {s0 w : State} (h : OnlyChanges [.call, .keys] u v) (hb : v.keys.buffer = u.keys.buffer)
    (hrpt : v.rpt = u.rpt) (hs : v.call.state ≠ .waitLine)
    (hd : unsendable v.config.sendingMethod (v.keys.buffer.map Symbol.dtmf) = false)
    (hw : Notifies (lineRequest v) w) : LineRequested u (finish s0 w) := by
  have hline : v.line = u.line := h .line (by decide)
  have hnow : v.now = u.now := h .now (by decide)
  have hconfig : v.config = u.config := h .config (by decide)
  have hstart : v.store.start = u.store.start := h .start (by decide)
  have hcases := lineRequest_cases hs hd
  rw [hline] at hcases
  refine ⟨fun hf ho hr => ?_, fun hg ho => ?_, fun ho ha => ?_⟩
  · have hnot : ¬ u.line.owner = .rpt := by rw [ho]; decide
    obtain ⟨hx, -⟩ | ⟨-, -, hreq⟩ | ⟨-, hx, -⟩ := hcases
    · exact absurd hx hnot
    · rw [hreq] at hw
      have hn := inState_notifies hw
      have hseized : (finish s0 w).line = (seize .call (v.keys.buffer.map Symbol.dtmf) v).line :=
        (finish_line ..).trans (hn.same .line)
      have hcall : (finish s0 w).call = (inState .seizing (seize .call (v.keys.buffer.map Symbol.dtmf) v)).call :=
        (finish_call ..).trans (hn.same .call)
      have honly : OnlyChanges [.call, .keys, .line] u (inState .seizing (seize .call (v.keys.buffer.map Symbol.dtmf) v)) :=
        ((h.wider (by decide)).step (seize_read (by rw [hstart]; exact hr)) (by decide)).step inState_only (by decide)
      obtain ⟨hstate, howner, hdigits, htimer⟩ := seize_line .call (v.keys.buffer.map Symbol.dtmf) v
      rw [hcall, hseized, hdigits, htimer, hb, hnow, hconfig]
      exact ⟨rfl, hstate, howner, rfl, rfl, only_finish (honly.step hn.only (List.nil_subset _))⟩
    · exact absurd hf hx
  · have hnot : ¬ u.line.owner = .rpt := by rw [ho]; decide
    obtain ⟨hx, -⟩ | ⟨-, hx, -⟩ | ⟨-, -, hreq⟩ := hcases
    · exact absurd hx hnot
    · exact absurd (hx.symm.trans hg) (by decide)
    · rw [hreq] at hw
      have hn := inState_notifies hw
      have hcall : (finish s0 w).call = (inState .waitLine v).call := (finish_call ..).trans (hn.same .call)
      rw [hcall]
      exact ⟨rfl, only_finish ((h.step inState_only (by decide)).step hn.only (List.nil_subset _))⟩
  · obtain ⟨-, hreq⟩ | ⟨hx, -⟩ | ⟨hx, -⟩ := hcases
    · rw [hreq] at hw
      have habort := abortAttempt_notifies (s := v) .lineRequest (by rw [hrpt]; exact ha)
      have hn : Notifies (inState .waitLine (aborted v)) w :=
        (habort.update (inState .waitLine) rfl (fun _ => rfl)).trans (inState_notifies hw)
      have hcall : (finish s0 w).call = (inState .waitLine (aborted v)).call := (finish_call ..).trans (hn.same .call)
      have hreleased : (release v).line = (release u).line := release_line_of hline hnow (h .pins (by decide))
      have honly : OnlyChanges [.call, .keys, .line, .rpt] u (inState .waitLine (aborted v)) :=
        ((h.wider (by decide)).step aborted_only (by decide)).step inState_only (by decide)
      have hwrpt : w.rpt = abortedRpt v := by obtain ⟨l, -, rfl⟩ := hn; rfl
      obtain ⟨hno, hblocks, hfailures, hbackoff⟩ := aborted_finish (s0 := s0) hwrpt
      rw [hcall]
      refine ⟨rfl, ((finish_line ..).trans (hn.same .line)).trans hreleased, hno, hblocks, ?_, ?_,
        only_finish (honly.step hn.only (List.nil_subset _))⟩
      · rw [hfailures, hrpt]
      · rw [hbackoff, hrpt]
    · exact absurd ho hx
    · exact absurd ho hx

/-! ### The number completed (R5, R9, R10) -/

/-- R9: the completed number in CALL, with the level computed anew. -/
def numberTaken (k : NumberKind) (cls : Option Nat) (sl : Slot) (s : State) : State :=
  { s with
    call := { s.call with
      level := some (serviceLevel s), openSlot := some (sl.modify (fun r => { r with kind := k, cls := cls })) }
    keys := keysDone s.keys }

theorem numberTaken_only {k : NumberKind} {cls : Option Nat} {sl : Slot} :
    OnlyChanges [.call, .keys] s (numberTaken k cls sl s) := by
  intro p hp
  cases p
  case clock => exact ⟨rfl, rfl⟩
  case call | keys => exact absurd (by decide) hp
  all_goals rfl

theorem numberComplete_taken {k : NumberKind} {cls : Option Nat} {sl : Slot} (hs : s.call.state = .collecting)
    (ho : s.call.openSlot = some sl) :
    numberComplete k cls (keysStop s) = checkNumber k (serviceLevel s) (numberTaken k cls sl s) := by
  have hc : (keysStop s).call.state = .collecting := hs
  unfold numberComplete modifyOpen
  rw [if_pos hc]
  have hopen : (keysStop s).call.openSlot = some sl := ho
  dsimp only
  rw [hopen]
  rfl

theorem honours_iff (l : ServiceLevel) (k : NumberKind) : honours l k = true
    ↔ k = .emergency ∨ (k = .free ∧ l ≠ .emergencyOnly) ∨ (k = .charged ∧ l = .full) := by
  cases k <;> simp [honours]

/-- R9: the two tests that bar a number. -/
def numberBars (k : NumberKind) (s : State) : Prop :=
  (s.config.sendingMethod = .loopPulse ∧ Symbol.star ∈ s.keys.buffer) ∨ k = .barred

theorem checkNumber_bars {k : NumberKind} {l : ServiceLevel} (h : numberBars k s) :
    checkNumber k l s = endCall .barred s.now s := by
  have hcontains : s.keys.buffer.contains .star = true ↔ Symbol.star ∈ s.keys.buffer := List.contains_iff_mem
  unfold checkNumber
  by_cases hp : s.config.sendingMethod = .loopPulse ∧ s.keys.buffer.contains .star = true
  · rw [if_pos hp]
  · rw [if_neg hp, if_pos (h.resolve_left fun hx => hp ⟨hx.1, hcontains.2 hx.2⟩)]

theorem checkNumber_sends {k : NumberKind} {l : ServiceLevel} (h : ¬ numberBars k s) : checkNumber k l s =
    if honours l k = false then endCall .refused s.now s
    else if k = .charged then depositCheck s else lineRequest s := by
  have hcontains : s.keys.buffer.contains .star = true ↔ Symbol.star ∈ s.keys.buffer := List.contains_iff_mem
  unfold checkNumber
  rw [if_neg fun hx => h (.inl ⟨hx.1, hcontains.1 hx.2⟩), if_neg fun hx => h (.inr hx)]

theorem sendable_of_not_bars {k : NumberKind} (h : ¬ numberBars k s) :
    unsendable s.config.sendingMethod (s.keys.buffer.map Symbol.dtmf) = false := by
  cases hu : unsendable s.config.sendingMethod (s.keys.buffer.map Symbol.dtmf) with
  | false => rfl
  | true => exact absurd (.inl ((unsendable_symbols ..).1 hu)) h

/-- What a step posts after a call's end leaves the end as it is. -/
theorem CallEnded.of_body {c : EndCause} {n : Nat} {sl : Slot} (g : CallEnded c n u t sl) (h : v.body = t.body)
    (hlink : LinkKept u v) : CallEnded c n u v sl := by
  obtain ⟨glog, gopen, gstate, glevel, gkeys, gline, gcoin, gonly, -⟩ := g
  have hcall : v.call = t.call := same_of_body h .call
  refine ⟨(same_of_body h .log).trans glog, ?_, ?_, ?_, (same_of_body h .keys).trans gkeys,
    (same_of_body h .line).trans gline, (same_of_body h .coin).trans gcoin,
    gonly.step (only_of_body (l := []) h) (List.nil_subset _), hlink⟩
  · rw [hcall]; exact gopen
  · rw [hcall]; exact gstate
  · rw [hcall]; exact glevel

theorem numberEnded {c : EndCause} {k : NumberKind} {cls : Option Nat} {sl : Slot} {s0 w : State} (hb : BareCall u sl)
    (hw : Notifies (endCall c u.now (numberTaken k cls sl u)) w) (hlink : LinkKept u (finish s0 w)) :
    CallEnded c u.now u (finish s0 w) (sl.modify (fun r => { r with kind := k, cls := cls })) := by
  obtain ⟨ho, hclosing, hstart, hrest⟩ := hb
  have hbare : BareCall (numberTaken k cls sl u) (sl.modify (fun r => { r with kind := k, cls := cls })) :=
    ⟨rfl, hclosing, hstart, hrest⟩
  have hended := (callEnded_bare (c := c) (at_ := u.now) (s0 := s0) hbare).before numberTaken_only rfl
    (linkKept_of_kept (.after endCall_kept (.after (.of_call _) keysStop_kept)))
  exact hended.of_body (((finish_body ..).trans hw.body).trans (finish_body ..).symm) hlink

/-- R10: the initial charge and one step, as the call stands at the completion. -/
def depositOf (cls : Option Nat) (s : State) : Nat :=
  (((activeBank s).bind (fun n => cls.bind (fun c => priceIn s n c))).map Price.initial).getD 0 + s.config.chargeStep

theorem minimumDeposit_taken {k : NumberKind} {cls : Option Nat} {sl : Slot} :
    minimumDeposit (numberTaken k cls sl s) = depositOf cls s := by
  have hcls : openCls (numberTaken k cls sl s) = cls := by
    unfold openCls numberTaken; rfl
  have hactive : activeBank (numberTaken k cls sl s) = activeBank s := rfl
  unfold minimumDeposit depositOf
  rw [hcls, hactive]
  cases activeBank s with
  | none => rfl
  | some n => cases cls <;> rfl

/-- R10: the deposit fixed in CALL. -/
def depositFixed (d : Nat) (s : State) : State := { s with call := { s.call with deposit := d } }

theorem depositCheck_eq (s : State) : depositCheck s =
    if depositCovered (depositFixed (minimumDeposit s) s) = true then lineRequest (depositFixed (minimumDeposit s) s)
    else setCallState .awaitDeposit { depositFixed (minimumDeposit s) s with call :=
      { (depositFixed (minimumDeposit s) s).call with depositTimer := some (s.now + s.config.depositWait * 1000) } } := rfl

theorem depositCovered_taken {k : NumberKind} {cls : Option Nat} {sl : Slot} {d : Nat} :
    depositCovered (depositFixed d (numberTaken k cls sl s)) = true ↔ d ≤ sl.record.carriedIn + callE s := by
  unfold depositCovered
  rw [decide_eq_true_iff]
  rfl

/-- R10: a deposit awaited. -/
def depositAwaited (d : Nat) (s : State) : State :=
  { s with call := { s.call with deposit := d, depositTimer := some (s.now + s.config.depositWait * 1000) } }

/-- R11: a request made for a completed number. -/
theorem numberRequested {l : ServiceLevel} {sl : Slot} {s0 w : State} (h : OnlyChanges [.call, .keys] u v)
    (hk : v.keys = keysDone u.keys) (hrpt : v.rpt = u.rpt) (hs : v.call.state = .collecting)
    (ho : v.call.openSlot = some sl) (hl : v.call.level = some l)
    (hd : unsendable v.config.sendingMethod (v.keys.buffer.map Symbol.dtmf) = false)
    (hw : Notifies (lineRequest v) w) :
    (finish s0 w).call.openSlot = some sl ∧ (finish s0 w).call.level = some l ∧ (finish s0 w).keys = keysDone u.keys
      ∧ LineRequested u (finish s0 w) := by
  have hnot : v.call.state ≠ .waitLine := by rw [hs]; decide
  obtain ⟨hopen, hlevel, hkeys⟩ := lineRequest_keeps hnot hd
  have hcall : (finish s0 w).call = (lineRequest v).call := (finish_call ..).trans (hw.same .call)
  rw [hcall, hopen, hlevel]
  exact ⟨ho, hl, ((finish_keys ..).trans (hw.same .keys)).trans (hkeys.trans hk),
    lineRequested h (by rw [hk]; rfl) hrpt hnot hd hw⟩

/-- R5, R9 to R11, R37: what the call makes of a completed number. -/
theorem numberDone {k : NumberKind} {cls : Option Nat} {sl : Slot} {s0 w : State} (hs : u.call.state = .collecting)
    (ho : u.call.openSlot = some sl) (hw : Notifies (numberComplete k cls (keysStop u)) w)
    (hlink : LinkKept u (finish s0 w)) : NumberDone k cls u (finish s0 w) sl := by
  rw [numberComplete_taken hs ho] at hw
  have hhonours := honours_iff (serviceLevel u) k
  refine ⟨fun hbars hb => ?_, fun hbars hno hb => ?_, fun hbars hh => ?_⟩
  · rw [checkNumber_bars (s := numberTaken k cls sl u) hbars] at hw
    exact numberEnded hb hw hlink
  · rw [checkNumber_sends (s := numberTaken k cls sl u) hbars, if_pos (Bool.eq_false_iff.2 fun hx => hno (hhonours.1 hx))] at hw
    exact numberEnded hb hw hlink
  · rw [checkNumber_sends (s := numberTaken k cls sl u) hbars, if_neg (by rw [hhonours.2 hh]; decide)] at hw
    have hsend : unsendable u.config.sendingMethod (u.keys.buffer.map Symbol.dtmf) = false :=
      sendable_of_not_bars (s := numberTaken k cls sl u) hbars
    by_cases hk : k = .charged
    · rw [if_pos hk, depositCheck_eq, minimumDeposit_taken] at hw
      have hfixed : OnlyChanges [.call, .keys] u (depositFixed (depositOf cls u) (numberTaken k cls sl u)) :=
        only_call numberTaken_only (by decide)
      by_cases hc : depositOf cls u ≤ sl.record.carriedIn + callE u
      · rw [if_pos (depositCovered_taken.2 hc)] at hw
        obtain ⟨hopen, hlevel, hkeys, hrequested⟩ := numberRequested (s0 := s0) hfixed rfl rfl hs rfl rfl hsend hw
        exact ⟨hopen, hlevel, hlink, hkeys, fun hx => absurd (.inr hc) hx, fun _ => hrequested⟩
      · rw [if_neg (fun hx => hc (depositCovered_taken.1 hx))] at hw
        have hn : Notifies (inState .awaitDeposit (depositAwaited (depositOf cls u) (numberTaken k cls sl u))) w :=
          inState_notifies hw
        have hcall : (finish s0 w).call =
            (inState .awaitDeposit (depositAwaited (depositOf cls u) (numberTaken k cls sl u))).call :=
          (finish_call ..).trans (hn.same .call)
        have hawaited : OnlyChanges [.call, .keys] u (depositAwaited (depositOf cls u) (numberTaken k cls sl u)) :=
          only_call numberTaken_only (by decide)
        rw [hcall]
        refine ⟨rfl, rfl, hlink, (finish_keys ..).trans (hn.same .keys), fun _ => ⟨rfl, rfl, rfl, rfl, ?_⟩,
          fun hx => absurd hx (fun hy => hy.elim (fun hz => hz hk) hc)⟩
        exact only_finish ((hawaited.step inState_only (by decide)).step hn.only (List.nil_subset _))
    · rw [if_neg hk] at hw
      obtain ⟨hopen, hlevel, hkeys, hrequested⟩ := numberRequested (s0 := s0) numberTaken_only rfl rfl hs rfl rfl hsend hw
      exact ⟨hopen, hlevel, hlink, hkeys, fun hx => absurd (.inl hk) hx, fun _ => hrequested⟩

/-! ### A symbol stored (R30, R35) -/

/-- R9, R30: the symbol in the buffer, and READY silenced. -/
def symbolStored (x : Symbol) (s : State) : State :=
  { s with
    call := { s.call with earpiece := .silent }
    keys := { s.keys with
      buffer := s.keys.buffer ++ [x], collection := .collectingDigits, firstDigitTimer := none
      interDigitTimer := some (s.now + s.config.interDigit * 1000) } }

/-- KEYS' block with a best match. -/
def withBest (m : Option TableEntry) (s : State) : State := { s with keys := { s.keys with best := m } }

theorem storeSymbol_stores {x : Symbol} (hl : s.keys.buffer.length < 24) (hs : s.call.state = .collecting) :
    storeSymbol x s = analyseStored (symbolStored x s) := by
  unfold storeSymbol symbolTold
  rw [if_pos hl, if_pos (by exact hs)]
  rfl

theorem storeSymbol_full {x : Symbol} (hl : 24 ≤ s.keys.buffer.length) : storeSymbol x s = s :=
  if_neg (Nat.not_lt.2 hl)

theorem isEmergency_stored (x : Symbol) (s : State) :
    isEmergency (symbolStored x s) = true ↔ s.keys.buffer ++ [x] ∈ s.config.emergency := by
  unfold isEmergency
  show s.config.emergency.any (fun e => !e.isEmpty && decide (e = s.keys.buffer ++ [x])) = true ↔ _
  rw [List.any_eq_true]
  constructor
  · rintro ⟨e, he, hx⟩
    rw [Bool.and_eq_true, decide_eq_true_iff] at hx
    exact hx.2 ▸ he
  · exact fun he => ⟨_, he, by simp⟩

theorem analyseStored_emergency (h : isEmergency s = true) :
    analyseStored s = complete .emergency none (withBest none s) := if_pos h

theorem analyseStored_other (h : isEmergency s = false) : analyseStored s =
    match analyse s with
    | some m =>
      if completesAtMax m s.keys.buffer.length = true then complete m.kind.number (some m.cls) (withBest (analyse s) s)
      else post .dialled (dialledNotice false (withBest (analyse s) s)) (withBest (analyse s) s)
    | none => post .dialled (dialledNotice false (withBest (analyse s) s)) (withBest (analyse s) s) :=
  if_neg (by rw [h]; decide)

theorem analyseStored_waits (h : isEmergency s = false)
    (hm : ∀ m, analyse s = some m → completesAtMax m s.keys.buffer.length = false) :
    analyseStored s = post .dialled (dialledNotice false (withBest (analyse s) s)) (withBest (analyse s) s) := by
  rw [analyseStored_other h]
  cases ha : analyse s with
  | none => rfl
  | some m => exact if_neg (by rw [hm m ha]; decide)

theorem analyseStored_completes {m : TableEntry} (h : isEmergency s = false) (hm : analyse s = some m)
    (hc : completesAtMax m s.keys.buffer.length = true) :
    analyseStored s = complete m.kind.number (some m.cls) (withBest (some m) s) := by
  rw [analyseStored_other h, hm]
  exact if_pos hc

theorem completesAtMax_iff (m : TableEntry) (n : Nat) :
    completesAtMax m n = true ↔ m.kind ≠ .barred ∧ m.maxLen ≤ n := by
  unfold completesAtMax
  rw [Bool.and_eq_true, decide_eq_true_iff, decide_eq_true_iff]

theorem complete_notifies {k : NumberKind} {cls : Option Nat} :
    Notifies (numberComplete k cls (keysStop u)) (complete k cls u) := notifies_post ..

theorem completeDone {k : NumberKind} {cls : Option Nat} {sl : Slot} {s0 : State} (hs : u.call.state = .collecting)
    (ho : u.call.openSlot = some sl) : NumberDone k cls u (finish s0 (complete k cls u)) sl :=
  numberDone hs ho complete_notifies (linkKept_of_kept complete_kept)

theorem symbolStored_only {x : Symbol} : OnlyChanges [.keys, .call] s (symbolStored x s) := by
  intro p hp
  cases p
  case clock => exact ⟨rfl, rfl⟩
  case keys | call => exact absurd (by decide) hp
  all_goals rfl

theorem withBest_only {m : Option TableEntry} : OnlyChanges [.keys] s (withBest m s) := only_keys .refl (by decide)

/-! ### What each event does (O42) -/

theorem deliverPress_symbol (x : Symbol) (h : collecting s.keys.collection = true) :
    deliverPress (symbolKey x) s = storeSymbol x s := by
  unfold deliverPress symbolKey
  cases x with
  | digit d => exact if_pos h
  | star => exact if_pos h

/-- The state in which the symbol's key is PRESSED and the symbol stored, before the analysis. -/
def symbolTaken (x : Symbol) (s : State) : State := symbolStored x (keyClosed (symbolKey x) .pressed s)

theorem symbolTaken_only {x : Symbol} {m : Option TableEntry} :
    OnlyChanges [.keys, .call, .pins, .samplers] s (withBest m (symbolTaken x s)) :=
  ((keyClosed_only.wider (by decide)).step symbolStored_only (by decide)).step withBest_only (by decide)

theorem deliverPress_taken {x : Symbol} (h : collecting s.keys.collection = true) :
    deliverPress (symbolKey x) (keyClosed (symbolKey x) .pressed s) =
      storeSymbol x (keyClosed (symbolKey x) .pressed s) :=
  deliverPress_symbol (s := keyClosed (symbolKey x) .pressed s) x h

theorem storeSymbol_taken {x : Symbol} (hl : s.keys.buffer.length < 24) (hs : s.call.state = .collecting) :
    storeSymbol x (keyClosed (symbolKey x) .pressed s) = analyseStored (symbolTaken x s) :=
  storeSymbol_stores (s := keyClosed (symbolKey x) .pressed s) hl hs

theorem isEmergency_taken {x : Symbol} (h : s.keys.buffer ++ [x] ∉ s.config.emergency) :
    isEmergency (symbolTaken x s) = false := by
  have hno : ¬ isEmergency (symbolTaken x s) = true := fun hx =>
    h ((isEmergency_stored x (keyClosed (symbolKey x) .pressed s)).mp hx)
  exact Bool.eq_false_iff.mpr hno

theorem symbolFull_effect {x : Symbol} (hl : 24 ≤ s.keys.buffer.length) :
    let t := finish s (storeSymbol x (keyClosed (symbolKey x) .pressed s))
    OnlyChanges [.keys, .pins, .samplers] s t ∧ t.keys.buffer = s.keys.buffer
      ∧ t.keys.interDigitTimer = s.keys.interDigitTimer ∧ Posted [] s t := by
  rw [storeSymbol_full (s := keyClosed (symbolKey x) .pressed s) hl]
  intro t
  obtain ⟨-, hposted, honly⟩ := finish_quiet (keyClosed_kept (s := s) (k := symbolKey x) (st := .pressed))
    keyClosed_only rfl (by decide)
  have hkeys : t.keys = (keyClosed (symbolKey x) .pressed s).keys := finish_keys ..
  rw [hkeys]
  exact ⟨honly, rfl, rfl, hposted⟩

theorem symbolWaits_effect {x : Symbol} (hl : s.keys.buffer.length < 24) (hs : s.call.state = .collecting)
    (he : s.config.emergency.all (fun e => decide (e ≠ s.keys.buffer ++ [x])) = true)
    (hm : ∀ m, bestMatch (s.keys.buffer ++ [x]) (activeTable s) = some m →
      m.kind = .barred ∨ s.keys.buffer.length + 1 < m.maxLen) :
    let t := finish s (storeSymbol x (keyClosed (symbolKey x) .pressed s))
    t.keys = { s.keys with
        cells := t.keys.cells
        buffer := s.keys.buffer ++ [x]
        collection := .collectingDigits
        firstDigitTimer := none
        interDigitTimer := some (s.now + s.config.interDigit * 1000)
        best := bestMatch (s.keys.buffer ++ [x]) (activeTable s) }
      ∧ t.call = { s.call with earpiece := .silent } ∧ OnlyChanges [.keys, .call, .pins, .samplers] s t
      ∧ Posted [⟨.dialled, digitString t.keys.buffer ++ optByte (t.keys.best.map (fun m => m.kind.code)) ++ [0]⟩]
          s t := by
  have hemergency : s.keys.buffer ++ [x] ∉ s.config.emergency := fun hx =>
    of_decide_eq_true (List.all_eq_true.mp he _ hx) rfl
  have hlength : (s.keys.buffer ++ [x]).length = s.keys.buffer.length + 1 := List.length_append
  have hnot : ∀ m, analyse (symbolTaken x s) = some m →
      completesAtMax m (symbolTaken x s).keys.buffer.length = false := fun m hx =>
    Bool.eq_false_iff.mpr fun hc => by
      obtain ⟨hbars, hmax⟩ := (completesAtMax_iff ..).mp hc
      have hmax : m.maxLen ≤ (s.keys.buffer ++ [x]).length := hmax
      rcases hm m hx with h | h
      · exact hbars h
      · omega
  have hkept : Kept True s (storeSymbol x (keyClosed (symbolKey x) .pressed s)) := .after storeSymbol_kept keyClosed_kept
  rw [storeSymbol_taken hl hs, analyseStored_waits (isEmergency_taken hemergency) hnot] at hkept ⊢
  intro t
  have hpost := tells_post .dialled (dialledNotice false (withBest (analyse (symbolTaken x s)) (symbolTaken x s)))
    (withBest (analyse (symbolTaken x s)) (symbolTaken x s))
  have htells := hpost.after (Tells.of_same (s := s) rfl rfl)
  have hkey : creditKey s = creditKey (withBest (analyse (symbolTaken x s)) (symbolTaken x s)) :=
    creditKey_of_slots rfl rfl rfl rfl rfl
  have hevent := finish_event hkept htells (by rw [post_rate]; rfl) (hkey.trans (post_creditKey ..).symm)
  have hbody : t.body = (withBest (analyse (symbolTaken x s)) (symbolTaken x s)).body := (finish_body ..).trans (post_body ..)
  have hkeys : t.keys = (withBest (analyse (symbolTaken x s)) (symbolTaken x s)).keys := same_of_body hbody .keys
  have hcall : t.call = (symbolTaken x s).call := same_of_body hbody .call
  rw [hkeys, hcall]
  exact ⟨rfl, rfl, only_finish (only_post symbolTaken_only), hevent.2.1⟩

/-- R33, R35: a symbol that completes a number. -/
theorem symbolCompletes_effect {x : Symbol} {sl : Slot} (hl : s.keys.buffer.length < 24)
    (hs : s.call.state = .collecting) (ho : s.call.openSlot = some sl) :
    let t := finish s (storeSymbol x (keyClosed (symbolKey x) .pressed s))
    ∃ u, OnlyChanges [.keys, .call, .pins, .samplers] s u ∧ LinkKept s u
      ∧ u.keys = { s.keys with
          cells := u.keys.cells
          buffer := s.keys.buffer ++ [x]
          collection := .collectingDigits
          firstDigitTimer := none
          interDigitTimer := some (s.now + s.config.interDigit * 1000)
          best := u.keys.best }
      ∧ u.call = { s.call with earpiece := .silent }
      ∧ (s.keys.buffer ++ [x] ∈ s.config.emergency → NumberDone .emergency none u t sl)
      ∧ (∀ m, s.keys.buffer ++ [x] ∉ s.config.emergency →
          bestMatch (s.keys.buffer ++ [x]) (activeTable s) = some m → m.kind ≠ .barred →
          m.maxLen ≤ s.keys.buffer.length + 1 → NumberDone m.kind.number (some m.cls) u t sl) := by
  intro t
  have ht : t = finish s (analyseStored (symbolTaken x s)) := congrArg (finish s) (storeSymbol_taken hl hs)
  have hdone {k : NumberKind} {cls : Option Nat} {b : Option TableEntry} :
      NumberDone k cls (withBest b (symbolTaken x s)) (finish s (complete k cls (withBest b (symbolTaken x s)))) sl :=
    completeDone hs ho
  by_cases he : s.keys.buffer ++ [x] ∈ s.config.emergency
  · refine ⟨withBest none (symbolTaken x s), symbolTaken_only, linkKept_of_link rfl, rfl, rfl, fun _ => ?_,
      fun m hx => absurd he hx⟩
    have hemergency : isEmergency (symbolTaken x s) = true :=
      (isEmergency_stored x (keyClosed (symbolKey x) .pressed s)).mpr he
    rw [ht, analyseStored_emergency hemergency]
    exact hdone
  · refine ⟨withBest (analyse (symbolTaken x s)) (symbolTaken x s), symbolTaken_only, linkKept_of_link rfl, rfl, rfl,
      fun hx => absurd hx he, fun m _ hm hk hmax => ?_⟩
    have hm : analyse (symbolTaken x s) = some m := hm
    have hlength : (s.keys.buffer ++ [x]).length = s.keys.buffer.length + 1 := List.length_append
    have hmax : completesAtMax m (s.keys.buffer ++ [x]).length = true :=
      (completesAtMax_iff ..).mpr ⟨hk, hmax.trans (Nat.le_of_eq hlength.symm)⟩
    rw [ht, analyseStored_completes (isEmergency_taken he) hm hmax, hm]
    exact hdone

theorem enough_iff (b : Option TableEntry) (n : Nat) : enough b n = true ↔ ∃ m, b = some m ∧ m.minLen ≤ n := by
  cases b with
  | none => exact ⟨fun h => absurd h Bool.false_ne_true, fun ⟨_, h, _⟩ => nomatch h⟩
  | some e =>
    refine decide_eq_true_iff.trans ⟨fun h => ⟨e, rfl, h⟩, ?_⟩
    rintro ⟨m, hm, h⟩
    exact Option.some.inj hm ▸ h

theorem hashPress_ignored
    (h : s.keys.collection ≠ .collectingDigits ∨ (∀ m, s.keys.best = some m → s.keys.buffer.length < m.minLen)) :
    hashPress s = s := by
  refine if_neg fun ⟨hc, he⟩ => ?_
  obtain ⟨m, hm, hl⟩ := (enough_iff ..).mp he
  rcases h with h | h
  · exact h hc
  · exact absurd hl (Nat.not_le.mpr (h m hm))

theorem hashPress_analyses {m0 : TableEntry} (hc : s.keys.collection = .collectingDigits) (hb : s.keys.best = some m0)
    (hl : m0.minLen ≤ s.keys.buffer.length) : hashPress s =
      match analyse s with
      | some m =>
        if m.minLen ≤ s.keys.buffer.length then complete m.kind.number (some m.cls) (withBest (some m) s) else s
      | none => s :=
  if_pos ⟨hc, (enough_iff ..).mpr ⟨m0, hb, hl⟩⟩

theorem hashPress_incomplete (h : ∀ m, analyse s = some m → s.keys.buffer.length < m.minLen) : hashPress s = s := by
  unfold hashPress
  split
  · cases ha : analyse s with
    | none => rfl
    | some m => exact if_neg (Nat.not_le.mpr (h m ha))
  · rfl

theorem hashPress_completes {m0 m : TableEntry} (hc : s.keys.collection = .collectingDigits) (hb : s.keys.best = some m0)
    (hl : m0.minLen ≤ s.keys.buffer.length) (ha : analyse s = some m) (hm : m.minLen ≤ s.keys.buffer.length) :
    hashPress s = complete m.kind.number (some m.cls) (withBest (some m) s) := by
  rw [hashPress_analyses hc hb hl, ha]
  exact if_pos hm

theorem deliverPress_hash : deliverPress .hash s = hashPress s := by
  show (if collecting s.keys.collection = true then hashPress s else s) = hashPress s
  by_cases h : s.keys.collection = .collectingDigits
  · exact if_pos (by rw [h]; rfl)
  · rw [hashPress_ignored (.inl h), ite_self]

theorem hashIgnored_effect (h : hashPress (keyClosed .hash .pressed s) = keyClosed .hash .pressed s) :
    let t := finish s (hashPress (keyClosed .hash .pressed s))
    OnlyChanges [.keys, .pins, .samplers] s t ∧ t.keys = { s.keys with cells := t.keys.cells } ∧ Posted [] s t := by
  rw [h]
  intro t
  obtain ⟨-, hposted, honly⟩ := finish_quiet (keyClosed_kept (s := s) (k := .hash) (st := .pressed)) keyClosed_only
    rfl (by decide)
  have hkeys : t.keys = (keyClosed .hash .pressed s).keys := finish_keys ..
  rw [hkeys]
  exact ⟨honly, rfl, hposted⟩

theorem analyseTimeout_completes {m : TableEntry} (ha : analyse s = some m) (hl : m.minLen ≤ s.keys.buffer.length) :
    analyseTimeout s = complete m.kind.number (some m.cls) (withBest (some m) s) := by
  unfold analyseTimeout
  dsimp only
  rw [ha]
  exact if_pos hl

end Sys2Proof.Machine

open Sys2Proof Sys2Proof.Machine

/-- Settles O42: every completion is `completeDone`, for the state in which the key is PRESSED and the number matched. -/
theorem dialledSymbolsAreStoredAndMatched : Obligations.DialledSymbolsAreStoredAndMatched := by
  refine ⟨fun x s ha hr _ hc ho hcoll hs => ?_, fun s ha hr hc ho => ?_, fun d m sl s ha hd hcoll hs ho hm hl => ?_,
    fun buffer table => ⟨bestMatch_none buffer table, fun _ => bestMatch_some⟩⟩
  · refine ⟨_, exec_keyPress ha hr, linkKept_of_kept (.after pressKey_kept settleCrossing_kept), ?_⟩
    rw [pressKey_pressed hc ho, deliverPress_taken hcoll]
    exact ⟨symbolFull_effect, fun hl he hm => symbolWaits_effect hl hs he hm,
      fun sl hl hopen => symbolCompletes_effect hl hs hopen⟩
  · refine ⟨_, exec_keyPress ha hr, ?_⟩
    rw [pressKey_pressed hc ho, deliverPress_hash]
    refine ⟨fun h => hashIgnored_effect (hashPress_ignored h), fun m0 hcoll hb hl =>
      ⟨fun h => hashIgnored_effect (hashPress_incomplete h), fun m sl hm hlen hs hopen => ?_⟩⟩
    refine ⟨withBest (some m) (keyClosed .hash .pressed s), keyClosed_only.step withBest_only (by decide),
      linkKept_of_link rfl, rfl, ?_⟩
    rw [hashPress_completes (s := keyClosed .hash .pressed s) hcoll hb hl hm hlen]
    exact completeDone hs hopen
  · refine ⟨_, exec_interDigitTimeout ha hd hcoll, ?_⟩
    rw [analyseTimeout_completes (s := reach (some d) s) hm hl]
    exact completeDone (u := withBest (some m) (reach (some d) s)) hs ho

end

section
/-! Settlement (R91 to R95): what it makes of RATE, CALL and COIN, and what the coin path's waiting makes of it. -/

namespace Sys2Proof.Machine

variable {s t u v w : State}

/-! ### A change of phase (R88) -/

/-- RATE in the phase `q`, and CALL told of it. -/
def phaseMoved (q : Phase) (s : State) : State :=
  { s with call := phaseTold s.rate.phase q s.now s.call, rate := { s.rate with phase := q } }

theorem setPhase_eq (q : Phase) (s : State) : setPhase q s = phaseMoved q s := by
  unfold setPhase phaseMoved phaseTold
  split
  next h => subst h; rfl
  next h => cases q <;> rfl

theorem phaseTold_eq (p q : Phase) (n : Nat) (c : CallBlock) : ∃ a b h,
    phaseTold p q n c = { c with lastWarning := a, warningTimer := b, heldFollowOn := h } := by
  unfold phaseTold
  split
  · exact ⟨_, _, _, rfl⟩
  · cases q <;> exact ⟨_, _, _, rfl⟩

theorem phaseTold_held {p q : Phase} {n : Nat} {c : CallBlock} (h : q ≠ .grace) :
    (phaseTold p q n c).heldFollowOn = c.heldFollowOn := by
  unfold phaseTold
  split
  · rfl
  · cases q with
    | grace => exact absurd rfl h
    | inactive | settling | running | warning | ended => rfl

theorem phaseMoved_only {q : Phase} : OnlyChanges [.rate, .call] s (phaseMoved q s) := by
  rw [← setPhase_eq]; exact setPhase_only

/-- What stands in CALL's block and is not told of a phase. -/
theorem phaseMoved_call (q : Phase) (s : State) : (phaseMoved q s).call.openSlot = s.call.openSlot
    ∧ (phaseMoved q s).call.closingSlot = s.call.closingSlot ∧ (phaseMoved q s).call.atStart = s.call.atStart
    ∧ (phaseMoved q s).call.state = s.call.state ∧ (phaseMoved q s).call.answerTimer = s.call.answerTimer := by
  obtain ⟨a, b, h, heq⟩ := phaseTold_eq s.rate.phase q s.now s.call
  have hcall : (phaseMoved q s).call = { s.call with lastWarning := a, warningTimer := b, heldFollowOn := h } := heq
  rw [hcall]
  exact ⟨rfl, rfl, rfl, rfl, rfl⟩

theorem callE_of_same (hk : t.coin = s.coin) (hclosing : t.call.closingSlot = s.call.closingSlot)
    (hstart : t.call.atStart = s.call.atStart) : callE t = callE s := by
  unfold callE ownEscrow escrowElsewhere
  rw [hk, hclosing, hstart]

theorem warnPhase_of_same (ha : t.rate.acct.unused = s.rate.acct.unused) (hs : t.rate.step = s.rate.step)
    (he : callE t = callE s) : warnPhase t = warnPhase s := by
  unfold warnPhase; rw [ha, hs, he]

theorem warnPhase_moved (q : Phase) (s : State) : warnPhase (phaseMoved q s) = warnPhase s := by
  obtain ⟨-, hclosing, hstart, -, -⟩ := phaseMoved_call q s
  exact warnPhase_of_same rfl rfl (callE_of_same rfl hclosing hstart)

theorem warnPhase_of_body (h : t.body = s.body) : warnPhase t = warnPhase s := by
  have hrate : t.rate = s.rate := same_of_body h .rate
  have hcall : t.call = s.call := same_of_body h .call
  have hcoin : t.coin = s.coin := same_of_body h .coin
  exact warnPhase_of_same (by rw [hrate]) (by rw [hrate]) (callE_of_same hcoin (by rw [hcall]) (by rw [hcall]))

theorem warnPhase_cases (s : State) : warnPhase s = .warning ∨ warnPhase s = .running := by
  unfold warnPhase
  split
  · exact .inl rfl
  · exact .inr rfl

theorem warningTest_eq (s : State) : warningTest s = phaseMoved (warnPhase s) s := setPhase_eq ..

/-! ### The outcomes of settlement (R91) -/

/-- R91 test 1: the whole of due settled, before the warning test. -/
def acctSettled (s : State) : State :=
  { s with rate := { s.rate with
    acct := s.rate.acct.stepped s.rate.acct.due, graceTimer := none, graceExpired := false } }

/-- R91 test 1, R93. -/
def settlementDone (s : State) : State := phaseMoved (warnPhase (acctSettled s)) (acctSettled s)

theorem settle_covers (h : s.rate.acct.due ≤ s.rate.acct.unused) : settle s = (settlementDone s, .settled) :=
  (if_pos h).trans (congrArg (·, Verdict.settled) (warningTest_eq (acctSettled s)))

theorem settle_collecting (h : s.rate.acct.unused < s.rate.acct.due) (hm : s.coin.mover = .collecting)
    (hb : s.coin.blind = false) : settle s = (phaseMoved .settling s, .nothing) := by
  have hflight : collectInFlight s = true := by unfold collectInFlight; rw [hm, hb]; rfl
  unfold settle
  rw [if_neg (Nat.not_le.mpr h), if_pos hflight, setPhase_eq]

/-- R91 test 3: the stroke of the head begun. -/
def strokeAsked (e : EscrowEntry) (rest : List EscrowEntry) (s : State) : State :=
  { s with coin := collectBegun e rest s }

theorem beginStroke_collect {e : EscrowEntry} {rest : List EscrowEntry} (h : s.coin.escrow = e :: rest) :
    beginStroke .collect s = strokeAsked e rest s := by
  unfold beginStroke strokeAsked collectBegun
  rw [h]
  rfl

theorem settle_strokes {e : EscrowEntry} {rest : List EscrowEntry} (h : s.rate.acct.unused < s.rate.acct.due)
    (hm : s.coin.mover = .idle) (hl : s.coin.escrow = e :: rest) (ho : s.coin.order = .inOrder)
    (he : escrowElsewhere s = false) : settle s = (phaseMoved .settling (strokeAsked e rest s), .nothing) := by
  have hflight : ¬ collectInFlight s = true := by unfold collectInFlight; rw [hm]; simp
  have hcan : (!escrowElsewhere s && canStroke s) = true := by unfold canStroke; rw [hm, ho, hl, he]; rfl
  unfold settle
  rw [if_neg (Nat.not_le.mpr h), if_neg hflight, if_pos hcan, setPhase_eq, beginStroke_collect hl]

/-- R91: neither a COLLECT is in flight nor can a stroke be begun. -/
abbrev NoStroke (s : State) : Prop :=
  (s.coin.mover = .idle ∧ (s.coin.escrow = [] ∨ s.coin.order = .outOfOrder ∨ escrowElsewhere s = true))
    ∨ s.coin.mover = .refunding ∨ (s.coin.mover = .collecting ∧ s.coin.blind = true)

theorem settle_noStroke (h : s.rate.acct.unused < s.rate.acct.due) (hn : NoStroke s) : settle s =
    if s.coin.transit.isSome = true then (phaseMoved .settling s, .nothing)
    else if s.coin.order = .outOfOrder then (s, .escrowFault)
    else enterGrace s := by
  have hflight : ¬ collectInFlight s = true := by
    unfold collectInFlight
    rcases hn with ⟨hm, -⟩ | hm | ⟨hm, hb⟩
    · rw [hm]; simp
    · rw [hm]; simp
    · rw [hb]; simp
  have hcan : ¬ (!escrowElsewhere s && canStroke s) = true := by
    unfold canStroke
    rcases hn with ⟨-, hl | ho | he⟩ | hm | ⟨hm, hb⟩
    · rw [hl]; simp
    · rw [ho]; simp
    · rw [he]; simp
    · rw [hm]; simp
    · rw [hm]; simp
  unfold settle
  rw [if_neg (Nat.not_le.mpr h), if_neg hflight, if_neg hcan, setPhase_eq]

/-- R94: the grace timer running, from its first start. -/
def graceRuns (s : State) : State :=
  { s with rate := { s.rate with graceTimer := some (s.rate.graceTimer.getD (s.now + 10000)) } }

theorem enterGrace_begins (h : s.rate.graceExpired = false) :
    enterGrace s = (phaseMoved .grace (graceRuns s), .nothing) := by
  unfold enterGrace graceRuns
  rw [if_neg (by rw [h]; decide), setPhase_eq]
  cases s.rate.graceTimer <;> rfl

theorem enterGrace_expired (h : s.rate.graceExpired = true) : enterGrace s = (s, .graceExpired) := if_pos h

/-! ### What waits for a coin's outcome (R16 to R18, R77) -/

theorem storeOpen_elsewhere (h : s.call.state ≠ .clearing) : storeOpen s = s := by
  unfold storeOpen
  split
  · rfl
  · exact if_neg fun hx => h hx.1

/-- Nothing waits for the coin's outcome. -/
theorem progress_nothing (hrest : NoEarlier s) (hstate : s.call.state ≠ .clearing) (hc : s.rate.closing = false)
    (hp : s.rate.phase ≠ .ended) : progress s = s := by
  have hclear : clearAccount s = s := by
    have htry : tryClose s = s := by unfold tryClose; rw [hc]; rfl
    unfold clearAccount
    rw [htry]
    exact if_neg hp
  have hask : askRefund s = s := if_neg fun hx => hstate hx.1
  rw [progress_eq hrest, hclear, hask, takeReport_none hrest.2.2, storeOpen_elsewhere hstate]

/-- With no ended call and no run waiting, a coin's outcome lets nothing go on. -/
theorem coinSettled_undisturbed (h : Undisturbed s) : coinSettled s = s := by
  obtain ⟨hrun, hreport, hstart, hclosing, hstate, hc, hp⟩ := h
  have hstep : runStep s = s := by unfold runStep; rw [hrun]
  unfold coinSettled
  rw [hstep, progress_nothing ⟨hclosing, hstart, hreport⟩ hstate hc hp]

/-- Nothing waits for a coin, and no deposit is awaited. -/
abbrev Quiescent (s : State) : Prop := Undisturbed s ∧ s.call.state ≠ .awaitDeposit

/-- What a settlement leaves waiting waited before it. -/
abbrev Quiesces (s t : State) : Prop :=
  (Undisturbed s → Undisturbed t) ∧ (s.call.state ≠ .awaitDeposit → t.call.state ≠ .awaitDeposit)

theorem quiesces_of_quiescent (h : Quiescent t) : Quiesces s t := ⟨fun _ => h.1, fun _ => h.2⟩

theorem quiesces_moved {q : Phase} (hq : q ≠ .ended) (hcall : t.call = s.call)
    (hcoin : t.coin.run = s.coin.run ∧ t.coin.report = s.coin.report) (hrate : t.rate.closing = s.rate.closing) :
    Quiesces s (phaseMoved q t) := by
  obtain ⟨-, hclosing, hstart, hstate, -⟩ := phaseMoved_call q t
  rw [hcall] at hclosing hstart hstate
  refine ⟨fun ⟨hrun, hreport, hs, hc, hst, hcl, _⟩ => ⟨hcoin.1.trans hrun, hcoin.2.trans hreport, hstart.trans hs,
    hclosing.trans hc, ?_, hrate.trans hcl, hq⟩, fun hst => ?_⟩
  · rw [hstate]; exact hst
  · rw [hstate]; exact hst

theorem quiescent_of_notifies (h : Notifies s t) (hs : Quiescent s) : Quiescent t := by
  obtain ⟨l, -, rfl⟩ := h; exact hs

theorem atRest_state (s : State) : (atRest s).call.state = .idle ∨ (atRest s).call.state = .abandoned := by
  unfold atRest callAtRest
  cases s.keys.hook with
  | onHook => exact .inl rfl
  | offHook => exact .inr rfl

/-- After the end of a rated call whose record is stored at once nothing waits. -/
theorem quiescent_ended {c : EndCause} {n : Nat} {sl : Slot} (h : RatedOpen s sl)
    (he : s.coin.escrow = [] ∨ s.coin.order = .outOfOrder) : Quiescent (endCall c n s) := by
  obtain ⟨v, i, -, -, hended⟩ := endCall_ratedStored (c := c) (at_ := n) h he
  obtain ⟨-, hclosing, hstart, -, -, hrun, -, hreport, -⟩ := h
  refine quiescent_of_notifies hended ?_
  generalize hw : refundOver (ratedSlot c n s sl) v i (ratedEnding c n sl s) = w
  have hcoin : w.coin.run = s.coin.run ∧ w.coin.report = s.coin.report := by
    rw [← hw]
    show (allStranded { s.coin with tally := {} }).run = _ ∧ (allStranded { s.coin with tally := {} }).report = _
    unfold allStranded
    dsimp only
    split
    · exact ⟨rfl, rfl⟩
    · exact ⟨rfl, rfl⟩
  have hcall : w.call.closingSlot = none ∧ w.call.atStart = [] := by rw [← hw]; exact ⟨hclosing, hstart⟩
  have hrate : w.rate = RateBlock.inactive := by rw [← hw]; rfl
  have hstate := atRest_state (logged (slotOver (ratedSlot c n s sl) s) (setOpen none w))
  refine ⟨⟨hcoin.1.trans hrun, hcoin.2.trans hreport, hcall.2, hcall.1, fun hx => ?_, congrArg RateBlock.closing hrate,
    fun hx => ?_⟩, fun hx => ?_⟩
  · rcases hstate with h | h <;> exact nomatch h.symm.trans hx
  · exact nomatch (congrArg RateBlock.phase hrate).symm.trans hx
  · rcases hstate with h | h <;> exact nomatch h.symm.trans hx

theorem quiesces_followed {sl : Slot} (h : FollowsOn s sl) (hu : Undisturbed u → s.coin.report = false) :
    Quiesces u (followOnEnd s) := by
  have hn := followOnEnd_notifies h
  have hstate : (followOnEnd s).call.state = .followOnClearing :=
    (congrArg CallBlock.state (hn.same .call : _ = (followedOn s sl).call) :)
  obtain ⟨-, hclosing, hstart, hrun, -⟩ := h
  refine ⟨fun hx => ?_, fun _ hy => nomatch hstate.symm.trans hy⟩
  obtain ⟨l, -, heq⟩ := hn
  rw [heq]
  exact ⟨hrun, hu hx, hstart, hclosing, nofun, rfl, nofun⟩

/-! ### A state of the same body -/

theorem RatedEndCommon.of_body (g : RatedEndCommon u t) (h : v.body = t.body) (hlink : LinkKept u v) :
    RatedEndCommon u v := by
  obtain ⟨grate, gbank, gline, -⟩ := g
  exact ⟨(same_of_body h .rate).trans grate, (same_of_body h .bank).trans gbank, (same_of_body h .line).trans gline, hlink⟩

theorem LogTook.of_body {l : List Slot} {g : LogArea} (h : LogTook l g t) (hb : v.body = t.body) : LogTook l g v :=
  (same_of_body hb .log).trans h

theorem RatedCallEnded.of_body {c : EndCause} {n : Nat} {sl : Slot} (g : RatedCallEnded c n u t sl)
    (h : v.body = t.body) (hlink : LinkKept u v) : RatedCallEnded c n u v sl := by
  obtain ⟨glog, gopen, gstate, glevel, gkeys, gcoin, gcounters, gempty, gonly, gcommon⟩ := g
  have hcall : v.call = t.call := same_of_body h .call
  have hvault : v.vault = t.vault := same_of_body h .vault
  have hincd : v.incd = t.incd := same_of_body h .incd
  refine ⟨glog.of_body h, ?_, ?_, ?_, (same_of_body h .keys).trans gkeys, (same_of_body h .coin).trans gcoin, ?_, ?_,
    gonly.step (only_of_body (l := []) h) (List.nil_subset _), RatedEndCommon.of_body gcommon h hlink⟩
  · rw [hcall]; exact gopen
  · rw [hcall]; exact gstate
  · rw [hcall]; exact glevel
  · rw [hvault]; exact gcounters
  · rw [hvault, hincd]; exact gempty

theorem FollowOnEnded.of_body {sl : Slot} (g : FollowOnEnded u t sl) (h : v.body = t.body) (hlink : LinkKept u v) :
    FollowOnEnded u v sl := by
  obtain ⟨glog, gopen, gstate, gheld, gear, gkeys, gonly, gcommon⟩ := g
  have hcall : v.call = t.call := same_of_body h .call
  refine ⟨glog.of_body h, ?_, ?_, ?_, ?_, (same_of_body h .keys).trans gkeys,
    gonly.step (only_of_body (l := []) h) (List.nil_subset _), RatedEndCommon.of_body gcommon h hlink⟩
  · rw [hcall]; exact gopen
  · rw [hcall]; exact gstate
  · rw [hcall]; exact gheld
  · rw [hcall]; exact gear

theorem FollowOnEnded.before {sl : Slot} (g : FollowOnEnded v t sl) (h : Notifies u v) : FollowOnEnded u t sl := by
  obtain ⟨glog, gopen, gstate, gheld, gear, gkeys, gonly, grate, gbank, gline, glink⟩ := g
  have hline : (release v).line = (release u).line := release_line_of (h.same .line) (h.same .now) (h.same .pins)
  rw [hline] at gline
  have honly := h.andOnly gonly
  have hkept := h.linkKept glink
  obtain ⟨l, hl, rfl⟩ := h
  exact ⟨glog, gopen, gstate, gheld, gear, gkeys, honly, grate, gbank, gline, hkept⟩

/-! ### Settlement as CALL takes it -/

/-- The result of a settlement that leaves the phase `q`, told to CALL. -/
theorem phaseMoved_result {q : Phase} {x : State} (hn : Notifies (phaseMoved q x) w) {s0 : State} :
    (finish s0 w).rate = { x.rate with phase := q }
      ∧ (finish s0 w).call = phaseTold x.rate.phase q x.now x.call ∧ (finish s0 w).coin = x.coin
      ∧ OnlyChanges [.rate, .call] x (finish s0 w) := by
  have hbody := (finish_body s0 w).trans hn.body
  exact ⟨same_of_body hbody .rate, same_of_body hbody .call, same_of_body hbody .coin,
    phaseMoved_only.step (only_of_body (l := []) hbody) (List.nil_subset _)⟩

theorem actVerdict_settled (h : s.call.heldFollowOn = false) : actVerdict (s, .settled) = s :=
  if_neg fun hx => absurd (h.symm.trans hx.1) (by decide)

theorem actVerdict_follows (hh : s.call.heldFollowOn = true) (hs : s.call.state = .connected)
    (hp : s.rate.phase ≠ .grace) : actVerdict (s, .settled) = followOnEnd s := if_pos ⟨hh, hs, hp⟩

theorem settlementDone_only : OnlyChanges [.rate, .call] s (settlementDone s) :=
  (only_rate .refl (by decide)).step phaseMoved_only (by decide)

theorem warnPhase_not (s : State) : warnPhase s ≠ .grace ∧ warnPhase s ≠ .ended ∧ warnPhase s ≠ .inactive := by
  rcases warnPhase_cases s with h | h <;> rw [h] <;> exact ⟨nofun, nofun, nofun⟩

/-- R91: the settlement `settle u`, as CALL takes it and after what follows in the step, which is nothing when it leaves
nothing waiting. -/
abbrev SettledInto (u w : State) : Prop :=
  Quiesces u (actVerdict (settle u)) → Notifies (actVerdict (settle u)) w

section Settling

variable {s0 : State}

theorem settlement_covers (hw : SettledInto u w) (hlink : LinkKept u (finish s0 w))
    (hc : u.rate.acct.due ≤ u.rate.acct.unused) (hh : u.call.heldFollowOn = false) :
    (finish s0 w).rate = { u.rate with
        acct := u.rate.acct.stepped u.rate.acct.due, phase := warnPhase (finish s0 w), graceTimer := none
        graceExpired := false }
      ∧ (finish s0 w).call = phaseTold u.rate.phase (warnPhase (finish s0 w)) u.now u.call
      ∧ OnlyChanges [.rate, .call] u (finish s0 w) ∧ LinkKept u (finish s0 w) := by
  obtain ⟨hgrace, hended, -⟩ := warnPhase_not (acctSettled u)
  have hverdict : actVerdict (settle u) = settlementDone u := by
    rw [settle_covers hc]
    exact actVerdict_settled ((phaseTold_held hgrace).trans hh)
  have hn : Notifies (settlementDone u) w := hverdict ▸ hw (hverdict ▸
    quiesces_moved hended rfl ⟨rfl, rfl⟩ rfl)
  have hwarn : warnPhase (finish s0 w) = warnPhase (acctSettled u) :=
    (warnPhase_of_body ((finish_body s0 w).trans hn.body)).trans (warnPhase_moved ..)
  obtain ⟨hrate, hcall, -, honly⟩ := phaseMoved_result hn (s0 := s0)
  rw [hwarn]
  exact ⟨hrate, hcall, (only_rate (t := u) .refl (by decide)).step honly (by decide), hlink⟩

theorem settlement_follows {sl : Slot} (hw : SettledInto u w) (hlink : LinkKept (settlementDone u) (finish s0 w))
    (hc : u.rate.acct.due ≤ u.rate.acct.unused) (hh : u.call.heldFollowOn = true) (hs : u.call.state = .connected)
    (ho : u.call.openSlot = some sl) (hclosing : u.call.closingSlot = none) (hstart : u.call.atStart = [])
    (hrun : u.coin.run = .none) (hlog : u.store.log.records.length < 64) :
    FollowOnEnded (settlementDone u) (finish s0 w) sl := by
  obtain ⟨hgrace, hended, hinactive⟩ := warnPhase_not (acctSettled u)
  obtain ⟨hopen1, hclosing1, hstart1, hstate1, -⟩ := phaseMoved_call (warnPhase (acctSettled u)) (acctSettled u)
  have hverdict : actVerdict (settle u) = followOnEnd (settlementDone u) := by
    rw [settle_covers hc]
    exact actVerdict_follows ((phaseTold_held hgrace).trans hh) (hstate1.trans hs) hgrace
  have hfollows : FollowsOn (settlementDone u) sl :=
    ⟨hopen1.trans ho, hclosing1.trans hclosing, hstart1.trans hstart, hrun, hlog, hinactive, hended⟩
  have hn : Notifies (followOnEnd (settlementDone u)) w := hverdict ▸ hw (hverdict ▸
    quiesces_followed hfollows fun ⟨_, hreport, _⟩ => hreport)
  have hbody : (finish s0 w).body = (finish s0 (followOnEnd (settlementDone u))).body := by
    rw [finish_body, finish_body]; exact hn.body
  exact (followOnEnded hfollows).of_body hbody hlink

theorem settlement_ends {c : EndCause} {sl : Slot} (hw : SettledInto u w) (hlink : LinkKept u (finish s0 w))
    (hverdict : actVerdict (settle u) = endCall c u.now u) (h : RatedOpen u sl)
    (he : u.coin.escrow = [] ∨ u.coin.order = .outOfOrder) : RatedCallEnded c u.now u (finish s0 w) sl := by
  have hn : Notifies (endCall c u.now u) w := hverdict ▸ hw (hverdict ▸ quiesces_of_quiescent (quiescent_ended h he))
  have hbody : (finish s0 w).body = (finish s0 (endCall c u.now u)).body := by
    rw [finish_body, finish_body]; exact hn.body
  exact (ratedCallEnded h he).of_body hbody hlink

theorem settlementWaits (hw : SettledInto u w) (hlink : LinkKept u (finish s0 w))
    (hd : u.rate.acct.unused < u.rate.acct.due) : SettlementWaits u (finish s0 w) := by
  have hmoved {q : Phase} {x : State} (hs : settle u = (phaseMoved q x, .nothing)) (hq : q ≠ .ended)
      (hcall : x.call = u.call) (hcoin : x.coin.run = u.coin.run ∧ x.coin.report = u.coin.report)
      (hrate : x.rate.closing = u.rate.closing) : Notifies (phaseMoved q x) w := by
    have hverdict : actVerdict (settle u) = phaseMoved q x := by rw [hs]; rfl
    exact hverdict ▸ hw (hverdict ▸ quiesces_moved hq hcall hcoin hrate)
  refine ⟨fun hm hb => ?_, fun e rest hm hl ho he => ?_, fun hn => ⟨fun hx => ?_, fun sl ho hr => ?_,
    fun hx ho => ⟨fun hg => ?_, fun sl hg hr => ?_⟩⟩⟩
  · obtain ⟨hrate, hcall, hcoin, honly⟩ := phaseMoved_result (s0 := s0)
      (hmoved (settle_collecting hd hm hb) nofun rfl ⟨rfl, rfl⟩ rfl)
    exact ⟨⟨hrate, hcall, honly.wider (by decide), hlink⟩, hcoin⟩
  · obtain ⟨hrate, hcall, hcoin, honly⟩ := phaseMoved_result (s0 := s0)
      (hmoved (settle_strokes hd hm hl ho he) nofun rfl ⟨rfl, rfl⟩ rfl)
    exact ⟨⟨hrate, hcall, (only_coin (t := u) .refl (by decide)).step honly (by decide), hlink⟩, hcoin⟩
  · obtain ⟨hrate, hcall, hcoin, honly⟩ := phaseMoved_result (s0 := s0)
      (hmoved ((settle_noStroke hd hn).trans (if_pos hx)) nofun rfl ⟨rfl, rfl⟩ rfl)
    exact ⟨⟨hrate, hcall, honly.wider (by decide), hlink⟩, hcoin⟩
  · have htransit : ¬ u.coin.transit.isSome = true := by
      obtain ⟨-, -, -, -, -, htransit, -⟩ := hr
      rw [htransit]; decide
    refine settlement_ends hw hlink ?_ (ratedOpen_of hr) (.inr ho)
    rw [settle_noStroke hd hn, if_neg htransit, if_pos ho]
    rfl
  · have hs : settle u = enterGrace u := by
      rw [settle_noStroke hd hn, if_neg (by rw [hx]; decide), if_neg (by rw [ho]; decide)]
    obtain ⟨hrate, hcall, -, honly⟩ := phaseMoved_result (s0 := s0)
      (hmoved (hs.trans (enterGrace_begins hg)) nofun rfl ⟨rfl, rfl⟩ rfl)
    exact ⟨hrate, hcall, (only_rate (t := u) .refl (by decide)).step honly (by decide), hlink⟩
  · have hs : settle u = enterGrace u := by
      rw [settle_noStroke hd hn, if_neg (by rw [hx]; decide), if_neg (by rw [ho]; decide)]
    have hempty : u.coin.escrow = [] := by
      obtain ⟨-, -, hclosing, hstart, -, -, hrun, hmover, -⟩ := hr
      obtain ⟨helse, -⟩ := ownEscrow_open hclosing hstart hrun
      rcases hn with ⟨-, hl | hout | helse'⟩ | hm | ⟨hm, -⟩
      · exact hl
      · exact nomatch ho.symm.trans hout
      · exact nomatch helse.symm.trans helse'
      · exact nomatch hmover.symm.trans hm
      · exact nomatch hmover.symm.trans hm
    refine settlement_ends hw hlink ?_ (ratedOpen_of hr) (.inl hempty)
    rw [hs, enterGrace_expired hg]
    rfl

theorem settlementRuns (hw : SettledInto u w) (hlink : LinkKept u (finish s0 w)) : SettlementRuns u (finish s0 w) :=
  ⟨settlement_covers hw hlink, fun _ hc hh hs ho hclosing hstart hrun hlog =>
    settlement_follows hw hlink hc hh hs ho hclosing hstart hrun hlog, settlementWaits hw hlink⟩

end Settling

/-- Settlement as the whole of what a step does. -/
theorem settlementRuns_alone {s0 : State} : SettlementRuns u (finish s0 (actVerdict (settle u))) :=
  settlementRuns (fun _ => .refl) (linkKept_of_kept (actVerdict_kept settle_kept))

theorem settleDue_runs (hr : rating s = true) (hd : 0 < s.rate.acct.due) : settleDue s = settle s :=
  if_pos (by rw [hr, decide_eq_true hd]; rfl)

theorem settleDue_nothing (h : rating s = false ∨ s.rate.acct.due = 0) : settleDue s = (s, .nothing) := by
  refine if_neg ?_
  rcases h with h | h
  · rw [h]; simp
  · rw [h]; simp

end Sys2Proof.Machine

open Sys2Proof Sys2Proof.Machine

end

section
/-! O58: periods, supervision, held steps, grace and the clock's tick. -/

namespace Sys2Proof.Machine

variable {s t u v w : State}

/-! ### Steps taken and held (R90, R96) -/

/-- R96: a step held back. -/
def stepHeld (h : HeldStep) (s : State) : State := { s with rate := { s.rate with held := s.rate.held ++ [h] } }

theorem takeOrHold_holds {h : HeldStep} (ha : s.line.absentSince.isSome = true) : takeOrHold h s = stepHeld h s := if_pos ha

/-- R90: the steps `l` taken. -/
def stepsTaken (l : List HeldStep) (s : State) : State :=
  { s with rate := { s.rate with
    periods := s.rate.periods + (l.filter HeldStep.period).length
    acct := { s.rate.acct with due := s.rate.acct.due + (l.map HeldStep.amount).sum } } }

theorem takeOrHold_takes {h : HeldStep} (ha : s.line.absentSince = none) : takeOrHold h s = stepsTaken [h] s :=
  if_neg (by unfold holdsSteps; rw [ha]; decide)

/-! ### Periods (R97 to R99) -/

theorem resolveBand_unset (s : State) (n : BankName) : (resolveBand s n).2 = s.store.clock.isNone := by
  unfold resolveBand
  cases s.store.clock <;> rfl

theorem bandDiffers_eq (prev : Option Period) (b : Nat) :
    bandDiffers prev b = prev.any (fun p => decide (p.band ≠ b)) := by cases prev <;> rfl

/-- R97 to R99: the period begun, before its step. -/
def periodBegun (prev : Option Period) (i : Nat) (n : BankName) (cls : Nat) (s : State) : State :=
  let b := (resolveBand s n).1
  let r := rateIn s n cls b
  let d := periodFor s n r (carriedRemainder prev b)
  { s with rate := { s.rate with
    band := some b, rate := r, period := some ⟨b, r, d.2.1, i, i + d.1 * 100⟩
    flags := { s.rate.flags with
      clockUnset := s.rate.flags.clockUnset || s.store.clock.isNone
      bandChanged := s.rate.flags.bandChanged || prev.any (fun (p : Period) => decide (p.band ≠ b))
      periodClamped := s.rate.flags.periodClamped || d.2.2 } } }

/-- The step of the period that begins. -/
def periodStep (i : Nat) (n : BankName) (cls : Nat) (s : State) : HeldStep :=
  ⟨i, if rateIn s n cls (resolveBand s n).1 = 0 then 0 else s.rate.step, true⟩

theorem startPeriod_eq {prev : Option Period} {i cls : Nat} {n : BankName} (hb : s.rate.bank = some n)
    (hc : s.rate.cls = some cls) :
    startPeriod prev i s = takeOrHold (periodStep i n cls s) (periodBegun prev i n cls s) := by
  unfold startPeriod
  rw [hb, hc]
  dsimp only
  rw [resolveBand_unset, bandDiffers_eq]
  rfl

theorem rating_of_rate (hc : t.rate.closing = s.rate.closing) (hp : t.rate.phase = s.rate.phase) :
    rating t = rating s := by unfold rating; rw [hc, hp]

theorem finish_rateOnly {s0 : State} (h : OnlyChanges [.rate] u w) (hk : Kept True u w) :
    (finish s0 w).rate = w.rate ∧ OnlyChanges [.rate] u (finish s0 w) ∧ LinkKept u (finish s0 w) :=
  ⟨finish_rate .., only_finish h, linkKept_of_kept hk⟩

/-- R90: the step of a period taken, and the period counted. -/
def stepCounted (n : Nat) (s : State) : State :=
  { s with rate := { s.rate with
    periods := s.rate.periods + 1, acct := { s.rate.acct with due := s.rate.acct.due + n } } }

/-- The state after a period's start, its step taken or held. -/
def periodTaken (prev : Option Period) (i : Nat) (n : BankName) (cls : Nat) (s : State) : State :=
  if s.line.absentSince.isSome = true then stepHeld (periodStep i n cls s) (periodBegun prev i n cls s)
  else stepCounted (periodStep i n cls s).amount (periodBegun prev i n cls s)

theorem startPeriod_taken {prev : Option Period} {i cls : Nat} {n : BankName} (hb : s.rate.bank = some n)
    (hc : s.rate.cls = some cls) : startPeriod prev i s = periodTaken prev i n cls s := startPeriod_eq hb hc

theorem periodTaken_eq {prev : Option Period} {i cls : Nat} {n : BankName} :
    periodTaken prev i n cls s = { s with rate := (periodTaken prev i n cls s).rate } := by
  unfold periodTaken; split <;> rfl

theorem periodTaken_only {prev : Option Period} {i cls : Nat} {n : BankName} :
    OnlyChanges [.rate] s (periodTaken prev i n cls s) := by
  rw [periodTaken_eq]; exact only_rate .refl (by decide)

theorem periodTaken_phase {prev : Option Period} {i cls : Nat} {n : BankName} :
    (periodTaken prev i n cls s).rate.closing = s.rate.closing
      ∧ (periodTaken prev i n cls s).rate.phase = s.rate.phase := by
  unfold periodTaken; split <;> exact ⟨rfl, rfl⟩

/-- `PeriodStarted` in the model's terms: the step is held, or taken and settled. -/
theorem periodStarted_of {prev : Option Period} {i cls : Nat} {n : BankName}
    (h1 : s.line.absentSince.isSome = true ∨ (periodTaken prev i n cls s).rate.acct.due = 0 →
      t.rate = (periodTaken prev i n cls s).rate ∧ OnlyChanges [.rate] s t ∧ LinkKept s t)
    (h2 : s.line.absentSince = none → 0 < (periodTaken prev i n cls s).rate.acct.due →
      SettlementRuns (periodTaken prev i n cls s) t) : PeriodStarted prev i n cls s t := by
  have hafter : (periodTaken prev i n cls s).rate =
      if s.line.absentSince.isSome then (stepHeld (periodStep i n cls s) (periodBegun prev i n cls s)).rate
      else (stepCounted (periodStep i n cls s).amount (periodBegun prev i n cls s)).rate := apply_ite State.rate ..
  rw [periodTaken_eq, hafter] at h2
  rw [hafter] at h1
  cases prev with
  | none => exact ⟨h1, h2⟩
  | some p => exact ⟨h1, h2⟩

/-- R97, R96: a period's start with its settlement. -/
theorem periodStarted {s0 : State} {prev : Option Period} {i cls : Nat} {n : BankName} (hr : rating u = true)
    (hb : u.rate.bank = some n) (hc : u.rate.cls = some cls) :
    PeriodStarted prev i n cls u (finish s0 (actVerdict (settleStep (startPeriod prev i u)))) := by
  have hkept : Kept True u (startPeriod prev i u) := startPeriod_kept
  rw [startPeriod_taken hb hc] at hkept ⊢
  obtain ⟨hclosing, hphase⟩ := periodTaken_phase (s := u) (prev := prev) (i := i) (cls := cls) (n := n)
  have hline : (periodTaken prev i n cls u).line = u.line := periodTaken_only .line (by decide)
  have hrating : rating (periodTaken prev i n cls u) = true := (rating_of_rate hclosing hphase).trans hr
  have hnothing (h : settleStep (periodTaken prev i n cls u) = (periodTaken prev i n cls u, .nothing)) :
      (finish s0 (actVerdict (settleStep (periodTaken prev i n cls u)))).rate = (periodTaken prev i n cls u).rate
        ∧ OnlyChanges [.rate] u (finish s0 (actVerdict (settleStep (periodTaken prev i n cls u))))
        ∧ LinkKept u (finish s0 (actVerdict (settleStep (periodTaken prev i n cls u)))) := by
    rw [h]
    exact finish_rateOnly (s0 := s0) periodTaken_only hkept
  have hholds (ha : u.line.absentSince.isSome = true) : holdsSteps (periodTaken prev i n cls u) = true := by
    unfold holdsSteps; rw [hline]; exact ha
  have htakes (ha : u.line.absentSince = none) :
      settleStep (periodTaken prev i n cls u) = settleDue (periodTaken prev i n cls u) :=
    if_neg (by unfold holdsSteps; rw [hline, ha]; decide)
  refine periodStarted_of (fun h => hnothing ?_) (fun ha hd => ?_)
  · rcases Option.eq_none_or_eq_some u.line.absentSince with ha | ⟨x, ha⟩
    · refine (htakes ha).trans (settleDue_nothing (.inr (h.resolve_left fun hx => ?_)))
      rw [ha] at hx; cases hx
    · exact if_pos (hholds (by rw [ha]; rfl))
  · rw [htakes ha, settleDue_runs hrating hd]
    exact settlementRuns_alone

/-! ### The events (O58) -/

theorem exec_periodEnd {p : Period} (ha : alive s = true) (hp : s.rate.period = some p) (hr : rating s = true)
    (hm : timesPeriods s.rate.mode = true) : exec .periodEnd s =
      .next (finish s (actVerdict (settleStep (startPeriod (some p) p.endAt (reach (some p.endAt) s))))) :=
  exec_alive ha (by simp only [hp]; exact if_pos (by rw [hr, hm]; rfl))

/-- R102: METER_FALLBACK at the expiry of the supervision timer. -/
def fallenBack (d : Nat) (s : State) : State :=
  { s with
    now := max s.now d
    rate := { s.rate with
      mode := some .meterFallback, superTimer := none, fallbackUsed := true
      flags := { s.rate.flags with pulseFallback := true } } }

theorem exec_supervisionTimeout {d : Nat} (ha : alive s = true) (hd : s.rate.superTimer = some d)
    (hr : rating s = true) : exec .supervisionTimeout s =
      .next (finish s (actVerdict (settleStep (startPeriod none d (fallenBack d s))))) :=
  exec_alive ha (by simp only [hd]; exact if_pos hr)

theorem exec_graceTimerExpiry {d : Nat} (ha : alive s = true) (hd : s.rate.graceTimer = some d) :
    exec .graceTimerExpiry s = .next (finish s (graceExpiry (reach (some d) s))) :=
  exec_alive ha (by simp only [hd])

/-- R95: the grace timer has run out at `d`. -/
def graceOut (d : Nat) (s : State) : State :=
  { s with now := max s.now d, rate := { s.rate with graceTimer := none } }

theorem graceExpiry_ends {d : Nat} (h : s.rate.phase = .grace) :
    graceExpiry (reach (some d) s) = endCall .creditOut (max s.now d) (graceOut d s) := by
  have hphase : (reach (some d) s).rate.phase = .grace := h
  unfold graceExpiry
  rw [hphase]
  rfl

theorem graceExpiry_marks {d : Nat} (h : s.rate.phase = .settling) : graceExpiry (reach (some d) s) =
    { graceOut d s with rate := { (graceOut d s).rate with graceExpired := true } } := by
  have hphase : (reach (some d) s).rate.phase = .settling := h
  unfold graceExpiry
  rw [hphase]
  rfl

/-- R96: the absence discarded, and the held steps taken. -/
def heldTaken (s : State) : State :=
  { s with
    pins := { s.pins with loopCurrent := true }
    line := { s.line with armed := true, absentSince := none }
    rate := { s.rate with
      held := [], periods := s.rate.periods + (s.rate.held.filter HeldStep.period).length
      acct := { s.rate.acct with due := s.rate.acct.due + (s.rate.held.map HeldStep.amount).sum } } }

theorem takeHeld_takes (h : s.rate.held ≠ []) : takeHeld s = settleDue (stepsTaken s.rate.held (clearSteps s)) := by
  unfold takeHeld
  cases hl : s.rate.held with
  | nil => exact absurd hl h
  | cons x l => rfl

theorem currentReturns_takes {since : Nat} (ha : s.line.absentSince = some since) (h : s.rate.held ≠ []) :
    currentReturns (setCurrent true s) = actVerdict (settleDue (heldTaken s)) := by
  have hsome : (setCurrent true s).line.absentSince.isSome = true := by
    show s.line.absentSince.isSome = true; rw [ha]; rfl
  have htakes : takeHeld (currentThere s) = settleDue (heldTaken s) := takeHeld_takes (s := currentThere s) h
  rw [← htakes]
  exact if_pos hsome

theorem heldTaken_only : OnlyChanges [.pins, .line, .rate] s (heldTaken s) := by
  intro p hp
  cases p
  case clock => exact ⟨rfl, rfl⟩
  case pins | line | rate => exact absurd (by decide) hp
  all_goals rfl

theorem settleVerdict_now {prev : Option Period} {i cls : Nat} {n : BankName} {s0 : State} (hb : u.rate.bank = some n)
    (hc : u.rate.cls = some cls) : (finish s0 (actVerdict (settleStep (startPeriod prev i u)))).now = u.now := by
  have hkeep : OnlyChanges endParts u (actVerdict (settleStep (startPeriod prev i u))) := by
    rw [startPeriod_taken hb hc]
    exact (periodTaken_only.wider (by decide)).step (actVerdict_only (settleStep_only.wider (by decide)))
      (List.Subset.refl _)
  exact (finish_now ..).trans (hkeep .now (by decide))

theorem graceMarked_effect {d : Nat} (h : s.rate.phase = .settling) :
    let t := finish s (graceExpiry (reach (some d) s))
    LinkKept s t ∧ Posted [] s t
      ∧ t.body = { s with now := max s.now d, rate := { s.rate with graceTimer := none, graceExpired := true } }.body := by
  have hkept : Kept True s (graceExpiry (reach (some d) s)) := .after graceExpiry_kept reach_kept
  rw [graceExpiry_marks h] at hkept ⊢
  exact finish_silent hkept rfl rfl rfl rfl

theorem heldTaken_effect {since : Nat} (ha : s.line.absentSince = some since) (hheld : s.rate.held ≠ []) :
    let t := finish s (currentReturns (setCurrent true s))
    (rating s = false ∨ (heldTaken s).rate.acct.due = 0 → t.rate = (heldTaken s).rate ∧ OnlyChanges [.pins, .line, .rate] s t)
      ∧ (rating s = true → 0 < (heldTaken s).rate.acct.due → SettlementRuns (heldTaken s) t) := by
  rw [currentReturns_takes ha hheld]
  refine ⟨fun h => ?_, fun hr hd => ?_⟩
  · rw [settleDue_nothing (s := heldTaken s) h]
    exact ⟨finish_rate .., only_finish heldTaken_only⟩
  · rw [settleDue_runs (s := heldTaken s) hr hd]
    exact settlementRuns_alone

theorem clockSecond_only : OnlyChanges [.now, .clock] s (clockSecond s) := by
  intro p hp
  cases p
  case now | clock => exact absurd (by decide) hp
  all_goals rfl

theorem exec_clockTick (s : State) : ∃ t, exec .clockTick s = .next t ∧ t.body = (clockSecond s).body := by
  by_cases ha : alive s = true
  · exact ⟨finish s (clockSecond s), (congrArg Host.Outcome.next (if_pos ha)).trans (exec_alive ha rfl), finish_body ..⟩
  · exact ⟨_, congrArg Host.Outcome.next (if_neg ha), rfl⟩

theorem clockTick_effect (h : t.body = (clockSecond s).body) : t.now = max s.now s.store.nextTick
    ∧ t.store.nextTick = s.store.nextTick + 1000
    ∧ t.store.clock = (match s.store.clock with
        | some c => if c + 1 < 3155760000 then some (c + 1) else none
        | none => none)
    ∧ OnlyChanges [.now, .clock] s t := by
  obtain ⟨hclock, htick⟩   : Part.clock.same (clockSecond s) t := same_of_body h .clock
  exact ⟨same_of_body h .now, htick, hclock, clockSecond_only.step (only_of_body (l := []) h) (List.nil_subset _)⟩

end Sys2Proof.Machine

open Sys2Proof Sys2Proof.Machine

/-- Settles O58: a period's start is `periodStarted`, a return of current the steps held, and a grace that has run out the
end of a rated call. -/
theorem ratingTimersAndTheClock : Obligations.RatingTimersAndTheClock := by
  refine ⟨fun s ha => ⟨fun p n cls hp hr hm hb hc => ?_, fun d n cls hd hr hb hc => ?_, fun since hw hs hheld => ?_,
    fun d sl hd hp hrated => ?_, fun d hd hp => ?_⟩, fun s => ?_⟩
  · exact ⟨_, exec_periodEnd ha hp hr hm, settleVerdict_now (u := reach (some p.endAt) s) hb hc,
      periodStarted (u := reach (some p.endAt) s) hr hb hc⟩
  · exact ⟨_, exec_supervisionTimeout ha hd hr, settleVerdict_now (u := fallenBack d s) hb hc,
      periodStarted (u := fallenBack d s) hr hb hc⟩
  · exact ⟨_, exec_loopCurrentPresent ha hw, heldTaken_effect hs hheld⟩
  · refine ⟨_, exec_graceTimerExpiry ha hd, ?_⟩
    rw [graceExpiry_ends hp]
    exact ratedEnd (u := graceOut d s) hrated
  · exact ⟨_, exec_graceTimerExpiry ha hd, graceMarked_effect hp⟩
  · obtain ⟨t, ht, hbody⟩ := exec_clockTick s
    exact ⟨t, ht, clockTick_effect hbody⟩

end

section
/-! O49 and O50: the answer, and meter pulses. -/

namespace Sys2Proof.Machine

variable {s t u v w : State}

/-! ### Settlement after notices have been posted -/

theorem SettlementWaits.before (g : SettlementWaits v t) (h : Notifies u v) : SettlementWaits u t := by
  have honly {l : List Part} : OnlyChanges l v t → OnlyChanges l u t := h.andOnly
  have hlink : LinkKept v t → LinkKept u t := h.linkKept
  have hends {c : EndCause} {n : Nat} {sl : Slot} : RatedCallEnded c n v t sl → RatedCallEnded c n u t sl := fun x => x.before h
  obtain ⟨l, hl, rfl⟩ := h
  obtain ⟨hcollecting, hstrokes, hnone⟩ := g
  refine ⟨fun hm hb => ?_, fun e rest hm hesc ho he => ?_, fun hn => ?_⟩
  · obtain ⟨⟨hrate, hcall, hkeep, hk⟩, hcoin⟩ := hcollecting hm hb
    exact ⟨⟨hrate, hcall, honly hkeep, hlink hk⟩, hcoin⟩
  · obtain ⟨⟨hrate, hcall, hkeep, hk⟩, hcoin⟩ := hstrokes e rest hm hesc ho he
    exact ⟨⟨hrate, hcall, honly hkeep, hlink hk⟩, hcoin⟩
  · obtain ⟨htransit, hfault, hgrace⟩ := hnone hn
    refine ⟨fun hx => ?_, fun sl ho hr => hends (hfault sl ho hr), fun hx ho => ?_⟩
    · obtain ⟨⟨hrate, hcall, hkeep, hk⟩, hcoin⟩ := htransit hx
      exact ⟨⟨hrate, hcall, honly hkeep, hlink hk⟩, hcoin⟩
    · obtain ⟨hbegins, hexpired⟩ := hgrace hx ho
      refine ⟨fun hg => ?_, fun sl hg hr => hends (hexpired sl hg hr)⟩
      obtain ⟨hrate, hcall, hkeep, hk⟩ := hbegins hg
      exact ⟨hrate, hcall, honly hkeep, hlink hk⟩

theorem SettlementRuns.before (g : SettlementRuns v t) (h : Notifies u v) : SettlementRuns u t := by
  obtain ⟨hcovers, hfollows, hwaits⟩ := g
  have hwaits' : v.rate.acct.unused < v.rate.acct.due → SettlementWaits u t := fun hx => (hwaits hx).before h
  have honly : OnlyChanges [.rate, .call] v t → OnlyChanges [.rate, .call] u t := h.andOnly
  have hlink : LinkKept v t → LinkKept u t := h.linkKept
  have hdone : Notifies (settlementDone u) (settlementDone v) := h.update settlementDone rfl fun _ => rfl
  obtain ⟨l, hl, rfl⟩ := h
  refine ⟨fun hc hh => ?_, fun sl hc hh hs ho hclosing hstart hrun hlog => ?_, hwaits'⟩
  · obtain ⟨hrate, hcall, hkeep, hk⟩ := hcovers hc hh
    exact ⟨hrate, hcall, honly hkeep, hlink hk⟩
  · exact FollowOnEnded.before (hfollows sl hc hh hs ho hclosing hstart hrun hlog) hdone

/-- A settlement that does not end the call tells CALL its phase, and no more. -/
theorem SettlementWaits.keeps (h : SettlementWaits u t) (ho : u.coin.order = .inOrder ∨ u.coin.transit.isSome = true)
    (hg : u.rate.graceExpired = false) :
    (∃ q, t.call = phaseTold u.rate.phase q u.now u.call) ∧ OnlyChanges [.rate, .call, .coin] u t := by
  obtain ⟨hcollecting, hstrokes, hnone⟩ := h
  have hrest (hn : NoStroke u) :
      (∃ q, t.call = phaseTold u.rate.phase q u.now u.call) ∧ OnlyChanges [.rate, .call, .coin] u t := by
    obtain ⟨htransit, -, hgrace⟩ := hnone hn
    by_cases hx : u.coin.transit.isSome = true
    · obtain ⟨⟨-, hcall, hkeep, -⟩, -⟩ := htransit hx
      exact ⟨⟨_, hcall⟩, hkeep⟩
    · obtain ⟨-, hcall, hkeep, -⟩ := (hgrace (Option.not_isSome_iff_eq_none.mp hx) (ho.resolve_right hx)).1 hg
      exact ⟨⟨_, hcall⟩, hkeep.wider (by decide)⟩
  cases hm : u.coin.mover with
  | idle =>
    cases hl : u.coin.escrow with
    | nil => exact hrest (.inl ⟨hm, .inl hl⟩)
    | cons e rest =>
      cases hord : u.coin.order with
      | outOfOrder => exact hrest (.inl ⟨hm, .inr (.inl hord)⟩)
      | inOrder =>
        cases helse : escrowElsewhere u with
        | true => exact hrest (.inl ⟨hm, .inr (.inr helse)⟩)
        | false =>
          obtain ⟨⟨-, hcall, hkeep, -⟩, -⟩ := hstrokes e rest hm hl hord helse
          exact ⟨⟨_, hcall⟩, hkeep⟩
  | collecting =>
    cases hb : u.coin.blind with
    | true => exact hrest (.inr (.inr ⟨hm, hb⟩))
    | false =>
      obtain ⟨⟨-, hcall, hkeep, -⟩, -⟩ := hcollecting hm hb
      exact ⟨⟨_, hcall⟩, hkeep⟩
  | refunding => exact hrest (.inr (.inl hm))

/-! ### The account at the answer (R89) -/

theorem setInUse_taken (n : BankName) (s : State) : setInUse n true s = { s with bank := bankTaken n s.bank } := by
  cases n <;> rfl

theorem clampPeriod_limits (d : Nat) : (clampPeriod d 0).1 = min 36000 (max 5 d) := by
  unfold clampPeriod
  split
  · next h => rw [Nat.max_eq_left (Nat.le_of_lt h)]; rfl
  · next h =>
    rw [Nat.max_eq_right (Nat.le_of_not_lt h)]
    split
    · next hd => exact (Nat.min_eq_left (Nat.le_of_lt hd)).symm
    · next hd => exact (Nat.min_eq_right (Nat.le_of_not_lt hd)).symm

/-- R13: the bank in use, and the account opened. -/
def accountStarted (n : BankName) (cls : Nat) (p : Price) (k : Nat) (pulse : Option Bool) (s : State) : State :=
  { s with bank := bankTaken n s.bank, rate := answerRate n cls p k pulse s }

/-- R89 steps 1 to 4: the account before its first step. -/
def accountOpened (n : BankName) (cls : Nat) (p : Price) (k : Nat) (m : ConfigMode) (s : State) : State :=
  { s with
    bank := bankTaken n s.bank
    rate := { RateBlock.inactive with
      phase := .settling, cls := some cls, bank := some n, initial := p.initial, rates := p.rates
      step := s.config.chargeStep, mode := some (ratingModeOf m), fixedMode := m, answerAt := s.now
      held := if s.line.absentSince.isSome then [⟨s.now, p.initial, false⟩] else []
      acct := { carried := k, unused := k, due := if s.line.absentSince.isSome then 0 else p.initial } } }

/-- The account before its initial charge. -/
def accountBare (n : BankName) (cls : Nat) (p : Price) (k : Nat) (m : ConfigMode) (s : State) : State :=
  { s with
    bank := bankTaken n s.bank
    rate := { RateBlock.inactive with
      phase := .settling, cls := some cls, bank := some n, initial := p.initial, rates := p.rates
      step := s.config.chargeStep, mode := some (ratingModeOf m), fixedMode := m, answerAt := s.now
      acct := { carried := k, unused := k } } }

theorem openAccount_charged {n : BankName} {cls k : Nat} {p : Price} {b : Bool} : openAccount cls n p k b s =
    takeOrHold ⟨s.now, p.initial, false⟩ (accountBare n cls p k (answerMode s b) s) := by
  unfold openAccount
  dsimp only
  rw [setInUse_taken]
  rfl

theorem openAccount_eq {n : BankName} {cls k : Nat} {p : Price} {b : Bool} :
    openAccount cls n p k b s = accountOpened n cls p k (answerMode s b) s := by
  rw [openAccount_charged]
  cases ha : s.line.absentSince with
  | some x =>
    have hsome : (accountBare n cls p k (answerMode s b) s).line.absentSince.isSome = true := by
      show s.line.absentSince.isSome = true; rw [ha]; rfl
    rw [takeOrHold_holds hsome]
    unfold accountOpened stepHeld
    rw [ha]
    rfl
  | none =>
    rw [takeOrHold_takes (s := accountBare n cls p k (answerMode s b) s) ha]
    unfold accountOpened stepsTaken accountBare
    rw [ha]
    simp [RateBlock.inactive]

section Opened

variable {n : BankName} {cls k : Nat} {p : Price} {m : ConfigMode}

theorem accountOpened_contents :
    ((accountOpened n cls p k m s).bank.get n).contents = (s.bank.get n).contents := by cases n <;> rfl

theorem accountOpened_band : resolveBand (accountOpened n cls p k m s) n = resolveBand s n := by
  unfold resolveBand
  rw [accountOpened_contents]
  rfl

theorem accountOpened_rate {b : Nat} : rateIn (accountOpened n cls p k m s) n cls b = rateIn s n cls b := by
  unfold rateIn priceIn
  rw [accountOpened_contents]

theorem accountOpened_period {r c : Nat} : periodFor (accountOpened n cls p k m s) n r c =
    if r = 0 then zeroPeriod (s.bank.get n).contents s.store.clock else periodOf s.config.chargeStep r c := by
  unfold periodFor
  rw [accountOpened_contents]
  rfl

/-- R89, R97: in LOCAL mode the first period begins with the account. -/
theorem firstPeriod_eq (hm : s.config.ratingMode = .localTiming) :
    startPeriod none s.now (accountOpened n cls p k .localTiming s) = accountStarted n cls p k none s := by
  rw [startPeriod_taken rfl rfl]
  unfold periodTaken periodStep periodBegun accountStarted answerRate
  dsimp only
  rw [accountOpened_band, accountOpened_rate, accountOpened_period, hm]
  cases ha : s.line.absentSince with
  | some x =>
    have hsome : (accountOpened n cls p k .localTiming s).line.absentSince.isSome = true := by
      show s.line.absentSince.isSome = true; rw [ha]; rfl
    rw [if_pos hsome]
    unfold stepHeld accountOpened
    rw [ha]
    rfl
  | none =>
    have hnone : ¬ (accountOpened n cls p k .localTiming s).line.absentSince.isSome = true := by
      show ¬ s.line.absentSince.isSome = true; rw [ha]; decide
    rw [if_neg hnone]
    unfold stepCounted accountOpened
    rw [ha]
    rfl

/-- R102: the account with its supervision limit. -/
def accountSupervised (n : BankName) (cls : Nat) (s : State) : State :=
  let r := rateIn s n cls (resolveBand s n).1
  let limit := if r = 0 then 0 else 2 * min 36000 (max 5 (600 * s.rate.step / r)) + 50
  { s with rate := { s.rate with
    band := some (resolveBand s n).1, rate := r, limit := limit
    superTimer := if r = 0 then none else some (s.now + limit * 100)
    flags := { s.rate.flags with clockUnset := s.rate.flags.clockUnset || s.store.clock.isNone } } }

theorem beginSupervision_eq : beginSupervision n cls s = accountSupervised n cls s := by
  unfold beginSupervision armSupervision accountSupervised supervisionLimit
  dsimp only
  rw [resolveBand_unset, clampPeriod_limits]
  by_cases hr : rateIn s n cls (resolveBand s n).1 = 0
  · rw [if_pos hr, if_pos hr]; rfl
  · rw [if_neg hr, if_neg hr, if_neg (Nat.succ_ne_zero _)]; rfl

/-- R89, R101, R102: in METER mode supervision begins with the account, and the answering pulse is charged. -/
theorem firstPulse_eq {pulse : Option Bool} (hm : pulse.isSome = true ∨ s.config.ratingMode = .meter) :
    firstPulse pulse.isSome (pulse.getD false) (beginSupervision n cls (accountOpened n cls p k .meter s)) =
      accountStarted n cls p k pulse s := by
  rw [beginSupervision_eq]
  unfold accountSupervised accountStarted
  dsimp only
  rw [accountOpened_band, accountOpened_rate]
  unfold answerRate
  cases pulse with
  | some g => rfl
  | none =>
    have hmode : s.config.ratingMode = .meter := hm.resolve_left nofun
    dsimp only
    rw [hmode]
    rfl

/-- R89: the account at the answer, settled. -/
theorem startAccount_eq {pulse : Option Bool} : startAccount cls n p k pulse.isSome (pulse.getD false) s =
    settle (accountStarted n cls p k pulse s) := by
  unfold startAccount
  rw [openAccount_eq]
  cases hm : answerMode s pulse.isSome with
  | localTiming =>
    cases pulse with
    | some g => exact nomatch hm
    | none => exact congrArg settle (firstPeriod_eq hm)
  | meter =>
    refine congrArg settle (firstPulse_eq ?_)
    cases pulse with
    | some g => exact .inl rfl
    | none => exact .inr hm

end Opened

/-! ### CALL at the answer (R13) -/

/-- The record's slot with the answer marked. -/
def answeredSlot (s : State) (sl : Slot) : Slot :=
  { sl with
    answerElapsed := some ((s.now - sl.offAt) / 100)
    record := { sl.record with
      answer := s.store.clock
      flags := { sl.record.flags with clockUnset := sl.record.flags.clockUnset || s.store.clock.isNone } } }

/-- The answer marked in the open record. -/
def answerMarked (sl : Slot) (s : State) : State :=
  { s with call := { s.call with answerTimer := none, openSlot := some (answeredSlot s sl) } }

theorem markAnswer_eq {sl : Slot} (ho : s.call.openSlot = some sl) : markAnswer s = answerMarked sl s := by
  unfold markAnswer
  dsimp only
  rw [ho]
  rfl

/-- The bank named in the open record. -/
def pricedSlot (n : BankName) (s : State) (sl : Slot) : Slot :=
  { answeredSlot s sl with
    record := { (answeredSlot s sl).record with bank := some (n, (s.bank.get n).contents.label) } }

/-- CALL in CONNECTED, with `sl` the open record. -/
def callConnected (sl : Slot) (s : State) : State := { s with call := connectedCall sl s }

theorem setCallState_connected {sl : Slot} (x : State) (hx : inState .connected x = callConnected sl s) :
    Notifies (callConnected sl s) (setCallState .connected x) := hx ▸ setCallState_notifies ..

theorem answerMarked_only {sl : Slot} : OnlyChanges [.call] s (answerMarked sl s) := only_call .refl (by decide)

theorem answerMarked_bare {sl : Slot} (h : BareCall s sl) : BareCall (answerMarked sl s) (answeredSlot s sl) := by
  obtain ⟨-, hrest⟩ := h
  exact ⟨rfl, hrest⟩

theorem openKind_of {sl : Slot} (ho : s.call.openSlot = some sl) : openKind s = sl.record.kind := by
  unfold openKind; rw [ho]; rfl

theorem answerCall_other {sl : Slot} {b g : Bool} (hs : s.call.state = .ringing) (ho : s.call.openSlot = some sl)
    (hk : sl.record.kind ≠ .charged) : answerCall b g s = setCallState .connected (answerMarked sl s) := by
  unfold answerCall
  rw [if_pos hs, markAnswer_eq ho]
  exact if_neg (by rw [openKind_of ho]; exact hk)

theorem answerCall_charged {sl : Slot} {b g : Bool} (hs : s.call.state = .ringing) (ho : s.call.openSlot = some sl)
    (hk : sl.record.kind = .charged) : answerCall b g s = answerCharged b g (answerMarked sl s) := by
  unfold answerCall
  rw [if_pos hs, markAnswer_eq ho]
  exact if_pos (by rw [openKind_of ho]; exact hk)

theorem answerCharged_refused {sl : Slot} {b g : Bool} (h : activeBank s = none ∨ sl.record.cls = none
      ∨ ∃ n cls, activeBank s = some n ∧ sl.record.cls = some cls ∧ priceIn s n cls = none) :
    answerCharged b g (answerMarked sl s) = endCall .refused s.now (answerMarked sl s) := by
  have hbank : activeBank (answerMarked sl s) = activeBank s := rfl
  have hcls : openCls (answerMarked sl s) = sl.record.cls := rfl
  unfold answerCharged
  rw [hbank, hcls]
  rcases h with h | h | ⟨n, cls, h, hc, hp⟩
  · rw [h]
    rfl
  · rw [h]
    cases activeBank s <;> rfl
  · have hprice : priceIn (answerMarked sl s) n cls = none := hp
    rw [h, hc]
    dsimp only
    rw [hprice]
    rfl

theorem answerCharged_opens {sl : Slot} {pulse : Option Bool} {n : BankName} {cls : Nat} {p : Price}
    (hn : activeBank s = some n) (hc : sl.record.cls = some cls) (hp : priceIn s n cls = some p) : ∃ x,
    Notifies (accountStarted n cls p sl.record.carriedIn pulse (callConnected (pricedSlot n s sl) s)) x
      ∧ answerCharged pulse.isSome (pulse.getD false) (answerMarked sl s) = actVerdict (settle x) := by
  have hbank : activeBank (answerMarked sl s) = some n := hn
  have hcls : openCls (answerMarked sl s) = some cls := hc
  have hprice : priceIn (answerMarked sl s) n cls = some p := hp
  have hconnected := setCallState_connected (s := s) (sl := pricedSlot n s sl)
    (modifyOpen (fun r => { r with bank := some (n, (s.bank.get n).contents.label) }) (answerMarked sl s)) rfl
  refine ⟨_, hconnected.update (accountStarted n cls p sl.record.carriedIn pulse) rfl fun _ => rfl, ?_⟩
  unfold answerCharged
  rw [hbank, hcls]
  dsimp only
  rw [hprice]
  exact congrArg actVerdict startAccount_eq

theorem answerRate_grace (n : BankName) (cls : Nat) (p : Price) (k : Nat) (pulse : Option Bool) (s : State) :
    (answerRate n cls p k pulse s).graceExpired = false := by
  unfold answerRate
  dsimp only
  split <;> rfl

section Connected

variable {n : BankName} {cls : Nat} {p : Price} {k : Nat} {pulse : Option Bool} {sl : Slot}

/-- CALL stays in CONNECTED with the open record while only a phase is told. -/
theorem connected_stays {q : Phase}
    (hcall : t.call = phaseTold (answerRate n cls p k pulse u).phase q u.now (connectedCall sl u))
    (hbank : t.bank = bankTaken n u.bank) :
    t.call.state = .connected ∧ t.call.answerTimer = none ∧ t.call.openSlot = some sl ∧ t.bank = bankTaken n u.bank := by
  obtain ⟨a, b, h, heq⟩ := phaseTold_eq (answerRate n cls p k pulse u).phase q u.now (connectedCall sl u)
  rw [hcall, heq]
  exact ⟨rfl, rfl, rfl, hbank⟩

theorem connected_covers (h : SettlementRuns (accountStarted n cls p k pulse (callConnected sl u)) t)
    (hd : (answerRate n cls p k pulse u).acct.due ≤ (answerRate n cls p k pulse u).acct.unused)
    (hh : u.call.heldFollowOn = false) :
    t.call.state = .connected ∧ t.call.answerTimer = none ∧ t.call.openSlot = some sl ∧ t.bank = bankTaken n u.bank := by
  obtain ⟨hcovers, -, -⟩ := h
  obtain ⟨-, hcall, honly, -⟩ := hcovers hd hh
  exact connected_stays hcall (honly .bank (by decide))

theorem connected_waits (h : SettlementRuns (accountStarted n cls p k pulse (callConnected sl u)) t)
    (hd : (answerRate n cls p k pulse u).acct.unused < (answerRate n cls p k pulse u).acct.due)
    (hw : u.coin.order = .inOrder ∨ u.coin.transit.isSome = true) :
    t.call.state = .connected ∧ t.call.answerTimer = none ∧ t.call.openSlot = some sl ∧ t.bank = bankTaken n u.bank := by
  obtain ⟨-, -, hwaits⟩ := h
  obtain ⟨⟨q, hcall⟩, honly⟩ := (hwaits hd).keeps hw (answerRate_grace ..)
  exact connected_stays hcall (honly .bank (by decide))

end Connected

/-- R13, R89: what CALL in RINGING makes of an answer. -/
theorem answerTaken {s0 : State} {sl : Slot} {pulse : Option Bool} (hs : u.call.state = .ringing)
    (ho : u.call.openSlot = some sl) :
    AnswerTaken pulse u (finish s0 (answerCall pulse.isSome (pulse.getD false) u)) sl := by
  have hlink : LinkKept u (finish s0 (answerCall pulse.isSome (pulse.getD false) u)) := linkKept_of_kept answerCall_kept
  refine ⟨fun hk => ?_, fun hk hb h => ?_, fun n cls p hk hn hc hp => ?_⟩
  · rw [answerCall_other hs ho hk] at hlink ⊢
    have hn := setCallState_connected (s := u) (sl := answeredSlot u sl) (answerMarked sl u) rfl
    have hbody := (finish_body s0 _).trans hn.body
    exact ⟨same_of_body hbody .call,
      (only_call (t := u) .refl (by decide)).step (only_of_body (l := []) hbody) (List.nil_subset _), hlink⟩
  · rw [answerCall_charged hs ho hk, answerCharged_refused h] at hlink ⊢
    exact (callEnded_bare (answerMarked_bare hb)).before (answerMarked_only.wider (by decide)) rfl hlink
  · obtain ⟨x, hx, hcharged⟩ := answerCharged_opens (pulse := pulse) hn hc hp
    rw [answerCall_charged hs ho hk, hcharged]
    have hruns := SettlementRuns.before (settlementRuns_alone (u := x) (s0 := s0)) hx
    exact ⟨hruns, fun hd hh => connected_covers hruns hd hh, fun hd hw => connected_waits hruns hd hw⟩

theorem answerCall_elsewhere {b g : Bool} (h : s.call.state ≠ .ringing) : answerCall b g s = s := if_neg h

/-! ### An accepted reversal (O49) -/

/-- R57: LINE's marks of an accepted reversal. -/
def reversed (s : State) : State :=
  { s with
    pins := { s.pins with polarity := !s.line.reference }
    line := { s.line with reversed := true, holdSince := none, polaritySeen := !s.line.reference } }

theorem exec_reversalAccepted (ha : alive s = true) (hc : callSeized s.line = true) (hr : s.line.reversed = false) :
    exec .reversalAccepted s = .next (finish s (acceptReversal s)) := exec_alive ha (if_pos ⟨hc, hr⟩)

theorem acceptReversal_marks (h : s.line.answered = true ∨ s.config.reversalAnswer = false) :
    acceptReversal s = reversed s := by
  refine if_neg fun ⟨hn, hr⟩ => ?_
  rcases h with h | h
  · exact nomatch h.symm.trans hn
  · exact nomatch h.symm.trans hr

theorem acceptReversal_answers (hn : s.line.answered = false) (hr : s.config.reversalAnswer = true) :
    acceptReversal s = answerCall false false (setAnswered (reversed s)) := if_pos ⟨hn, hr⟩

/-- What LINE alone has marked is not told. -/
theorem lineMarked_effect (hkept : Kept True s u) (h : OnlyChanges [.pins, .line] s u) (hlink : u.link = s.link) :
    Posted [] s (finish s u) ∧ (finish s u).body = u.body :=
  ⟨(finish_quiet hkept h hlink (by decide)).2.1, finish_body ..⟩

theorem reversed_only : OnlyChanges [.pins, .line] s (reversed s) := by
  intro p hp
  cases p
  case clock => exact ⟨rfl, rfl⟩
  case pins | line => exact absurd (by decide) hp
  all_goals rfl

theorem setAnswered_line : OnlyChanges [.pins, .line] s (setAnswered s) := only_line .refl (by decide)

/-! ### Meter pulses (O50) -/

theorem exec_meterPulse {long : Bool} (ha : alive s = true) : exec (.meterPulse long) s =
    .next (finish s (if pulseArises s then disposePulse long s else s)) := exec_alive ha rfl

theorem pulseArises_not {since : Nat} (hs : s.line.absentSince = some since) (h : since < s.now) :
    ¬ pulseArises s = true := by
  unfold pulseArises
  rw [hs]
  dsimp only
  rw [decide_eq_false (Nat.not_le.mpr h), Bool.and_false]
  exact Bool.false_ne_true

theorem pulseArises_of (hc : callSeized s.line = true) (hm : s.line.meter.active = true)
    (h : ∀ since, s.line.absentSince = some since → s.now ≤ since) : pulseArises s = true := by
  unfold pulseArises
  rw [hc, hm]
  cases hs : s.line.absentSince with
  | none => rfl
  | some since => exact decide_eq_true (h since hs)

theorem disposePulse_answered {long : Bool} (h : s.line.answered = true) :
    disposePulse long s = actVerdict (takePulse long s) := if_pos h

theorem disposePulse_disregarded {long : Bool} (h : s.line.answered = false) (hm : s.config.ratingMode = .localTiming) :
    disposePulse long s = s := by
  unfold disposePulse
  rw [h, hm]
  rfl

theorem disposePulse_answers {long : Bool} (h : s.line.answered = false) (hm : s.config.ratingMode = .meter) :
    disposePulse long s = answerCall true long (setAnswered s) := by
  unfold disposePulse
  rw [h, hm]
  rfl

/-- R101: the pulse counted. -/
def pulseCounted (long : Bool) (s : State) : RateBlock :=
  { s.rate with
    pulses := s.rate.pulses + 1, flags := { s.rate.flags with longPulse := s.rate.flags.longPulse || long } }

/-- R102: the supervision timer after a pulse. -/
def supervisionArmed (s : State) : Option Nat :=
  if s.rate.limit = 0 then none else some (s.now + s.rate.limit * 100)

/-- RATE after a pulse in METER, its step due. -/
def pulseCharged (long : Bool) (s : State) : State :=
  { s with rate := { pulseCounted long s with
    superTimer := supervisionArmed s, acct := { s.rate.acct with due := s.rate.acct.due + s.rate.step } } }

/-- R103: RATE after a pulse that METER_FALLBACK absorbs. -/
def pulseAbsorbed (long : Bool) (s : State) : State :=
  { s with rate := { pulseCounted long s with mode := some .meter, period := none, superTimer := supervisionArmed s } }

theorem takePulse_unrated {long : Bool} (h : rating s = false) : takePulse long s = (s, .nothing) :=
  if_neg (by rw [h]; decide)

theorem takePulse_meter {long : Bool} (h : rating s = true) (hm : s.rate.mode = some .meter) :
    takePulse long s = settleDue (pulseCharged long s) := by
  unfold takePulse
  rw [if_pos h, hm]
  rfl

theorem takePulse_fallback {long : Bool} (h : rating s = true) (hm : s.rate.mode = some .meterFallback) :
    takePulse long s = (pulseAbsorbed long s, .nothing) := by
  unfold takePulse
  rw [if_pos h, hm]
  rfl

theorem takePulse_local {long : Bool} (h : rating s = true) (hm : s.rate.mode = some .localTiming) :
    takePulse long s = ({ s with rate := pulseCounted long s }, .nothing) := by
  unfold takePulse
  rw [if_pos h, hm]
  rfl

theorem pulseCharged_effect {long : Bool} (hr : rating s = true) :
    let t := finish s (actVerdict (settleDue (pulseCharged long s)))
    (s.rate.acct.due + s.rate.step = 0 → t.rate = (pulseCharged long s).rate ∧ OnlyChanges [.rate] s t)
      ∧ (0 < s.rate.acct.due + s.rate.step → SettlementRuns (pulseCharged long s) t) := by
  refine ⟨fun hd => ?_, fun hd => ?_⟩
  · rw [settleDue_nothing (s := pulseCharged long s) (.inr hd)]
    exact ⟨finish_rate .., only_finish (only_rate .refl (by decide))⟩
  · rw [settleDue_runs (s := pulseCharged long s) hr hd]
    exact settlementRuns_alone

/-- A step that does nothing posts nothing. -/
theorem nothing_effect : Posted [] s (finish s s) ∧ (finish s s).body = s.body :=
  (finish_silent .refl rfl rfl rfl rfl).2

theorem pulseCounted_effect {long : Bool} : Posted [] s (finish s { s with rate := pulseCounted long s })
    ∧ (finish s { s with rate := pulseCounted long s }).body = { s with rate := pulseCounted long s }.body :=
  (finish_silent (s := s) (u := { s with rate := pulseCounted long s }) (.of_core rfl) rfl rfl rfl rfl).2

end Sys2Proof.Machine

open Sys2Proof Sys2Proof.Machine

/-- Settles O49: the marks are LINE's alone, and the answer is `answerTaken`. -/
theorem reversalAnswersTheCall : Obligations.ReversalAnswersTheCall := by
  intro s ha hc hr
  refine ⟨_, exec_reversalAccepted ha hc hr, linkKept_of_kept acceptReversal_kept, fun h => ?_,
    fun hn han => ⟨fun hs => ?_, fun sl hs ho => ?_⟩⟩
  · have hkept : Kept True s (acceptReversal s) := acceptReversal_kept
    rw [acceptReversal_marks h] at hkept ⊢
    exact lineMarked_effect hkept reversed_only rfl
  · have hkept : Kept True s (acceptReversal s) := acceptReversal_kept
    rw [acceptReversal_answers hn han, answerCall_elsewhere (s := setAnswered (reversed s)) hs] at hkept ⊢
    exact lineMarked_effect hkept (reversed_only.step setAnswered_line (List.Subset.refl _)) rfl
  · rw [acceptReversal_answers hn han]
    exact answerTaken (u := setAnswered (reversed s)) (pulse := none) hs ho

/-- Settles O50: a pulse of a rated call is charged and settled, absorbed or counted, and one that answers is
`answerTaken`. -/
theorem meterPulsesAreCharged : Obligations.MeterPulsesAreCharged := by
  intro long s ha hc hm
  refine ⟨_, exec_meterPulse ha, linkKept_of_kept ?_, fun since hs h => ?_, fun h han => ?_, fun h han => ?_⟩
  · split
    · exact disposePulse_kept
    · exact .refl
  · rw [if_neg (pulseArises_not hs h)]
    exact nothing_effect
  · rw [if_pos (pulseArises_of hc hm h), disposePulse_answered han]
    refine ⟨fun hr => ?_, fun hr hmode => ?_, fun hr hmode => ?_, fun hr hmode => ?_⟩
    · rw [takePulse_unrated hr]
      exact nothing_effect
    · rw [takePulse_meter hr hmode]
      exact pulseCharged_effect hr
    · rw [takePulse_fallback hr hmode]
      exact ⟨finish_rate .., only_finish (only_rate .refl (by decide))⟩
    · rw [takePulse_local hr hmode]
      exact pulseCounted_effect
  · rw [if_pos (pulseArises_of hc hm h)]
    refine ⟨fun hmode => ?_, fun hmode => ⟨fun hs => ?_, fun sl hs ho => ?_⟩⟩
    · rw [disposePulse_disregarded han hmode]
      exact nothing_effect
    · rw [disposePulse_answers han hmode, answerCall_elsewhere (s := setAnswered s) hs]
      exact lineMarked_effect setAnswered_kept setAnswered_line rfl
    · rw [disposePulse_answers han hmode]
      exact answerTaken (u := setAnswered s) (pulse := some long) hs ho

end

section
/-! O54: a coin in entry transit that the sensor confirms, or that stays unconfirmed. -/

namespace Sys2Proof.Machine

variable {s t u v w : State}

/-! ### What RATE makes of a coin's outcome (R92 to R94) -/

theorem coinOutcome_unrated (h : rating s = false) : coinOutcome s = (s, .nothing) := if_neg (by rw [h]; decide)

theorem coinOutcome_waits (h : rating s = true) (hd : 0 < s.rate.acct.due) : coinOutcome s = settle s := by
  unfold coinOutcome; rw [if_pos h, if_pos hd]

theorem coinOutcome_idle (h : rating s = true) (hd : s.rate.acct.due = 0) :
    coinOutcome s = (phaseMoved (warnPhase s) s, .nothing) := by
  unfold coinOutcome
  rw [if_pos h, if_neg (by rw [hd]; decide), warningTest_eq]

theorem coinOutcome_rated {s0 : State} (hr : rating u = true)
    (hw : Quiesces u (actVerdict (coinOutcome u)) → Notifies (actVerdict (coinOutcome u)) w)
    (hlink : LinkKept u (finish s0 w)) :
    (u.rate.acct.due = 0 → (finish s0 w).rate = { u.rate with phase := warnPhase (finish s0 w) }
        ∧ (finish s0 w).coin = u.coin
        ∧ (finish s0 w).call = phaseTold u.rate.phase (warnPhase (finish s0 w)) u.now u.call
        ∧ OnlyChanges [.call, .rate] u (finish s0 w))
      ∧ (0 < u.rate.acct.due → SettlementRuns u (finish s0 w)) := by
  refine ⟨fun hd => ?_, fun hd => ?_⟩
  · have hverdict : actVerdict (coinOutcome u) = phaseMoved (warnPhase u) u := by rw [coinOutcome_idle hr hd]; rfl
    rw [hverdict] at hw
    obtain ⟨-, hended, -⟩ := warnPhase_not u
    have hn : Notifies (phaseMoved (warnPhase u) u) w := hw (quiesces_moved hended rfl ⟨rfl, rfl⟩ rfl)
    have hwarn : warnPhase (finish s0 w) = warnPhase u :=
      (warnPhase_of_body ((finish_body s0 w).trans hn.body)).trans (warnPhase_moved ..)
    obtain ⟨hrate, hcall, hcoin, honly⟩ := phaseMoved_result hn (s0 := s0)
    rw [hwarn]
    exact ⟨hrate, hcoin, hcall, honly.wider (by decide)⟩
  · rw [coinOutcome_waits hr hd] at hw
    exact settlementRuns hw hlink

/-! ### A coin confirmed (R67) -/

/-- COIN with the coin at the escrow's tail. -/
def coinEntered (x : Transit) (s : State) : CoinBlock :=
  { s.coin with
    escrow := s.coin.escrow ++ [⟨x.denom, x.value, x.suspect, some s.now, none, false⟩]
    transit := none, unconfirmed := 0 }

/-- The open slot with the coin counted. -/
def slotEntered (x : Transit) (s : State) (sl : Slot) : Slot :=
  { sl.modify (fun r => { r with
      accepted := bumpNth (x.denom - 1) r.accepted
      flags := { r.flags with suspectCoin := r.flags.suspectCoin || x.suspect } }) with
    lastCoin := some (s.coin.gone + s.coin.escrow.length + 1, x.denom) }

/-- The vault and the incidents after the coin has joined the escrow. -/
def vaultEntered (x : Transit) (s : State) : State := vaultRefresh { s with coin := coinEntered x s }

def coinJoined (x : Transit) (sl : Slot) (s : State) : State :=
  { s with
    coin := coinEntered x s
    call := { s.call with openSlot := some (slotEntered x s sl) }
    vault := (vaultEntered x s).vault
    incd := (vaultEntered x s).incd }

/-- The state in which RATE and CALL are told of the coin. -/
def coinTold (x : Transit) (s : State) : State := countEntered x (appendCoin x s)

theorem coinTold_notifies {x : Transit} {sl : Slot} (ho : s.call.openSlot = some sl) :
    Notifies (coinJoined x sl s) (coinTold x s) := by
  have hn : Notifies { s with
      coin := coinEntered x s, vault := (vaultEntered x s).vault, incd := (vaultEntered x s).incd } (appendCoin x s) :=
    vaultRefresh_notifies { s with coin := coinEntered x s }
  have hcall : (appendCoin x s).call = s.call := hn.same .call
  have hcoin : (appendCoin x s).coin = coinEntered x s := hn.same .coin
  have hentered : enteredCoins (coinEntered x s) = s.coin.gone + s.coin.escrow.length + 1 := by
    unfold enteredCoins coinEntered
    rw [List.length_append, List.length_singleton, Nat.add_assoc]
  have htold : coinTold x s = setOpen (some (slotEntered x s sl)) (appendCoin x s) := by
    unfold coinTold countEntered
    rw [hcall, ho, hcoin, hentered]
    rfl
  rw [htold]
  exact hn.update (setOpen (some (slotEntered x s sl))) rfl fun _ => rfl

theorem coinJoined_only {x : Transit} {sl : Slot} : OnlyChanges [.coin, .call, .vault, .incd] s (coinJoined x sl s) := by
  intro p hp
  cases p
  case clock => exact ⟨rfl, rfl⟩
  case coin | call | vault | incd => exact absurd (by decide) hp
  all_goals rfl

theorem vaultEntered_vault (x : Transit) (s : State) : (vaultEntered x s).vault.counters = s.vault.counters
    ∧ (vaultEntered x s).vault.full = vaultAtCapacity { s with coin := coinEntered x s } := by
  unfold vaultEntered
  rw [vaultRefresh_vault]
  exact ⟨rfl, rfl⟩

theorem callE_entered {x : Transit} {sl : Slot} (hu : Undisturbed s) :
    callE (coinJoined x sl s) = callE s + x.value := by
  obtain ⟨hrun, -, hstart, hclosing, -⟩ := hu
  obtain ⟨-, hown⟩ := ownEscrow_open hclosing hstart hrun
  obtain ⟨-, hjoined⟩ := ownEscrow_open (s := coinJoined x sl s) hclosing hstart hrun
  unfold callE
  rw [hown, hjoined]
  show ((s.coin.escrow ++ [_]).map EscrowEntry.value).sum = (s.coin.escrow.map EscrowEntry.value).sum + x.value
  rw [List.map_append, List.sum_append]
  rfl

/-- What follows RATE's outcome at a coin confirmed. -/
def coinConfirmed (x : Transit) (v : State) : State :=
  coinSettled (postCoin (.accepted x.denom x.value x.suspect) (depositAgain v))

theorem depositAgain_elsewhere (h : s.call.state ≠ .awaitDeposit) : depositAgain s = s := if_neg fun hx => h hx.1

theorem postCoin_notifies (o : CoinOutcome) (s : State) : Notifies s (postCoin o s) := notifies_post ..

theorem undisturbed_of_notifies (h : Notifies s t) (hs : Undisturbed s) : Undisturbed t := by
  obtain ⟨l, -, rfl⟩ := h; exact hs

theorem coinConfirmed_notifies {x : Transit} (h : Undisturbed (depositAgain v)) :
    Notifies (depositAgain v) (coinConfirmed x v) := by
  have hpost := postCoin_notifies (.accepted x.denom x.value x.suspect) (depositAgain v)
  unfold coinConfirmed
  rw [coinSettled_undisturbed (undisturbed_of_notifies hpost h)]
  exact hpost

theorem coinConfirmed_quiescent {x : Transit} (h : Quiescent v) : Notifies v (coinConfirmed x v) := by
  have hagain := depositAgain_elsewhere h.2
  have hn := coinConfirmed_notifies (x := x) (v := v) (by rw [hagain]; exact h.1)
  rw [hagain] at hn
  exact hn

theorem exec_entrySensor {x : Transit} (ha : alive s = true) (hx : s.coin.transit = some x) :
    exec .entrySensor s = .next (finish s (coinConfirmed x (actVerdict (coinOutcome (coinTold x s))))) :=
  exec_alive ha (by simp only [hx]; rfl)

/-! ### The line requested again (R10) -/

/-- A line request leaves the call waiting for the line or seizing it. -/
theorem lineRequest_state (hs : s.call.state ≠ .waitLine)
    (hd : unsendable s.config.sendingMethod (s.keys.buffer.map Symbol.dtmf) = false) : ∃ st y,
      (st = .waitLine ∨ st = .seizing) ∧ OnlyChanges [.line, .rpt, .start, .incd] s y
        ∧ Notifies (inState st y) (lineRequest s) := by
  obtain ⟨-, h⟩ | ⟨-, -, h⟩ | ⟨-, -, h⟩ := lineRequest_cases hs hd
  · exact ⟨.waitLine, _, .inl rfl, abortAttempt_only.wider (by decide), h ▸ setCallState_notifies ..⟩
  · exact ⟨.seizing, _, .inr rfl, seize_only.wider (by decide), h ▸ setCallState_notifies ..⟩
  · exact ⟨.waitLine, s, .inl rfl, .refl, h ▸ setCallState_notifies ..⟩

theorem lineRequest_call (hs : s.call.state ≠ .waitLine)
    (hd : unsendable s.config.sendingMethod (s.keys.buffer.map Symbol.dtmf) = false) :
    (lineRequest s).call.openSlot = s.call.openSlot ∧ (lineRequest s).call.depositTimer = s.call.depositTimer
      ∧ (lineRequest s).keys = s.keys ∧ (Undisturbed s → Undisturbed (lineRequest s)) := by
  obtain ⟨st, y, hst, honly, hn⟩ := lineRequest_state hs hd
  have hcall : (lineRequest s).call = (inState st y).call := hn.same .call
  have hy : y.call = s.call := honly .call (by decide)
  have hkeys : (lineRequest s).keys = s.keys := (hn.same .keys : _ = y.keys).trans (honly .keys (by decide))
  have hcoin : (lineRequest s).coin = s.coin := (hn.same .coin : _ = y.coin).trans (honly .coin (by decide))
  have hrate : (lineRequest s).rate = s.rate := (hn.same .rate : _ = y.rate).trans (honly .rate (by decide))
  have hstate : (lineRequest s).call.state ≠ .clearing := by
    rw [hcall]
    show st ≠ .clearing
    rcases hst with h | h <;> rw [h] <;> nofun
  refine ⟨?_, ?_, hkeys, fun ⟨hrun, hreport, hstart, hclosing, _, hc, hp⟩ => ⟨?_, ?_, ?_, ?_, hstate, ?_, ?_⟩⟩
  · rw [hcall, ← hy]; rfl
  · rw [hcall, ← hy]; rfl
  · rw [hcoin]; exact hrun
  · rw [hcoin]; exact hreport
  · rw [hcall]; show y.call.atStart = []; rw [hy]; exact hstart
  · rw [hcall]; show y.call.closingSlot = none; rw [hy]; exact hclosing
  · rw [hrate]; exact hc
  · rw [hrate]; exact hp

/-- R10: the deposit timer stopped. -/
def depositStopped (s : State) : State := { s with call := { s.call with depositTimer := none } }

theorem depositAgain_covered (hs : s.call.state = .awaitDeposit) (hc : depositCovered s = true) :
    depositAgain s = lineRequest (depositStopped s) := if_pos ⟨hs, hc⟩

theorem depositAgain_short (h : ¬ depositCovered s = true) : depositAgain s = s := if_neg fun hx => h hx.2

/-! ### The effects of a coin confirmed -/

section Confirmed

variable {x : Transit} {sl : Slot}

theorem coinJoined_result {s0 : State} (hn : Notifies (coinJoined x sl s) w) :
    (finish s0 w).coin = coinEntered x s
      ∧ (finish s0 w).call = { s.call with openSlot := some (slotEntered x s sl) }
      ∧ (finish s0 w).vault.counters = s.vault.counters
      ∧ (finish s0 w).vault.full = vaultAtCapacity (finish s0 w)
      ∧ OnlyChanges [.coin, .call, .vault, .incd] s (finish s0 w) := by
  have hbody := (finish_body s0 w).trans hn.body
  have hcoin : (finish s0 w).coin = coinEntered x s := same_of_body hbody .coin
  have hvault : (finish s0 w).vault = (vaultEntered x s).vault := same_of_body hbody .vault
  have hconfig : (finish s0 w).config = s.config := same_of_body hbody .config
  obtain ⟨hcounters, hfull⟩ := vaultEntered_vault x s
  have hload : vaultAtCapacity (finish s0 w) = vaultAtCapacity { s with coin := coinEntered x s } := by
    unfold vaultAtCapacity vaultLoad
    rw [hconfig, hcoin, hvault, hcounters]
  refine ⟨hcoin, same_of_body hbody .call, ?_, ?_, coinJoined_only.step (only_of_body (l := []) hbody)
    (List.nil_subset _)⟩
  · rw [hvault, hcounters]
  · rw [hload, hvault, hfull]

theorem coinTold_undisturbed (ho : s.call.openSlot = some sl) (hu : Undisturbed s) : Undisturbed (coinTold x s) := by
  obtain ⟨l, -, heq⟩ := coinTold_notifies (x := x) ho
  rw [heq]
  exact hu

theorem coinTold_state (ho : s.call.openSlot = some sl) : (coinTold x s).call.state = s.call.state
    ∧ (coinTold x s).rate = s.rate ∧ (coinTold x s).config = s.config ∧ (coinTold x s).keys = s.keys
    ∧ (coinTold x s).now = s.now := by
  obtain ⟨l, -, heq⟩ := coinTold_notifies (x := x) ho
  rw [heq]
  exact ⟨rfl, rfl, rfl, rfl, rfl⟩

theorem coinTold_kept (ho : s.call.openSlot = some sl) : OnlyChanges [.coin, .call, .vault, .incd] s (coinTold x s)
    ∧ LinkKept s (coinTold x s) ∧ (coinTold x s).coin = coinEntered x s
    ∧ (coinTold x s).call = { s.call with openSlot := some (slotEntered x s sl) }
    ∧ (coinTold x s).vault.counters = s.vault.counters := by
  have hn := coinTold_notifies (x := x) ho
  have hlink : LinkKept (coinJoined x sl s) (coinTold x s) := hn.linkKept (linkKept_of_link rfl)
  have hvault : (coinTold x s).vault = (vaultEntered x s).vault := hn.same .vault
  refine ⟨coinJoined_only.step hn.only (List.nil_subset _), hlink, hn.same .coin, hn.same .call, ?_⟩
  rw [hvault, (vaultEntered_vault x s).1]

theorem depositCovered_told (ho : s.call.openSlot = some sl) (hu : Undisturbed s) :
    depositCovered (coinTold x s) = true ↔ s.call.deposit ≤ sl.record.carriedIn + callE s + x.value := by
  have hsame : depositCovered (coinTold x s) = depositCovered (coinJoined x sl s) := by
    obtain ⟨l, -, heq⟩ := coinTold_notifies (x := x) ho
    rw [heq]
    rfl
  rw [hsame, Nat.add_assoc, ← callE_entered (x := x) (sl := sl) hu]
  exact decide_eq_true_iff

theorem coinConfirmed_unrated (ho : s.call.openSlot = some sl) (hr : rating s = false) :
    actVerdict (coinOutcome (coinTold x s)) = coinTold x s := by
  obtain ⟨-, hrate, -⟩ := coinTold_state (x := x) ho
  have hunrated : rating (coinTold x s) = false := by
    rw [rating_of_rate (congrArg RateBlock.closing hrate) (congrArg RateBlock.phase hrate)]; exact hr
  rw [coinOutcome_unrated hunrated]
  rfl

/-- R10: a deposit that is covered with the coin requests the line. -/
theorem coinConfirmed_requests {s0 : State} (ho : s.call.openSlot = some sl) (hu : Undisturbed s)
    (hs : s.call.state = .awaitDeposit) (hc : s.call.deposit ≤ sl.record.carriedIn + callE s + x.value)
    (hd : unsendable s.config.sendingMethod (s.keys.buffer.map Symbol.dtmf) = false) :
    ∃ u, OnlyChanges [.coin, .call, .vault, .incd] s u ∧ LinkKept s u ∧ u.coin = coinEntered x s
      ∧ u.call = { s.call with openSlot := some (slotEntered x s sl), depositTimer := none }
      ∧ u.vault.counters = s.vault.counters
      ∧ (finish s0 (coinConfirmed x (coinTold x s))).call.openSlot = some (slotEntered x s sl)
      ∧ (finish s0 (coinConfirmed x (coinTold x s))).call.depositTimer = none
      ∧ (finish s0 (coinConfirmed x (coinTold x s))).keys = s.keys
      ∧ LineRequested u (finish s0 (coinConfirmed x (coinTold x s))) := by
  obtain ⟨hstate, -, hconfig, hkeys, -⟩ := coinTold_state (x := x) ho
  obtain ⟨honly, hlink, hcoin, hcall, hcounters⟩ := coinTold_kept (x := x) ho
  have hagain : depositAgain (coinTold x s) = lineRequest (depositStopped (coinTold x s)) :=
    depositAgain_covered (hstate.trans hs) ((depositCovered_told ho hu).mpr hc)
  have hwait : (depositStopped (coinTold x s)).call.state ≠ .waitLine := by
    show (coinTold x s).call.state ≠ _
    rw [hstate, hs]; nofun
  have hsend : unsendable (depositStopped (coinTold x s)).config.sendingMethod
      ((depositStopped (coinTold x s)).keys.buffer.map Symbol.dtmf) = false := by
    show unsendable (coinTold x s).config.sendingMethod ((coinTold x s).keys.buffer.map Symbol.dtmf) = false
    rw [hconfig, hkeys]; exact hd
  obtain ⟨hopen, htimer, hkeep, hquiet⟩ := lineRequest_call hwait hsend
  have hn : Notifies (lineRequest (depositStopped (coinTold x s))) (coinConfirmed x (coinTold x s)) := hagain ▸
    coinConfirmed_notifies (x := x) (v := coinTold x s) (hagain ▸ hquiet (coinTold_undisturbed ho hu))
  have hbody := (finish_body s0 _).trans hn.body
  have hfcall : (finish s0 (coinConfirmed x (coinTold x s))).call = (lineRequest (depositStopped (coinTold x s))).call :=
    same_of_body hbody .call
  refine ⟨depositStopped (coinTold x s), only_call honly (by decide), hlink, hcoin, ?_, hcounters, ?_, ?_, ?_,
    lineRequested .refl rfl rfl hwait hsend hn⟩
  · unfold depositStopped; rw [hcall]
  · rw [hfcall, hopen]; exact congrArg CallBlock.openSlot hcall
  · rw [hfcall, htimer]; rfl
  · exact ((same_of_body hbody .keys : _ = _).trans hkeep).trans hkeys

/-- R92 to R94: a coin confirmed while RATE rates the call. -/
theorem coinConfirmed_rated {s0 : State} (ho : s.call.openSlot = some sl) (hu : Undisturbed s)
    (hs : s.call.state ≠ .awaitDeposit) (hr : rating s = true) :
    let t := finish s0 (coinConfirmed x (actVerdict (coinOutcome (coinTold x s))))
    (s.rate.acct.due = 0 → t.rate = { s.rate with phase := warnPhase t } ∧ t.coin = coinEntered x s
        ∧ t.call = phaseTold s.rate.phase (warnPhase t) s.now (coinTold x s).call
        ∧ OnlyChanges [.call, .rate] (coinTold x s) t)
      ∧ (0 < s.rate.acct.due → SettlementRuns (coinTold x s) t) := by
  intro t
  obtain ⟨hstate, hrate, -, -, hnow⟩ := coinTold_state (x := x) ho
  obtain ⟨-, -, hcoin, -⟩ := coinTold_kept (x := x) ho
  have hrated : rating (coinTold x s) = true := by
    rw [rating_of_rate (congrArg RateBlock.closing hrate) (congrArg RateBlock.phase hrate)]; exact hr
  have hkept : Kept True (coinTold x s) (coinConfirmed x (actVerdict (coinOutcome (coinTold x s)))) :=
    .after coinSettled_kept (.after post_kept (.after depositAgain_kept (actVerdict_kept coinOutcome_kept)))
  have heffect := coinOutcome_rated (s0 := s0) hrated
    (fun hq => coinConfirmed_quiescent (x := x)
      ⟨hq.1 (coinTold_undisturbed ho hu), hq.2 (by rw [hstate]; exact hs)⟩)
    (linkKept_of_kept hkept)
  rw [hrate, hcoin, hnow] at heffect
  exact heffect

end Confirmed

/-! ### A coin unconfirmed (R68) -/

/-- COIN after a coin that stays unconfirmed. -/
def coinLost (s : State) : CoinBlock :=
  { s.coin with
    transit := none, unconfirmed := min 2 (s.coin.unconfirmed + 1)
    inletFault := s.coin.inletFault || decide (1 ≤ s.coin.unconfirmed) }

/-- The incidents after a coin that stays unconfirmed. -/
def incdLost (s : State) : IncdBlock :=
  if 1 ≤ s.coin.unconfirmed ∧ s.coin.inletFault = false then (countOccurrence .inletJam s).incd else s.incd

/-- The open record with the coin counted unconfirmed. -/
def slotLost (sl : Slot) : Slot := sl.modify (fun r => { r with unconfirmed := r.unconfirmed + 1 })

def coinMissed (d : Nat) (sl : Slot) (s : State) : State :=
  { s with
    now := max s.now d, coin := coinLost s, call := { s.call with openSlot := some (slotLost sl) }, incd := incdLost s }

/-- The transit ended at `d`, and the record's count raised. -/
def transitOver (d : Nat) (sl : Slot) (s : State) : State :=
  { s with
    now := max s.now d, coin := { s.coin with transit := none }
    call := { s.call with openSlot := some (slotLost sl) } }

/-- The incidents after the inlet fault has been set. -/
def incdFaulted (s : State) : IncdBlock :=
  if s.coin.inletFault = false then (countOccurrence .inletJam s).incd else s.incd

/-- The inlet fault set, with these incidents. -/
def inletFaulted (i : IncdBlock) (s : State) : State :=
  { s with coin := { s.coin with inletFault := true }, incd := i }

theorem incdFaulted_of_same (hf : t.coin.inletFault = s.coin.inletFault) (hi : t.incd = s.incd)
    (hc : t.store.clock = s.store.clock) : incdFaulted t = incdFaulted s := by
  unfold incdFaulted
  rw [hf, hi, countOccurrence_incd_of hi hc]

theorem setInletFault_notifies (s : State) : Notifies (inletFaulted (incdFaulted s) s) (setInletFault s) := by
  by_cases hf : s.coin.inletFault = true
  · have hsame : inletFaulted (incdFaulted s) s = s := by
      unfold inletFaulted incdFaulted
      rw [if_neg (by rw [hf]; decide), ← hf]
    have hset : setInletFault s = s := if_pos hf
    rw [hsame, hset]
    exact .refl
  · have hincd : incdFaulted s = (countOccurrence .inletJam (inletFaulted s.incd s)).incd := by
      unfold incdFaulted
      rw [if_pos (Bool.eq_false_iff.mpr hf)]
      exact (countOccurrence_incd_of (s := s) (t := inletFaulted s.incd s) rfl rfl).symm
    have hset : setInletFault s = countOccurrence .inletJam (inletFaulted s.incd s) := if_neg hf
    rw [hset, hincd]
    exact countOccurrence_notifies .inletJam (inletFaulted s.incd s)

/-- The count of coins unconfirmed in a row. -/
def unconfirmedSet (n : Nat) (s : State) : State := { s with coin := { s.coin with unconfirmed := n } }

theorem countUnconfirmed_notifies {d : Nat} {sl : Slot} (h : Notifies (transitOver d sl s) u) :
    Notifies (coinMissed d sl s) (countUnconfirmed u) := by
  have hcoin : u.coin = { s.coin with transit := none } := h.same .coin
  have hunconfirmed : u.coin.unconfirmed = s.coin.unconfirmed := by rw [hcoin]
  have hset (n : Nat) : Notifies (unconfirmedSet n (transitOver d sl s)) (unconfirmedSet n u) :=
    h.update (unconfirmedSet n) rfl fun _ => rfl
  unfold countUnconfirmed
  dsimp only
  rw [hunconfirmed]
  by_cases hc : 1 ≤ s.coin.unconfirmed
  · have hmin : min 2 (s.coin.unconfirmed + 1) = 2 := by omega
    rw [if_pos hmin, hmin]
    have hincd : incdFaulted (unconfirmedSet 2 u) = incdLost s := by
      refine (incdFaulted_of_same (s := s) (t := unconfirmedSet 2 u) ?_ (h.same .incd) (h.same .clock).1).trans ?_
      · show u.coin.inletFault = _; rw [hcoin]
      · unfold incdFaulted incdLost
        simp only [hc, true_and]
    have hfault := setInletFault_notifies (unconfirmedSet 2 u)
    rw [hincd] at hfault
    have hmissed : coinMissed d sl s = inletFaulted (incdLost s) (unconfirmedSet 2 (transitOver d sl s)) := by
      unfold coinMissed coinLost
      rw [hmin, decide_eq_true hc, Bool.or_true]
      rfl
    rw [hmissed]
    exact ((hset 2).update (inletFaulted (incdLost s)) rfl fun _ => rfl).trans hfault
  · have hmin : min 2 (s.coin.unconfirmed + 1) ≠ 2 := by omega
    rw [if_neg hmin]
    have hmissed : coinMissed d sl s = unconfirmedSet (min 2 (s.coin.unconfirmed + 1)) (transitOver d sl s) := by
      unfold coinMissed coinLost incdLost
      rw [if_neg fun hx => hc hx.1, decide_eq_false hc, Bool.or_false]
      rfl
    rw [hmissed]
    exact hset _

/-- The state in which RATE is told of the coin. -/
def lossTold (x : Transit) (s : State) : State :=
  countUnconfirmed (modifyOpen (fun r => { r with unconfirmed := r.unconfirmed + 1 })
    (postCoin (.unconfirmed x.denom x.value)
      { reach (some x.windowEnd) s with coin := { s.coin with transit := none } }))

theorem exec_confirmationWindowEnd {x : Transit} (ha : alive s = true) (hx : s.coin.transit = some x) :
    exec .confirmationWindowEnd s = .next (finish s (coinSettled (actVerdict (coinOutcome (lossTold x s))))) :=
  exec_alive ha (by simp only [hx]; rfl)

theorem lossTold_notifies {x : Transit} {sl : Slot} (ho : s.call.openSlot = some sl) :
    Notifies (coinMissed x.windowEnd sl s) (lossTold x s) := by
  refine countUnconfirmed_notifies ?_
  have hpost := postCoin_notifies (.unconfirmed x.denom x.value)
    { reach (some x.windowEnd) s with coin := { s.coin with transit := none } }
  generalize postCoin (.unconfirmed x.denom x.value)
    { reach (some x.windowEnd) s with coin := { s.coin with transit := none } } = y at hpost
  have hopen : y.call.openSlot = some sl := (congrArg CallBlock.openSlot (hpost.same .call : y.call = s.call)).trans ho
  rw [modifyOpen_some hopen]
  exact hpost.update (setOpen (some (slotLost sl))) rfl fun _ => rfl

theorem coinMissed_only {d : Nat} {sl : Slot} : OnlyChanges [.now, .coin, .call, .incd] s (coinMissed d sl s) := by
  intro p hp
  cases p
  case clock => exact ⟨rfl, rfl⟩
  case now | coin | call | incd => exact absurd (by decide) hp
  all_goals rfl

section Unconfirmed

variable {x : Transit} {sl : Slot}

theorem lossTold_undisturbed (ho : s.call.openSlot = some sl) (hu : Undisturbed s) : Undisturbed (lossTold x s) := by
  obtain ⟨l, -, heq⟩ := lossTold_notifies (x := x) ho
  rw [heq]
  exact hu

theorem lossTold_kept (ho : s.call.openSlot = some sl) : OnlyChanges [.now, .coin, .call, .incd] s (lossTold x s)
    ∧ LinkKept s (lossTold x s) ∧ (lossTold x s).now = max s.now x.windowEnd ∧ (lossTold x s).coin = coinLost s
    ∧ (lossTold x s).call = { s.call with openSlot := some (slotLost sl) } ∧ (lossTold x s).incd = incdLost s
    ∧ (lossTold x s).rate = s.rate := by
  have hn := lossTold_notifies (x := x) ho
  have hlink : LinkKept (coinMissed x.windowEnd sl s) (lossTold x s) := hn.linkKept (linkKept_of_link rfl)
  exact ⟨coinMissed_only.step hn.only (List.nil_subset _), hlink, hn.same .now, hn.same .coin, hn.same .call,
    hn.same .incd, hn.same .rate⟩

theorem lossTold_rating (ho : s.call.openSlot = some sl) : rating (lossTold x s) = rating s := by
  obtain ⟨-, -, -, -, -, -, hrate⟩ := lossTold_kept (x := x) ho
  exact rating_of_rate (congrArg RateBlock.closing hrate) (congrArg RateBlock.phase hrate)

theorem coinLost_now (ho : s.call.openSlot = some sl) :
    (finish s (coinSettled (actVerdict (coinOutcome (lossTold x s))))).now = max s.now x.windowEnd := by
  obtain ⟨-, -, hnow, -⟩ := lossTold_kept (x := x) ho
  have hkeep : OnlyChanges endParts (lossTold x s) (coinSettled (actVerdict (coinOutcome (lossTold x s)))) :=
    (actVerdict_only (coinOutcome_only.wider (by decide))).step coinSettled_only (by decide)
  exact ((finish_now ..).trans (hkeep .now (by decide))).trans hnow

theorem coinLost_unrated (ho : s.call.openSlot = some sl) (hu : Undisturbed s) (hr : rating s = false) :
    let t := finish s (coinSettled (actVerdict (coinOutcome (lossTold x s))))
    t.coin = coinLost s ∧ t.call = { s.call with openSlot := some (slotLost sl) } ∧ t.incd = incdLost s
      ∧ OnlyChanges [.now, .coin, .call, .incd] s t := by
  obtain ⟨honly, -, -, hcoin, hcall, hincd, -⟩ := lossTold_kept (x := x) ho
  have hverdict : actVerdict (coinOutcome (lossTold x s)) = lossTold x s := by
    rw [coinOutcome_unrated ((lossTold_rating ho).trans hr)]; rfl
  rw [hverdict, coinSettled_undisturbed (lossTold_undisturbed ho hu)]
  exact ⟨(finish_coin ..).trans hcoin, (finish_call ..).trans hcall, (finish_incd ..).trans hincd, only_finish honly⟩

theorem coinLost_rated (ho : s.call.openSlot = some sl) (hu : Undisturbed s) (hr : rating s = true) :
    let t := finish s (coinSettled (actVerdict (coinOutcome (lossTold x s))))
    (s.rate.acct.due = 0 → t.rate = { s.rate with phase := warnPhase t } ∧ t.coin = coinLost s
        ∧ t.call = phaseTold s.rate.phase (warnPhase t) t.now (lossTold x s).call
        ∧ OnlyChanges [.call, .rate] (lossTold x s) t)
      ∧ (0 < s.rate.acct.due → SettlementRuns (lossTold x s) t) := by
  intro t
  obtain ⟨-, -, hnow, hcoin, -, -, hrate⟩ := lossTold_kept (x := x) ho
  have hkept : Kept True (lossTold x s) (coinSettled (actVerdict (coinOutcome (lossTold x s)))) :=
    .after coinSettled_kept (actVerdict_kept coinOutcome_kept)
  have heffect := coinOutcome_rated (s0 := s) ((lossTold_rating ho).trans hr)
    (fun hq => by rw [coinSettled_undisturbed (hq.1 (lossTold_undisturbed ho hu))]; exact .refl)
    (linkKept_of_kept hkept)
  have htnow : t.now = (lossTold x s).now := (coinLost_now ho).trans hnow.symm
  rw [hrate, hcoin, ← htnow] at heffect
  exact heffect

end Unconfirmed

end Sys2Proof.Machine

open Sys2Proof Sys2Proof.Machine

/-- Settles O54: the record counts the coin, and the deposit or the settlement goes on from the state so told. -/
theorem entryTransitEndsConfirmedOrNot : Obligations.EntryTransitEndsConfirmedOrNot := by
  intro s x sl ha hx ho hu
  refine ⟨⟨_, exec_entrySensor ha hx, linkKept_of_kept (confirmCoin_kept hx), fun hr hs => ?_, fun hr hs =>
    ⟨fun hd => ?_, fun hc hd => ?_⟩, fun hr hs => ?_⟩, ⟨_, exec_confirmationWindowEnd ha hx,
      linkKept_of_kept (.after loseCoin_kept reach_kept), coinLost_now ho, fun hr => coinLost_unrated ho hu hr,
      fun hr => ?_⟩⟩
  · rw [coinConfirmed_unrated ho hr]
    obtain ⟨hstate, -⟩ := coinTold_state (x := x) ho
    exact coinJoined_result ((coinTold_notifies ho).trans
      (coinConfirmed_quiescent ⟨coinTold_undisturbed ho hu, by rw [hstate]; exact hs⟩))
  · rw [coinConfirmed_unrated ho hr]
    have hagain : depositAgain (coinTold x s) = coinTold x s := depositAgain_short fun hc =>
      absurd ((depositCovered_told ho hu).mp hc) (Nat.not_le.mpr hd)
    have hn := coinConfirmed_notifies (x := x) (v := coinTold x s) (by rw [hagain]; exact coinTold_undisturbed ho hu)
    rw [hagain] at hn
    obtain ⟨hcoin, hcall, hcounters, -, honly⟩ := coinJoined_result (s0 := s) ((coinTold_notifies ho).trans hn)
    exact ⟨hcoin, hcall, hcounters, honly⟩
  · rw [coinConfirmed_unrated ho hr]
    exact coinConfirmed_requests ho hu hs hc hd
  · obtain ⟨honly, hlink, hcoin, hcall, hcounters⟩ := coinTold_kept (x := x) ho
    exact ⟨coinTold x s, honly, hlink, hcoin, hcall, hcounters, coinConfirmed_rated ho hu hs hr⟩
  · obtain ⟨honly, hlink, hnow, hcoin, hcall, hincd, -⟩ := lossTold_kept (x := x) ho
    exact ⟨lossTold x s, honly, hlink, hnow.trans (coinLost_now ho).symm, hcoin, hcall, hincd, coinLost_rated ho hu hr⟩

end

section
/-! The outcomes of strokes: what leaves the escrow, how CLEARING is left, and what the incident map keeps (R17, R18,
R74 to R78). -/

namespace Sys2Proof.Machine

variable {s t u v w x y : State}

/-! ### The escrow's owner counts a coin (R71) -/

theorem uncountedSum_single (e : EscrowEntry) : uncountedSum [e] = stillCounts e := by
  unfold uncountedSum stillCounts
  cases h : e.counted with
  | true => rw [List.filter_cons_of_neg (by rw [h]; decide)]; rfl
  | false => rw [List.filter_cons_of_pos (by rw [h]; decide)]; rfl

/-- The record with a coin refunded. -/
def refundCounted (e : EscrowEntry) (r : CallRecord) : CallRecord :=
  { r with refunded := ⟨r.refunded.coins + (stillCounts e).coins, r.refunded.value + (stillCounts e).value⟩ }

/-- The record with a coin jammed. -/
def jamCounted (e : EscrowEntry) (r : CallRecord) : CallRecord :=
  { r with jammed := ⟨r.jammed.coins + (stillCounts e).coins, r.jammed.value + (stillCounts e).value⟩ }

/-- The head has left the escrow, and the mover rests. -/
def headGone (s : State) : State := dropHead (restMover s)

/-- The slot that owns the escrow changed: the open slot's, when the escrow is not another record's. -/
theorem modifyOwner_ofOpen {f : CallRecord → CallRecord} {sl : Slot} (he : escrowElsewhere s = false)
    (ho : s.call.openSlot = some sl) :
    modifyOwner f (headGone s) = { headGone s with call := { s.call with openSlot := some (sl.modify f) } } := by
  have hopen : (headGone s).call.openSlot = some sl := ho
  rw [modifyOwner_open (s := headGone s) he, hopen]
  rfl

theorem modifyOwner_ofClosing {f : CallRecord → CallRecord} {sl : Slot} (hc : s.call.closingSlot = some sl) :
    modifyOwner f (headGone s) = { headGone s with call := { s.call with closingSlot := some (sl.modify f) } } := by
  have hclosing : (headGone s).call.closingSlot = some sl := hc
  unfold modifyOwner modifyOwnerSlot
  rw [hclosing]
  rfl

/-! ### A coin refunded or jammed (R74, R75) -/

/-- COIN after the head has been returned. -/
def coinReturned (e : EscrowEntry) (s : State) : CoinBlock :=
  { s.coin with
    escrow := s.coin.escrow.tail, gone := s.coin.gone + 1, mover := .idle, exitTimer := none, blind := false
    tally := { s.coin.tally with refunded :=
      ⟨s.coin.tally.refunded.coins + 1, s.coin.tally.refunded.value + e.value⟩ } }

/-- COIN after the head has jammed in a stroke. -/
def coinJammed (e : EscrowEntry) (k : Stroke) (s : State) : CoinBlock :=
  { s.coin with
    escrow := s.coin.escrow.tail, gone := s.coin.gone + 1, order := .outOfOrder, mover := .idle, exitTimer := none
    blind := false
    tally := if k = .refund then { s.coin.tally with jammed :=
      ⟨s.coin.tally.jammed.coins + 1, s.coin.tally.jammed.value + e.value⟩ } else s.coin.tally }

/-- The blocks that a stroke's outcome changes. -/
def pathLeft (c : CallBlock) (k : CoinBlock) (v : VaultBlock) (i : IncdBlock) (s : State) : State :=
  { s with call := c, coin := k, vault := v, incd := i }

theorem pathLeft_only {c : CallBlock} {k : CoinBlock} {v : VaultBlock} {i : IncdBlock} :
    OnlyChanges [.coin, .vault, .call, .incd] s (pathLeft c k v i s) := by
  intro p hp
  cases p
  case clock => exact ⟨rfl, rfl⟩
  case call | coin | vault | incd => exact absurd (by decide) hp
  all_goals rfl

theorem refundHead_left {e : EscrowEntry} {c : CallBlock}
    (h : modifyOwner (refundCounted e) (headGone s) = { headGone s with call := c }) :
    ∃ v i, v.counters = s.vault.counters ∧ Notifies (pathLeft c (coinReturned e s) v i s) (refundHead e s) := by
  have hcount : (fun r : CallRecord => { r with refunded := r.refunded.add (uncountedSum [e]) }) = refundCounted e := by
    funext r; rw [uncountedSum_single]; rfl
  have hhead : refundHead e s = postCoin (.refunded (some (e.denom, e.value)))
      (vaultRefresh (pathLeft c (coinReturned e s) s.vault s.incd s)) := by
    unfold refundHead
    dsimp only
    rw [hcount, show modifyOwner (refundCounted e) (dropHead (restMover s)) = _ from h]
    rfl
  rw [hhead]
  exact ⟨_, _, vaultRefresh_counters (pathLeft c (coinReturned e s) s.vault s.incd s),
    (vaultRefresh_notifies (pathLeft c (coinReturned e s) s.vault s.incd s)).trans (postCoin_notifies ..)⟩

/-! ### An active ESCROW_JAM in the map -/

/-- The map has an active ESCROW_JAM. -/
def JamActive (m : List Incident) : Prop := ∃ x ∈ m, x.kind = .escrowJam ∧ x.active = true

theorem mem_insertIncident_self (e : Incident) (m : List Incident) : e ∈ insertIncident e m := by
  induction m with
  | nil => exact List.mem_singleton.mpr rfl
  | cons z zs ih =>
    unfold insertIncident
    split
    · exact List.mem_cons_self
    · split
      · exact List.mem_cons_self
      · exact List.mem_cons_of_mem _ ih

theorem mem_insertIncident_other {e z : Incident} {m : List Incident} (h : z ∈ m)
    (hk : e.kind.number ≠ z.kind.number) : z ∈ insertIncident e m := by
  induction m with
  | nil => exact nomatch h
  | cons a l ih =>
    unfold insertIncident
    split
    · exact List.mem_cons_of_mem _ h
    · split
      · next heq =>
        rcases List.mem_cons.mp h with rfl | hl
        · exact absurd heq hk
        · exact List.mem_cons_of_mem _ hl
      · rcases List.mem_cons.mp h with rfl | hl
        · exact List.mem_cons_self
        · exact List.mem_cons_of_mem _ (ih hl)

theorem jamActive_counted (now : Option Time) (m : List Incident) : JamActive (countedMap now .escrowJam m) := by
  refine ⟨_, mem_insertIncident_self _ m, ?_⟩
  cases hf : findIncident .escrowJam m with
  | none => exact ⟨rfl, rfl⟩
  | some e =>
    obtain ⟨-, hk⟩ := findIncident_mem hf
    unfold occurrenceEntry
    dsimp only
    split
    · exact ⟨hk, rfl⟩
    · exact ⟨hk, rfl⟩

theorem jamActive_insert {e : Incident} {m : List Incident} (h : JamActive m) (hk : e.kind = .vaultFull) :
    JamActive (insertIncident e m) := by
  obtain ⟨z, hz, hzk, ha⟩ := h
  exact ⟨z, mem_insertIncident_other hz (by rw [hk, hzk]; decide), hzk, ha⟩

theorem jamActive_settled {e : Incident} {m : List Incident} (h : JamActive m) (hk : e.kind = .vaultFull) :
    JamActive (settledMap e m) := by
  unfold settledMap
  split
  · obtain ⟨z, hz, hzk, ha⟩ := h
    exact ⟨z, List.mem_filter.mpr ⟨hz, by rw [hk, hzk]; decide⟩, hzk, ha⟩
  · exact jamActive_insert h hk

theorem jamActive_fullFollow (h : JamActive s.incd.map) : JamActive (fullFollow s).incd.map := by
  unfold fullFollow
  dsimp only
  split
  · exact h
  · split
    · split
      · rw [countOccurrence_incd]
        refine jamActive_insert h ?_
        dsimp only
        cases hf : findIncident .vaultFull s.incd.map with
        | none => rfl
        | some e =>
          obtain ⟨-, hk⟩ := findIncident_mem hf
          unfold occurrenceEntry
          dsimp only
          split
          · exact hk
          · exact hk
      · unfold endCondition
        rw [clearActive_endedMap]
        unfold endedMap
        dsimp only
        split
        · exact h
        · next e hf =>
          obtain ⟨-, hk⟩ := findIncident_mem hf
          split
          · exact jamActive_settled h hk
          · exact h
    · exact h

theorem jamActive_vaultRefresh (h : JamActive s.incd.map) : JamActive (vaultRefresh s).incd.map := by
  have hincd : (vaultRefresh s).incd = (fullFollow s).incd := nearFollow_incd _
  rw [hincd]
  exact jamActive_fullFollow h

/-- The escrow OUT_OF_ORDER, with these incidents. -/
def escrowFailed (i : IncdBlock) (s : State) : State :=
  { s with coin := { s.coin with order := .outOfOrder }, incd := i }

theorem escrowFails_notifies (s : State) :
    Notifies (escrowFailed (countOccurrence .escrowJam s).incd s) (escrowFails s) := by
  have hincd : (countOccurrence .escrowJam (escrowFailed s.incd s)).incd = (countOccurrence .escrowJam s).incd :=
    countOccurrence_incd_of (s := s) (t := escrowFailed s.incd s) rfl rfl
  rw [← hincd]
  exact countOccurrence_notifies .escrowJam (escrowFailed s.incd s)

theorem jamHead_left {e : EscrowEntry} {k : Stroke} {c : CallBlock}
    (h : modifyOwner (jamCounted e) (headGone s) = { headGone s with call := c }) :
    ∃ v i, v.counters = s.vault.counters ∧ JamActive i.map
      ∧ Notifies (pathLeft c (coinJammed e k s) v i s) (jamHead e k s) := by
  have hcount : (fun r : CallRecord => { r with jammed := r.jammed.add (uncountedSum [e]) }) = jamCounted e := by
    funext r; rw [uncountedSum_single]; rfl
  have hhead : jamHead e k s = postCoin (.jammed (some (e.denom, e.value)) k)
      (escrowFails (vaultRefresh (pathLeft c { coinJammed e k s with order := s.coin.order } s.vault s.incd s))) := by
    unfold jamHead
    dsimp only
    rw [hcount, show modifyOwner (jamCounted e) (dropHead (restMover s)) = _ from h]
    rfl
  rw [hhead]
  generalize hb : pathLeft c { coinJammed e k s with order := s.coin.order } s.vault s.incd s = b
  have hn := vaultRefresh_notifies b
  have hfails := (escrowFails_notifies (vaultRefresh b)).trans
    (postCoin_notifies (.jammed (some (e.denom, e.value)) k) (escrowFails (vaultRefresh b)))
  refine ⟨(vaultRefresh b).vault, (countOccurrence .escrowJam (vaultRefresh b)).incd, ?_, ?_, ?_⟩
  · rw [vaultRefresh_counters, ← hb]; rfl
  · rw [countOccurrence_incd]; exact jamActive_counted ..
  · have hboth := (hn.update (escrowFailed (countOccurrence .escrowJam (vaultRefresh b)).incd) rfl fun _ => rfl).trans
      hfails
    rw [← hb] at hboth ⊢
    exact hboth

/-! ### CLEARING left (R18) -/

/-- CLEARING left for IDLE, ABANDONED or a new call. -/
def clearingLeft (s : State) : State :=
  if s.keys.hook = .offHook ∧ s.call.replaced = true then callBegun s else atRest s

theorem leaveClearing_left (s : State) : Notifies (clearingLeft s) (leaveClearing s) := by
  by_cases h : s.keys.hook = .offHook ∧ s.call.replaced = true
  · have hleave : leaveClearing s = beginCall s := by
      unfold leaveClearing; rw [h.1]; exact if_pos h.2
    unfold clearingLeft
    rw [if_pos h, hleave]
    exact beginCall_notifies s
  · unfold clearingLeft
    rw [if_neg h]
    refine leaveClearing_notifies fun hr => ?_
    cases hk : s.keys.hook with
    | onHook => rfl
    | offHook => exact absurd ⟨hk, hr⟩ h

theorem clearingLeft_update (h : Notifies s t) : Notifies (clearingLeft s) (clearingLeft t) := by
  refine h.update clearingLeft ?_ fun l => ?_
  · unfold clearingLeft; split <;> rfl
  · by_cases hc : s.keys.hook = .offHook ∧ s.call.replaced = true
    · exact (if_pos hc : clearingLeft { s with link := l } = _).trans (by unfold clearingLeft; rw [if_pos hc]; rfl)
    · exact (if_neg hc : clearingLeft { s with link := l } = _).trans (by unfold clearingLeft; rw [if_neg hc]; rfl)

theorem storeOpen_left {sl : Slot} (ho : s.call.openSlot = some sl) (hc : sl.complete = true)
    (hs : s.call.state = .clearing) (hclosing : s.call.closingSlot = none) (hstart : s.call.atStart = [])
    (hlog : s.store.log.records.length < 64) : Notifies (clearingLeft (logged sl (setOpen none s))) (storeOpen s) := by
  obtain ⟨hstored, -⟩ := storeSlot_stored (s := setOpen none s) sl hlog
  unfold storeOpen
  rw [ho]
  dsimp only
  rw [if_pos ⟨hs, hc, hclosing, hstart⟩]
  exact (clearingLeft_update hstored).trans (leaveClearing_left _)

theorem clearingLeft_only : OnlyChanges [.call, .keys] s (clearingLeft s) := by
  unfold clearingLeft
  split
  · exact callBegun_only
  · exact only_call .refl (by decide)

theorem clearingLeft_rpt : (clearingLeft s).rpt = s.rpt := by unfold clearingLeft; split <;> rfl

/-- CLEARING left, as a frame reads it. -/
theorem clearingLeft_holds {s0 : State} (hn : Notifies (clearingLeft y) w) (hkeys : y.keys = s.keys)
    (hclock : y.store.clock = s.store.clock) (hconfig : y.config = s.config) (ho : y.call.openSlot = none) :
    ClearingLeft y.call.replaced s (finish s0 w) := by
  have hbody := (finish_body s0 w).trans hn.body
  have hcall : (finish s0 w).call = (clearingLeft y).call := same_of_body hbody .call
  have htkeys : (finish s0 w).keys = (clearingLeft y).keys := same_of_body hbody .keys
  have hnow : (finish s0 w).now = y.now := (same_of_body hbody .now : _ = _).trans (clearingLeft_only .now (by decide))
  have hcoin : (finish s0 w).coin = y.coin :=
    (same_of_body hbody .coin : _ = _).trans (clearingLeft_only .coin (by decide))
  have hlevel : serviceLevel (finish s0 w) = serviceLevel y := by
    refine serviceLevel_of_only (clearingLeft_only.step (only_of_body (l := []) hbody) (List.nil_subset _)) (by decide) ?_
    have hfailures : (finish s0 w).rpt.urgentFailures = (clearingLeft y).rpt.urgentFailures :=
      (congrArg RptBlock.urgentFailures (same_of_body hbody .rpt : settledRpt _ = settledRpt _) :)
    rw [hfailures, clearingLeft_rpt]
  unfold ClearingLeft
  rw [hcall, htkeys, hlevel, hnow, hcoin, ← hkeys, ← hclock, ← hconfig]
  unfold clearingLeft
  cases hk : y.keys.hook with
  | onHook =>
    rw [if_neg (by rintro ⟨h, -⟩; cases h)]
    unfold atRest callAtRest
    rw [hk]
    exact ⟨rfl, rfl, ho, rfl, rfl⟩
  | offHook =>
    cases hr : y.call.replaced with
    | false =>
      rw [if_neg (by rintro ⟨-, h⟩; cases h)]
      unfold atRest callAtRest
      rw [hk]
      exact ⟨rfl, rfl, ho, rfl, rfl⟩
    | true =>
      rw [if_pos ⟨rfl, rfl⟩]
      exact ⟨rfl, rfl, rfl, rfl⟩

/-! ### A run of CLEARING that is over (R77, R18) -/

/-- Of a call in CLEARING nothing but its refund run waits. -/
abbrev RunAlone (s : State) : Prop :=
  s.call.closingSlot = none ∧ s.call.atStart = [] ∧ s.rate = RateBlock.inactive ∧ s.call.refundAsked = true

theorem askRefund_asked (h : s.call.refundAsked = true) : askRefund s = s :=
  if_neg fun hx => by obtain ⟨-, -, -, hn⟩ := hx; exact nomatch h.symm.trans hn

/-- A state in which only a run waits goes on with the run alone. -/
theorem progress_alone (h : RunAlone s) (hr : s.coin.report = false) : progress s = storeOpen s := by
  obtain ⟨hclosing, hstart, hrate, hasked⟩ := h
  rw [progress_eq ⟨hclosing, hstart, hr⟩, clearAccount_inactive hrate, askRefund_asked hasked, takeReport_none hr]

theorem progress_endRun (h : RunAlone s) (hr : s.coin.run = .callEnd) : progress (endRun s) = storeOpen (runOver s) := by
  obtain ⟨hclosing, hstart, hrate, hasked⟩ := h
  unfold progress
  rw [takeReport_endRun hclosing hstart hr, storeAtStart_none (s := runOver s) hstart,
    storeClosing_none (s := runOver s) hclosing, clearAccount_inactive (s := runOver s) hrate,
    askRefund_asked (s := runOver s) hasked, takeReport_none (s := runOver s) rfl]

/-- The record complete. -/
def slotComplete (sl : Slot) : Slot := { sl with complete := true }

/-- The state in which the run is over, the record stored and CLEARING left. -/
def runStored (sl : Slot) (s : State) : State := clearingLeft (logged (slotComplete sl) (setOpen none (runOver s)))

theorem runStored_notifies {sl : Slot} (h : RunAlone s) (hr : s.coin.run = .callEnd) (ho : s.call.openSlot = some sl)
    (hs : s.call.state = .clearing) (hlog : s.store.log.records.length < 64) :
    Notifies (runStored sl s) (progress (endRun s)) := by
  have hopen : (runOver s).call.openSlot = some (slotComplete sl) := by
    show s.call.openSlot.map _ = _
    rw [ho]; rfl
  rw [progress_endRun h hr]
  obtain ⟨hclosing, hstart, -⟩ := h
  exact storeOpen_left (s := runOver s) hopen rfl hs hclosing hstart hlog

theorem runOver_only : OnlyChanges [.call, .coin] s (runOver s) := by
  intro p hp
  cases p
  case clock => exact ⟨rfl, rfl⟩
  case call | coin => exact absurd (by decide) hp
  all_goals rfl

theorem logged_only {sl : Slot} : OnlyChanges [.log] s (logged sl s) := by
  intro p hp
  cases p
  case clock => exact ⟨rfl, rfl⟩
  case log => exact absurd (by decide) hp
  all_goals rfl

theorem runStored_only {sl : Slot} : OnlyChanges [.coin, .call, .keys, .log] s (runStored sl s) :=
  (((runOver_only.wider (by decide)).step (m := [.call]) (only_call .refl (by decide)) (by decide)).step logged_only
    (by decide)).step clearingLeft_only (by decide)

/-- What a run that is over leaves, as a frame reads it. -/
theorem runStored_holds {sl : Slot} {s0 : State} (h : Notifies (runStored sl s) w) :
    (finish s0 w).coin = { s.coin with run := .none, report := false } ∧ LogTook [sl] s.store.log (finish s0 w)
      ∧ ClearingLeft s.call.replaced s (finish s0 w) ∧ (finish s0 w).vault = s.vault ∧ (finish s0 w).incd = s.incd
      ∧ OnlyChanges [.coin, .call, .keys, .log] s (finish s0 w) := by
  have hbody := (finish_body s0 w).trans h.body
  have honly : OnlyChanges [.coin, .call, .keys, .log] s (finish s0 w) :=
    runStored_only.step (only_of_body (l := []) hbody) (List.nil_subset _)
  have hleft := clearingLeft_holds (s0 := s0) (s := s) h rfl rfl rfl rfl
  have hcoin : (runStored sl s).coin = (runOver s).coin := clearingLeft_only .coin (by decide)
  have hlog : (runStored sl s).store.log = (logged (slotComplete sl) (setOpen none (runOver s))).store.log :=
    clearingLeft_only .log (by decide)
  exact ⟨(same_of_body hbody .coin : _ = _).trans hcoin, (same_of_body hbody .log : _ = _).trans hlog, hleft,
    honly .vault (by decide), honly .incd (by decide), honly⟩

theorem runStored_update {sl : Slot} (h : Notifies s t) : Notifies (runStored sl s) (runStored sl t) :=
  clearingLeft_update (h.update (fun x => logged (slotComplete sl) (setOpen none (runOver x))) rfl fun _ => rfl)

/-! ### An escrow stranded (R78) -/

theorem strand_left (he : escrowElsewhere s = false) : ∃ v i, v.counters = s.vault.counters
    ∧ (JamActive s.incd.map → JamActive i.map) ∧ Notifies (strandedOpen v i s) (strand s) := by
  by_cases hc : s.coin.escrow = []
  · have hsame : strandedOpen s.vault s.incd s = s := by
      have hslot : (s.call.openSlot.map (Slot.modify fun r : CallRecord =>
          { r with stranded := r.stranded.add (uncountedSum []) })) = s.call.openSlot := by
        cases s.call.openSlot <;> rfl
      unfold strandedOpen
      rw [hc, hslot, allStranded_empty hc]
    have hstrand : strand s = s := by unfold strand; rw [hc]
    refine ⟨s.vault, s.incd, rfl, id, ?_⟩
    rw [hsame, hstrand]
    exact .refl
  · rw [strand_eq he hc]
    exact ⟨_, _, vaultRefresh_counters (strandedOpen s.vault s.incd s),
      fun h => jamActive_vaultRefresh (s := strandedOpen s.vault s.incd s) h,
      (vaultRefresh_notifies (strandedOpen s.vault s.incd s)).trans (notifies_post ..)⟩

theorem allStranded_run (c : CoinBlock) : (allStranded c).run = c.run := by
  unfold allStranded; dsimp only; split <;> rfl

end Sys2Proof.Machine

open Sys2Proof Sys2Proof.Machine

end

section
/-! O57: what ends a REFUND stroke, in a run of CLEARING and of the closing record, and a jam of one. -/

namespace Sys2Proof.Machine

variable {s t u v w x y : State}

/-! ### The return sensor (R74, R85) -/

theorem exec_returnSensor_refund {e : EscrowEntry} {rest : List EscrowEntry} (ha : alive s = true)
    (hm : s.coin.mover = .refunding) (hb : s.coin.blind = false) (hl : s.coin.escrow = e :: rest) :
    exec .returnSensor s = .next (finish s (coinSettled (refundHead e s))) :=
  exec_alive ha ((if_pos hm).trans ((if_neg (by rw [hb]; decide)).trans (by rw [hl])))

theorem coinSettled_eq (s : State) : coinSettled s = progress (runStep s) := rfl

/-- R77: the run of a call's end strokes the next coin. -/
theorem runStep_strokes {e : EscrowEntry} {rest : List EscrowEntry} (hr : s.coin.run = .callEnd)
    (ho : s.coin.order = .inOrder) (hl : s.coin.escrow = e :: rest) (hm : s.coin.mover = .idle) :
    runStep s = { s with coin := refundBegun e rest s } := by
  have hnot : ¬ (s.coin.escrow.isEmpty = true) := by rw [hl]; exact Bool.false_ne_true
  unfold runStep
  rw [hr]
  dsimp only
  rw [if_neg (by rw [ho]; decide), if_neg hnot, if_neg (by rw [hm]; exact fun h => h rfl)]
  unfold beginStroke refundBegun
  rw [hl]
  rfl

theorem elsewhere_callEnd (hc : s.call.closingSlot = none) (hstart : s.call.atStart = [])
    (hr : s.coin.run = .callEnd) : escrowElsewhere s = false := by
  unfold escrowElsewhere
  rw [hc, hstart, hr]
  rfl

/-- The call with its record changed, before it goes on. -/
def callOf (sl : Slot) (s : State) : CallBlock := { s.call with openSlot := some sl }

/-- R77: a coin refunded, with another behind it. -/
theorem refundGoesOn {e e2 : EscrowEntry} {rest : List EscrowEntry} {sl : Slot}
    (hl : s.coin.escrow = e :: e2 :: rest) (hr : s.coin.run = .callEnd) (hord : s.coin.order = .inOrder)
    (hreport : s.coin.report = false) (ho : s.call.openSlot = some sl) (hc : sl.complete = false)
    (h : RunAlone s) : ∃ v i, v.counters = s.vault.counters
      ∧ Notifies (pathLeft (callOf (sl.modify (refundCounted e)) s)
          (refundBegun e2 rest { s with coin := coinReturned e s }) v i s) (coinSettled (refundHead e s)) := by
  obtain ⟨hclosing, hstart, hrate, hasked⟩ := h
  obtain ⟨v, i, hv, hn⟩ := refundHead_left (modifyOwner_ofOpen (f := refundCounted e)
    (elsewhere_callEnd hclosing hstart hr) ho)
  refine ⟨v, i, hv, ?_⟩
  have hcall : (refundHead e s).call = callOf (sl.modify (refundCounted e)) s := hn.same .call
  have hcoin : (refundHead e s).coin = coinReturned e s := hn.same .coin
  have hrates : (refundHead e s).rate = s.rate := hn.same .rate
  have htail : (coinReturned e s).escrow = e2 :: rest := by unfold coinReturned; rw [hl]; rfl
  have hstep : runStep (refundHead e s) = { refundHead e s with coin := refundBegun e2 rest (refundHead e s) } :=
    runStep_strokes (by rw [hcoin]; exact hr) (by rw [hcoin]; exact hord) (by rw [hcoin]; exact htail)
      (by rw [hcoin]; rfl)
  have halone : RunAlone { refundHead e s with coin := refundBegun e2 rest (refundHead e s) } := by
    refine ⟨?_, ?_, hrates.trans hrate, ?_⟩
    · show (refundHead e s).call.closingSlot = none; rw [hcall]; exact hclosing
    · show (refundHead e s).call.atStart = []; rw [hcall]; exact hstart
    · show (refundHead e s).call.refundAsked = true; rw [hcall]; exact hasked
  have hopen : (refundHead e s).call.openSlot = some (sl.modify (refundCounted e)) := by rw [hcall]; rfl
  rw [coinSettled_eq, hstep, progress_alone halone (by show (refundHead e s).coin.report = false; rw [hcoin]; exact hreport),
    storeOpen_incomplete (s := { refundHead e s with coin := refundBegun e2 rest (refundHead e s) }) hopen hc]
  exact hn.update (fun z => { z with coin := refundBegun e2 rest z }) rfl fun _ => rfl

/-- R77, R18: the last coin refunded, and CLEARING left. -/
theorem refundEnds {e : EscrowEntry} {sl : Slot} (hl : s.coin.escrow = [e]) (h : CallClearing s sl) :
    ∃ v i, v.counters = s.vault.counters
      ∧ Notifies (runStored (sl.modify (refundCounted e))
          (pathLeft (callOf (sl.modify (refundCounted e)) s) (coinReturned e s) v i s)) (coinSettled (refundHead e s)) := by
  obtain ⟨ho, -, hstate, hclosing, hstart, hrate, hasked, -, hr, -, -, hlog⟩ := h
  obtain ⟨v, i, hv, hn⟩ := refundHead_left (modifyOwner_ofOpen (f := refundCounted e)
    (elsewhere_callEnd hclosing hstart hr) ho)
  refine ⟨v, i, hv, ?_⟩
  have hcall : (refundHead e s).call = callOf (sl.modify (refundCounted e)) s := hn.same .call
  have hcoin : (refundHead e s).coin = coinReturned e s := hn.same .coin
  have hloglen : (refundHead e s).store.log = s.store.log := hn.same .log
  have hrun : (refundHead e s).coin.run = .callEnd := by rw [hcoin]; exact hr
  have hempty : (refundHead e s).coin.escrow = [] := by rw [hcoin]; unfold coinReturned; rw [hl]; rfl
  have halone : RunAlone (refundHead e s) := by
    refine ⟨?_, ?_, (hn.same .rate : _ = s.rate).trans hrate, ?_⟩
    · rw [hcall]; exact hclosing
    · rw [hcall]; exact hstart
    · rw [hcall]; exact hasked
  rw [coinSettled_eq, runStep_ends hrun hempty]
  exact (runStored_update hn).trans (runStored_notifies halone hrun (by rw [hcall]; rfl) (by rw [hcall]; exact hstate)
    (by rw [hloglen]; exact hlog))

/-! ### The closing record's refund (R17) -/

/-- The closing record complete, its run over. -/
def closingOver (first : Slot) (s : State) : State :=
  { s with
    call := { s.call with closingSlot := some (slotComplete first) }
    coin := { s.coin with run := .none, report := false } }

theorem takeReport_closing {first : Slot} (hc : s.call.closingSlot = some first) (hr : s.coin.run = .callEnd) :
    takeReport (endRun s) = closingOver first s := by
  have hreport : (endRun s).coin.report = true := by simp [endRun, hr]
  unfold takeReport modifyOwnerSlot
  rw [if_pos hreport]
  have hclosing : (endRun s).call.closingSlot = some first := hc
  dsimp only
  rw [hclosing]
  rfl

/-- The closing slot freed, its run over. -/
def closingFreed (s : State) : State :=
  { s with call := { s.call with closingSlot := none }, coin := { s.coin with run := .none, report := false } }

/-- The closing record stored. -/
def closingStored (first : Slot) (s : State) : State := logged (slotComplete first) (closingFreed s)

theorem storeClosing_notifies {first : Slot} (hstart : s.call.atStart = []) (hlog : s.store.log.records.length < 64) :
    Notifies (closingStored first s) (storeClosing (closingOver first s)) := by
  have hstart' : (closingOver first s).call.atStart = [] := hstart
  have hclosing : (closingOver first s).call.closingSlot = some (slotComplete first) := rfl
  unfold storeClosing
  rw [hclosing, hstart']
  exact (storeSlot_stored (s := closingFreed s) (slotComplete first) hlog).1

theorem clearAccount_idle (hc : s.rate.closing = false) (hp : s.rate.phase ≠ .ended) : clearAccount s = s := by
  have htry : tryClose s = s := by unfold tryClose; rw [hc]; rfl
  unfold clearAccount
  rw [htry]
  exact if_neg hp

theorem progress_closing {first : Slot} (hc : s.call.closingSlot = some first) (hr : s.coin.run = .callEnd)
    (hstart : s.call.atStart = []) :
    progress (endRun s) = storeOpen (takeReport (askRefund (clearAccount (storeClosing (closingOver first s))))) := by
  unfold progress
  rw [takeReport_closing hc hr, storeAtStart_none (s := closingOver first s) hstart]

/-- R17: the closing record's refund is over; the call goes on. -/
theorem closingEnds {first : Slot} (hc : s.call.closingSlot = some first) (hr : s.coin.run = .callEnd)
    (hstart : s.call.atStart = []) (hlog : s.store.log.records.length < 64) (hs : s.call.state ≠ .clearing)
    (hclosing : s.rate.closing = false) (hp : s.rate.phase ≠ .ended) :
    Notifies (closingStored first s) (progress (endRun s)) := by
  have hn := storeClosing_notifies (first := first) hstart hlog
  have hrate : (storeClosing (closingOver first s)).rate = s.rate := hn.same .rate
  have hcall : (storeClosing (closingOver first s)).call = { s.call with closingSlot := none } := hn.same .call
  have hcoin : (storeClosing (closingOver first s)).coin = { s.coin with run := .none, report := false } := hn.same .coin
  have hstate : (storeClosing (closingOver first s)).call.state ≠ .clearing := by rw [hcall]; exact hs
  have hask : askRefund (storeClosing (closingOver first s)) = storeClosing (closingOver first s) :=
    if_neg fun hx => hstate hx.1
  rw [progress_closing hc hr hstart, clearAccount_idle (by rw [hrate]; exact hclosing) (by rw [hrate]; exact hp), hask,
    takeReport_none (by rw [hcoin]), storeOpen_elsewhere hstate]
  exact hn

/-- The open record's refund asked for, with nothing to refund. -/
def refundDone (sl : Slot) (s : State) : State :=
  { s with
    call := { s.call with refundAsked := true, openSlot := some (slotComplete sl) }
    coin := { s.coin with tally := {} } }

theorem refundOver_empty {sl : Slot} (h : s.coin.escrow = []) : refundOver sl s.vault s.incd s = refundDone sl s := by
  have hcoin : allStranded { s.coin with tally := {} } = { s.coin with tally := {} } := allStranded_empty h
  unfold refundOver
  rw [hcoin, h]
  rfl

/-- The open record stored after the closing one. -/
def bothLogged (first sl : Slot) (s : State) : State :=
  logged (slotComplete sl) (setOpen none (refundDone sl (closingStored first s)))

/-- The open record stored after the closing one, and CLEARING left. -/
def bothStored (first sl : Slot) (s : State) : State := clearingLeft (bothLogged first sl s)

theorem closingStored_only {first : Slot} : OnlyChanges [.coin, .call, .log] s (closingStored first s) := by
  intro p hp
  cases p
  case clock => exact ⟨rfl, rfl⟩
  case coin | call | log => exact absurd (by decide) hp
  all_goals rfl

theorem refundDone_only {sl : Slot} : OnlyChanges [.coin, .call] s (refundDone sl s) := by
  intro p hp
  cases p
  case clock => exact ⟨rfl, rfl⟩
  case coin | call => exact absurd (by decide) hp
  all_goals rfl

theorem bothLogged_only {first sl : Slot} : OnlyChanges [.coin, .call, .log] s (bothLogged first sl s) :=
  ((closingStored_only.step refundDone_only (by decide)).step (m := [.call]) (only_call .refl (by decide))
    (by decide)).step logged_only (by decide)

theorem logged_log (sl : Slot) (s : State) : (logged sl s).store.log = { s.store.log with
    records := s.store.log.records ++ [{ sl.record with seq := s.store.log.nextSeq }]
    nextSeq := nextSeq s.store.log.nextSeq, handed := some sl.offAt } := rfl

theorem bothLogged_log (first sl : Slot) (s : State) : LogTook [first, sl] s.store.log (bothLogged first sl s) := by
  have hlog : (setOpen none (refundDone sl (closingStored first s))).store.log = (closingStored first s).store.log := rfl
  unfold bothLogged LogTook
  rw [logged_log, hlog]
  unfold closingStored
  rw [logged_log]
  dsimp only
  rw [List.append_assoc]
  rfl

theorem bothLogged_call (first sl : Slot) (s : State) : (bothLogged first sl s).call.openSlot = none
    ∧ (bothLogged first sl s).call.closingSlot = none ∧ (bothLogged first sl s).call.replaced = s.call.replaced :=
  ⟨rfl, rfl, rfl⟩

theorem bothLogged_coin (first sl : Slot) (s : State) :
    (bothLogged first sl s).coin = { s.coin with run := .none, report := false, tally := {} } := rfl

theorem clearingLeft_closing (s : State) : (clearingLeft s).call.closingSlot = s.call.closingSlot := by
  unfold clearingLeft; split <;> rfl

/-- What both records' storage leaves, as a frame reads it. -/
theorem bothStored_holds {first sl : Slot} {s0 : State} (h : Notifies (bothStored first sl s) w) :
    (finish s0 w).coin = { s.coin with run := .none, report := false, tally := {} }
      ∧ LogTook [first, sl] s.store.log (finish s0 w) ∧ (finish s0 w).call.closingSlot = none
      ∧ ClearingLeft s.call.replaced s (finish s0 w) ∧ (finish s0 w).vault = s.vault
      ∧ OnlyChanges [.coin, .call, .keys, .log] s (finish s0 w) := by
  have hbody := (finish_body s0 w).trans h.body
  have honly : OnlyChanges [.coin, .call, .keys, .log] s (finish s0 w) :=
    ((bothLogged_only.wider (by decide)).step clearingLeft_only (by decide)).step (only_of_body (l := []) hbody)
      (List.nil_subset _)
  have hcoin : (bothStored first sl s).coin = (bothLogged first sl s).coin := clearingLeft_only .coin (by decide)
  have hlog : (bothStored first sl s).store.log = (bothLogged first sl s).store.log := clearingLeft_only .log (by decide)
  obtain ⟨hopen, hclosing, hreplaced⟩ := bothLogged_call first sl s
  have hleft := clearingLeft_holds (s0 := s0) (y := bothLogged first sl s) (s := s) h (bothLogged_only .keys (by decide))
    (bothLogged_only .clock (by decide)).1 (bothLogged_only .config (by decide)) hopen
  rw [hreplaced] at hleft
  have hcall : (finish s0 w).call = (bothStored first sl s).call := same_of_body hbody .call
  have hslot : (bothStored first sl s).call.closingSlot = none := (clearingLeft_closing _).trans hclosing
  exact ⟨(same_of_body hbody .coin : _ = _).trans (hcoin.trans (bothLogged_coin first sl s)),
    ((same_of_body hbody .log : _ = _).trans hlog).trans (bothLogged_log first sl s), by rw [hcall, hslot], hleft,
    honly .vault (by decide), honly⟩

/-- R17, R18: the closing record's refund is over, and with it the call in CLEARING. -/
theorem closingEndsBoth {first sl : Slot} (hc : s.call.closingSlot = some first) (hr : s.coin.run = .callEnd)
    (hstart : s.call.atStart = []) (hlog : s.store.log.records.length < 63) (hs : s.call.state = .clearing)
    (ho : s.call.openSlot = some sl) (hasked : s.call.refundAsked = false) (hrate : s.rate = RateBlock.inactive)
    (htransit : s.coin.transit = none) (hempty : s.coin.escrow = []) :
    Notifies (bothStored first sl s) (progress (endRun s)) := by
  have hn := storeClosing_notifies (first := first) hstart (hlog.trans (by decide))
  rw [progress_closing hc hr hstart]
  generalize storeClosing (closingOver first s) = z at hn
  have hzrate : z.rate = RateBlock.inactive := (hn.same .rate : _ = s.rate).trans hrate
  have hzcall : z.call = { s.call with closingSlot := none } := hn.same .call
  have hzcoin : z.coin = { s.coin with run := .none, report := false } := hn.same .coin
  have hzlog : z.store.log = (closingStored first s).store.log := hn.same .log
  have hasks : AsksRefund z := by
    rw [AsksRefund, hzcall, hzrate, hzcoin]; exact ⟨hs, rfl, htransit, hasked⟩
  have hearlier : NoEarlier z := by rw [NoEarlier, hzcall, hzcoin]; exact ⟨rfl, hstart, rfl⟩
  have hzempty : z.coin.escrow = [] := by rw [hzcoin]; exact hempty
  obtain ⟨v, i, -, hvi, hover⟩ := refund_over hasks hearlier (sl := sl) (by rw [hzcall]; exact ho)
    (.inr ⟨by rw [hzcoin], .inl hzempty⟩)
  obtain ⟨rfl, rfl⟩ := hvi hzempty
  rw [clearAccount_inactive hzrate]
  rw [refundOver_empty hzempty] at hover
  generalize takeReport (askRefund z) = q at hover
  have hdone : Notifies (refundDone sl (closingStored first s)) q := (hn.update (refundDone sl) rfl fun _ => rfl).trans hover
  have hqcall : q.call = (refundDone sl (closingStored first s)).call := hdone.same .call
  have hqlog : q.store.log.records.length < 64 := by
    rw [(hdone.same .log : q.store.log = (closingStored first s).store.log)]
    show (s.store.log.records ++ [_]).length < 64
    rw [List.length_append, List.length_singleton]
    omega
  have hstored := storeOpen_left (s := q) (sl := slotComplete sl) (by rw [hqcall]; rfl) rfl (by rw [hqcall]; exact hs)
    (by rw [hqcall]; rfl) (by rw [hqcall]; exact hstart) hqlog
  exact (clearingLeft_update (hdone.update (fun a => logged (slotComplete sl) (setOpen none a)) rfl fun _ => rfl)).trans
    hstored

/-! ### What a confirmed REFUND does, as a frame reads it -/

theorem refundGoesOn_effect {e e2 : EscrowEntry} {rest : List EscrowEntry} {sl : Slot}
    (hl : s.coin.escrow = e :: e2 :: rest) (hm : s.coin.mover = .refunding) (hb : s.coin.blind = false)
    (hr : s.coin.run = .callEnd) (hord : s.coin.order = .inOrder) (hreport : s.coin.report = false)
    (ho : s.call.openSlot = some sl) (hc : sl.complete = false) (h : RunAlone s) :
    let t := finish s (coinSettled (refundHead e s))
    t.coin = { s.coin with
        escrow := { e2 with moving := some (.refund, s.coin.strokeNo) } :: rest, gone := s.coin.gone + 1
        exitTimer := some (s.now + 800)
        tally := { s.coin.tally with refunded :=
          ⟨s.coin.tally.refunded.coins + 1, s.coin.tally.refunded.value + e.value⟩ } }
      ∧ t.call.openSlot = some (sl.modify (refundCounted e))
      ∧ t.vault.counters = s.vault.counters ∧ OnlyChanges [.coin, .vault, .call, .incd] s t := by
  intro t
  obtain ⟨v, i, hv, hn⟩ := refundGoesOn hl hr hord hreport ho hc h
  have hbody := (finish_body s (coinSettled (refundHead e s))).trans hn.body
  have hcoin : t.coin = refundBegun e2 rest { s with coin := coinReturned e s } := same_of_body hbody .coin
  have hcall : t.call = callOf (sl.modify (refundCounted e)) s := same_of_body hbody .call
  have hvault : t.vault = v := same_of_body hbody .vault
  rw [hcoin, hcall, hvault]
  refine ⟨?_, rfl, hv, pathLeft_only.step (only_of_body (l := []) hbody) (List.nil_subset _)⟩
  unfold refundBegun coinReturned
  rw [← hm, ← hb]

/-- COIN after a run that the last refund has ended. -/
theorem returned_coin {e : EscrowEntry} (hl : s.coin.escrow = [e]) (hb : s.coin.blind = false)
    (hreport : s.coin.report = false) : ({ coinReturned e s with run := .none, report := false } : CoinBlock) =
    { s.coin with
      escrow := [], gone := s.coin.gone + 1, mover := .idle, exitTimer := none, run := .none
      tally := { s.coin.tally with refunded :=
        ⟨s.coin.tally.refunded.coins + 1, s.coin.tally.refunded.value + e.value⟩ } } := by
  unfold coinReturned
  generalize s.coin = c at *
  cases c
  dsimp only at hl hb hreport
  subst hl hb hreport
  rfl

theorem refundEnds_effect {e : EscrowEntry} {sl : Slot} (hl : s.coin.escrow = [e]) (h : CallClearing s sl) :
    let t := finish s (coinSettled (refundHead e s))
    t.coin = { s.coin with
        escrow := [], gone := s.coin.gone + 1, mover := .idle, exitTimer := none, run := .none
        tally := { s.coin.tally with refunded :=
          ⟨s.coin.tally.refunded.coins + 1, s.coin.tally.refunded.value + e.value⟩ } }
      ∧ LogTook [sl.modify (refundCounted e)] s.store.log t ∧ ClearingLeft s.call.replaced s t
      ∧ t.vault.counters = s.vault.counters ∧ OnlyChanges [.coin, .vault, .call, .keys, .log, .incd] s t := by
  intro t
  obtain ⟨v, i, hv, hn⟩ := refundEnds hl h
  obtain ⟨-, -, -, -, -, -, -, -, -, hb, hreport, -⟩ := h
  obtain ⟨hcoin, hlog, hleft, hvault, -, honly⟩ := runStored_holds (s0 := s) hn
  have hcounters : t.vault.counters = s.vault.counters := (congrArg VaultBlock.counters hvault).trans hv
  refine ⟨?_, hlog, hleft, hcounters, (pathLeft_only.wider (by decide)).step honly (by decide)⟩
  exact hcoin.trans (returned_coin hl hb hreport)

/-- The call with its closing record changed. -/
def callClosing (sl : Slot) (s : State) : CallBlock := { s.call with closingSlot := some sl }

section Closing

variable {e : EscrowEntry} {first : Slot}

/-- The last coin of the closing record's run refunded. -/
theorem refundClosing (hl : s.coin.escrow = [e]) (hr : s.coin.run = .callEnd) (hc : s.call.closingSlot = some first) :
    ∃ v i, v.counters = s.vault.counters
      ∧ Notifies (pathLeft (callClosing (first.modify (refundCounted e)) s) (coinReturned e s) v i s) (refundHead e s)
      ∧ coinSettled (refundHead e s) = progress (endRun (refundHead e s)) := by
  obtain ⟨v, i, hv, hn⟩ := refundHead_left (modifyOwner_ofClosing (f := refundCounted e) hc)
  have hcoin : (refundHead e s).coin = coinReturned e s := hn.same .coin
  refine ⟨v, i, hv, hn, ?_⟩
  rw [coinSettled_eq, runStep_ends (by rw [hcoin]; exact hr)]
  rw [hcoin]
  unfold coinReturned
  rw [hl]
  rfl

theorem refundClosing_effect (hl : s.coin.escrow = [e]) (hr : s.coin.run = .callEnd) (hb : s.coin.blind = false)
    (hreport : s.coin.report = false) (hc : s.call.closingSlot = some first) (hstart : s.call.atStart = [])
    (hclosing : s.rate.closing = false) (hp : s.rate.phase ≠ .ended) (hlog : s.store.log.records.length < 64)
    (hs : s.call.state ≠ .clearing) :
    let t := finish s (coinSettled (refundHead e s))
    t.coin = { s.coin with
        escrow := [], gone := s.coin.gone + 1, mover := .idle, exitTimer := none, run := .none
        tally := { s.coin.tally with refunded :=
          ⟨s.coin.tally.refunded.coins + 1, s.coin.tally.refunded.value + e.value⟩ } }
      ∧ LogTook [first.modify (refundCounted e)] s.store.log t ∧ t.call = { s.call with closingSlot := none }
      ∧ t.vault.counters = s.vault.counters ∧ OnlyChanges [.coin, .vault, .call, .log, .incd] s t := by
  intro t
  obtain ⟨v, i, hv, hn, hsettled⟩ := refundClosing hl hr hc
  have hcall : (refundHead e s).call = callClosing (first.modify (refundCounted e)) s := hn.same .call
  have hcoin : (refundHead e s).coin = coinReturned e s := hn.same .coin
  have hrate : (refundHead e s).rate = s.rate := hn.same .rate
  have hloglen : (refundHead e s).store.log = s.store.log := hn.same .log
  have hends : Notifies (closingStored (first.modify (refundCounted e)) (refundHead e s))
      (coinSettled (refundHead e s)) := by
    rw [hsettled]
    exact closingEnds (by rw [hcall]; rfl) (by rw [hcoin]; exact hr) (by rw [hcall]; exact hstart)
      (by rw [hloglen]; exact hlog) (by rw [hcall]; exact hs) (by rw [hrate]; exact hclosing) (by rw [hrate]; exact hp)
  have hall := (hn.update (closingStored (first.modify (refundCounted e))) rfl fun _ => rfl).trans hends
  have hbody := (finish_body s (coinSettled (refundHead e s))).trans hall.body
  have honly : OnlyChanges [.coin, .vault, .call, .log, .incd] s
      (closingStored (first.modify (refundCounted e))
        (pathLeft (callClosing (first.modify (refundCounted e)) s) (coinReturned e s) v i s)) := by
    intro p hp
    cases p
    case clock => exact ⟨rfl, rfl⟩
    case coin | vault | call | log | incd => exact absurd (by decide) hp
    all_goals rfl
  have htcall : t.call = { s.call with closingSlot := none } := same_of_body hbody .call
  have hvault : t.vault = v := same_of_body hbody .vault
  refine ⟨(same_of_body hbody .coin : _ = _).trans (returned_coin hl hb hreport), same_of_body hbody .log, htcall, ?_,
    honly.step (only_of_body (l := []) hbody) (List.nil_subset _)⟩
  rw [hvault, hv]

theorem refundBoth_effect {sl : Slot} (hl : s.coin.escrow = [e]) (hr : s.coin.run = .callEnd) (hb : s.coin.blind = false)
    (hreport : s.coin.report = false) (hc : s.call.closingSlot = some first) (hstart : s.call.atStart = [])
    (hlog : s.store.log.records.length < 63) (hs : s.call.state = .clearing) (ho : s.call.openSlot = some sl)
    (hasked : s.call.refundAsked = false) (hrate : s.rate = RateBlock.inactive) (htransit : s.coin.transit = none) :
    let t := finish s (coinSettled (refundHead e s))
    t.coin = { { s.coin with
        escrow := [], gone := s.coin.gone + 1, mover := .idle, exitTimer := none, run := .none
        tally := { s.coin.tally with refunded :=
          ⟨s.coin.tally.refunded.coins + 1, s.coin.tally.refunded.value + e.value⟩ } } with tally := {} }
      ∧ LogTook [first.modify (refundCounted e), sl] s.store.log t ∧ t.call.closingSlot = none
      ∧ ClearingLeft s.call.replaced s t
      ∧ t.vault.counters = s.vault.counters ∧ OnlyChanges [.coin, .vault, .call, .keys, .log, .incd] s t := by
  intro t
  obtain ⟨v, i, hv, hn, hsettled⟩ := refundClosing hl hr hc
  have hcall : (refundHead e s).call = callClosing (first.modify (refundCounted e)) s := hn.same .call
  have hcoin : (refundHead e s).coin = coinReturned e s := hn.same .coin
  have hxrate : (refundHead e s).rate = s.rate := hn.same .rate
  have hloglen : (refundHead e s).store.log = s.store.log := hn.same .log
  have hends : Notifies (bothStored (first.modify (refundCounted e)) sl (refundHead e s))
      (coinSettled (refundHead e s)) := by
    rw [hsettled]
    refine closingEndsBoth (by rw [hcall]; rfl) (by rw [hcoin]; exact hr) (by rw [hcall]; exact hstart)
      (by rw [hloglen]; exact hlog) (by rw [hcall]; exact hs) (by rw [hcall]; exact ho) (by rw [hcall]; exact hasked)
      (hxrate.trans hrate) (by rw [hcoin]; exact htransit) ?_
    rw [hcoin]
    unfold coinReturned
    rw [hl]
    rfl
  have hboth := hn.update (bothLogged (first.modify (refundCounted e)) sl) rfl fun _ => rfl
  obtain ⟨htcoin, htlog, hclosing, hleft, hvault, honly⟩ := bothStored_holds (s0 := s)
    ((clearingLeft_update hboth).trans hends)
  refine ⟨htcoin.trans ?_, htlog, hclosing, hleft, (congrArg VaultBlock.counters hvault).trans hv,
    (pathLeft_only.wider (by decide)).step honly (by decide)⟩
  have hreturned := returned_coin hl hb hreport
  exact congrArg (fun c : CoinBlock => { c with tally := {} }) hreturned

end Closing

/-! ### A REFUND stroke that jams (R75, R78) -/

theorem exec_exitTimerExpiry {d : Nat} (ha : alive s = true) (hd : s.coin.exitTimer = some d) :
    exec .exitTimerExpiry s = .next (finish s (coinSettled (strokeEnds (reach (some d) s)))) :=
  exec_alive ha (by simp only [hd])

theorem strokeEnds_jams {e : EscrowEntry} {rest : List EscrowEntry} (hb : s.coin.blind = false)
    (hl : s.coin.escrow = e :: rest) : strokeEnds s =
      if s.coin.mover = .collecting then actVerdict (settleDue (jamHead e .collect s)) else jamHead e .refund s := by
  unfold strokeEnds
  rw [if_neg (by rw [hb]; decide), hl]

/-- The record with what the escrow held stranded. -/
def strandCounted (l : List EscrowEntry) (r : CallRecord) : CallRecord :=
  { r with stranded := r.stranded.add (uncountedSum l) }

/-- The slot after a jam that strands the rest of the escrow. -/
def slotJammed (e : EscrowEntry) (rest : List EscrowEntry) (sl : Slot) : Slot :=
  (sl.modify (jamCounted e)).modify (strandCounted rest)

/-- The state after the jam, the rest stranded. -/
def jamStranded (e : EscrowEntry) (sl : Slot) (v : VaultBlock) (i : IncdBlock) (s : State) : State :=
  pathLeft (callOf sl s) (allStranded (coinJammed e .refund s)) v i s

theorem jamStrands {e : EscrowEntry} {rest : List EscrowEntry} {sl : Slot} (hl : s.coin.escrow = e :: rest)
    (ho : s.call.openSlot = some sl) (hclosing : s.call.closingSlot = none) (hstart : s.call.atStart = [])
    (hr : s.coin.run = .callEnd) : ∃ v i, v.counters = s.vault.counters ∧ JamActive i.map
      ∧ Notifies (jamStranded e (slotJammed e rest sl) v i s) (strand (jamHead e .refund s)) := by
  obtain ⟨v, i, hv, hi, hn⟩ := jamHead_left (k := .refund) (modifyOwner_ofOpen (f := jamCounted e)
    (elsewhere_callEnd hclosing hstart hr) ho)
  generalize jamHead e .refund s = x at hn
  have hcall : x.call = callOf (sl.modify (jamCounted e)) s := hn.same .call
  have hcoin : x.coin = coinJammed e .refund s := hn.same .coin
  have hvault : x.vault = v := hn.same .vault
  have hincd : x.incd = i := hn.same .incd
  have helse : escrowElsewhere x = false := elsewhere_callEnd (by rw [hcall]; exact hclosing)
    (by rw [hcall]; exact hstart) (by rw [hcoin]; exact hr)
  obtain ⟨v', i', hv', hi', hstrand⟩ := strand_left helse
  refine ⟨v', i', by rw [hv', hvault, hv], hi' (by rw [hincd]; exact hi), ?_⟩
  have hrest : (coinJammed e .refund s).escrow = rest := by unfold coinJammed; rw [hl]; rfl
  have hsame : strandedOpen v' i' (pathLeft (callOf (sl.modify (jamCounted e)) s) (coinJammed e .refund s) v i s) =
      jamStranded e (slotJammed e rest sl) v' i' s := by
    unfold strandedOpen jamStranded slotJammed
    rw [show (pathLeft (callOf (sl.modify (jamCounted e)) s) (coinJammed e .refund s) v i s).coin.escrow = rest from hrest]
    rfl
  rw [← hsame]
  exact (hn.update (strandedOpen v' i') rfl fun _ => rfl).trans hstrand

theorem jamClears {e : EscrowEntry} {rest : List EscrowEntry} {sl : Slot} (hl : s.coin.escrow = e :: rest)
    (h : CallClearing s sl) : ∃ v i, v.counters = s.vault.counters ∧ JamActive i.map
      ∧ Notifies (runStored (slotJammed e rest sl) (jamStranded e (slotJammed e rest sl) v i s))
          (coinSettled (jamHead e .refund s)) := by
  obtain ⟨ho, -, hstate, hclosing, hstart, hrate, hasked, -, hr, -, -, hlog⟩ := h
  obtain ⟨v, i, hv, hi, hn⟩ := jamStrands hl ho hclosing hstart hr
  obtain ⟨v0, i0, -, -, hjam⟩ := jamHead_left (k := .refund) (modifyOwner_ofOpen (f := jamCounted e)
    (elsewhere_callEnd hclosing hstart hr) ho)
  have hjcoin : (jamHead e .refund s).coin = coinJammed e .refund s := hjam.same .coin
  have hstep : runStep (jamHead e .refund s) = endRun (strand (jamHead e .refund s)) :=
    runStep_strands (by rw [hjcoin]; exact hr) (by rw [hjcoin]; rfl)
  refine ⟨v, i, hv, hi, ?_⟩
  rw [coinSettled_eq, hstep]
  generalize strand (jamHead e .refund s) = y at hn
  have hcall : y.call = callOf (slotJammed e rest sl) s := hn.same .call
  have hcoin : y.coin = allStranded (coinJammed e .refund s) := hn.same .coin
  have hloglen : y.store.log = s.store.log := hn.same .log
  have halone : RunAlone y := by
    refine ⟨?_, ?_, (hn.same .rate : _ = s.rate).trans hrate, ?_⟩
    · rw [hcall]; exact hclosing
    · rw [hcall]; exact hstart
    · rw [hcall]; exact hasked
  have hrun : y.coin.run = .callEnd := by rw [hcoin, allStranded_run]; exact hr
  exact (runStored_update hn).trans (runStored_notifies halone hrun (by rw [hcall]; rfl) (by rw [hcall]; exact hstate)
    (by rw [hloglen]; exact hlog))

/-- COIN after a jam that has ended a run. -/
theorem jammed_coin {e : EscrowEntry} {rest : List EscrowEntry} (hl : s.coin.escrow = e :: rest)
    (hb : s.coin.blind = false) (hreport : s.coin.report = false) :
    ({ allStranded (coinJammed e .refund s) with run := .none, report := false } : CoinBlock) =
      { allStranded { s.coin with
          escrow := rest, gone := s.coin.gone + 1, order := .outOfOrder, mover := .idle, exitTimer := none
          tally := { s.coin.tally with jammed :=
            ⟨s.coin.tally.jammed.coins + 1, s.coin.tally.jammed.value + e.value⟩ } } with run := .none } := by
  unfold coinJammed
  generalize s.coin = c at *
  cases c
  dsimp only at hl hb hreport
  subst hl hb hreport
  unfold allStranded
  cases rest with
  | nil => rfl
  | cons a l => rfl

theorem jamClears_effect {e : EscrowEntry} {rest : List EscrowEntry} {sl : Slot} {d : Nat}
    (hl : s.coin.escrow = e :: rest) (h : CallClearing s sl) :
    let t := finish s (coinSettled (jamHead e .refund (reach (some d) s)))
    t.now = max s.now d
      ∧ t.coin = { allStranded { s.coin with
          escrow := rest, gone := s.coin.gone + 1, order := .outOfOrder, mover := .idle, exitTimer := none
          tally := { s.coin.tally with jammed :=
            ⟨s.coin.tally.jammed.coins + 1, s.coin.tally.jammed.value + e.value⟩ } } with run := .none }
      ∧ LogTook [slotJammed e rest sl] s.store.log t ∧ ClearingLeft s.call.replaced s t
      ∧ t.vault.counters = s.vault.counters ∧ JamActive t.incd.map
      ∧ OnlyChanges [.now, .coin, .vault, .call, .keys, .log, .incd] s t := by
  intro t
  obtain ⟨v, i, hv, hi, hn⟩ := jamClears (s := reach (some d) s) hl h
  obtain ⟨-, -, -, -, -, -, -, -, -, hb, hreport, -⟩ := h
  obtain ⟨hcoin, hlog, hleft, hvault, hincd, honly⟩ := runStored_holds (s0 := s) hn
  have hkeep : OnlyChanges [.now, .coin, .vault, .call, .keys, .log, .incd] s t :=
    ((only_reach.wider (by decide)).step pathLeft_only (by decide)).step honly (by decide)
  have hcounters : t.vault.counters = s.vault.counters := (congrArg VaultBlock.counters hvault).trans hv
  refine ⟨honly .now (by decide), hcoin.trans (jammed_coin hl hb hreport), hlog, hleft, hcounters, ?_, hkeep⟩
  rw [show t.incd = _ from hincd]
  exact hi

end Sys2Proof.Machine

open Sys2Proof Sys2Proof.Machine

end

section
/-! O57: COLLECT strokes confirmed and jammed, blind strokes, and the purge. -/

namespace Sys2Proof.Machine

variable {s t u v w x y : State}

/-! ### A COLLECT stroke confirmed (R74, R92) -/

/-- COIN after the head has been collected. -/
def coinCollected (s : State) : CoinBlock :=
  { s.coin with
    escrow := s.coin.escrow.tail, gone := s.coin.gone + 1, mover := .idle, exitTimer := none, blind := false }

/-- The vault with the coin counted, under its stroke's number. -/
def vaultCollected (e : EscrowEntry) (n : Nat) (s : State) : VaultBlock :=
  { s.vault with counters := countedIn e s.vault.counters, lastStroke := some n }

theorem collectHead_left (e : EscrowEntry) (n : Nat) (s : State) : ∃ v i,
    v.counters = countedIn e s.vault.counters ∧ v.lastStroke = some n
      ∧ Notifies (pathLeft s.call (coinCollected s) v i s) (collectHead e n s) := by
  have hn := vaultRefresh_notifies (pathLeft s.call (coinCollected s) (vaultCollected e n s) s.incd s)
  have hvault := vaultRefresh_vault (pathLeft s.call (coinCollected s) (vaultCollected e n s) s.incd s)
  exact ⟨_, _, by rw [hvault]; rfl, by rw [hvault]; rfl, hn.trans (notifies_post ..)⟩

/-- R92: the coin credited, and its stroke's number kept. -/
def credited (value n : Nat) (s : State) : State :=
  { s with
    call := { s.call with lastCredited := some n }, rate := { s.rate with acct := s.rate.acct.credit value } }

theorem creditCollected_eq {value n : Nat} (h : rating s = true) :
    creditCollected value n s = settleDue (credited value n s) := by
  obtain ⟨hinactive, hended⟩ := rating_phase h
  unfold creditCollected
  cases hp : s.rate.phase with
  | inactive => exact absurd hp hinactive
  | ended => exact absurd hp hended
  | settling | running | warning | grace => rfl

/-- The state in which the collected coin is settled. -/
def collectTold (e : EscrowEntry) (n : Nat) (s : State) : State := credited e.value n (collectHead e n s)

/-- What the settlement of a collected coin starts from. -/
theorem collectTold_facts (e : EscrowEntry) (n : Nat) (s : State) : (collectTold e n s).coin = coinCollected s
    ∧ (collectTold e n s).vault.counters = countedIn e s.vault.counters
    ∧ (collectTold e n s).vault.lastStroke = some n
    ∧ (collectTold e n s).call = { s.call with lastCredited := some n }
    ∧ (collectTold e n s).rate = { s.rate with acct := s.rate.acct.credit e.value }
    ∧ (collectTold e n s).store.log = s.store.log
    ∧ OnlyChanges [.coin, .vault, .rate, .call, .incd] s (collectTold e n s) ∧ LinkKept s (collectTold e n s) := by
  obtain ⟨v, i, hcounters, hlast, hn⟩ := collectHead_left e n s
  have htold := hn.update (credited e.value n) rfl fun _ => rfl
  have hvault : (collectTold e n s).vault = v := htold.same .vault
  have honly : OnlyChanges [.coin, .vault, .rate, .call, .incd] s
      (credited e.value n (pathLeft s.call (coinCollected s) v i s)) := by
    intro p hp
    cases p
    case clock => exact ⟨rfl, rfl⟩
    case coin | vault | rate | call | incd => exact absurd (by decide) hp
    all_goals rfl
  refine ⟨htold.same .coin, by rw [hvault, hcounters], by rw [hvault, hlast], htold.same .call, htold.same .rate,
    htold.same .log, honly.step htold.only (List.nil_subset _), ?_⟩
  have hlink : LinkKept (credited e.value n (pathLeft s.call (coinCollected s) v i s)) (collectTold e n s) :=
    htold.linkKept (linkKept_of_link rfl)
  exact hlink

theorem headStroke_collect {e : EscrowEntry} {rest : List EscrowEntry} {n : Nat} (hl : s.coin.escrow = e :: rest)
    (hm : e.moving = some (.collect, n)) : headStroke s = some (e, n) := by
  unfold headStroke
  rw [hl]
  dsimp only
  rw [hm]
  rfl

/-- What a confirmed COLLECT hands on. -/
theorem exec_vaultSensor_collect {e : EscrowEntry} {rest : List EscrowEntry} {n : Nat} (ha : alive s = true)
    (hm : s.coin.mover = .collecting) (hb : s.coin.blind = false) (hl : s.coin.escrow = e :: rest)
    (he : e.moving = some (.collect, n)) :
    exec .vaultSensor s = .next (finish s (coinSettled (collectConfirmed e n s))) :=
  exec_alive ha ((if_pos hm).trans ((if_neg (by rw [hb]; decide)).trans (by rw [headStroke_collect hl he])))

theorem collectConfirmed_settles {e : EscrowEntry} {n : Nat} (hr : rating s = true) (hd : 0 < s.rate.acct.due) :
    collectConfirmed e n s =
      postCoin (.collected (some (e.denom, e.value))) (actVerdict (settle (collectTold e n s))) := by
  obtain ⟨v, i, -, -, hn⟩ := collectHead_left e n s
  have hrate : (collectHead e n s).rate = s.rate := hn.same .rate
  have hrated : rating (collectHead e n s) = true := by
    rw [rating_of_rate (congrArg RateBlock.closing hrate) (congrArg RateBlock.phase hrate)]; exact hr
  have hcredit : creditCollected e.value n (collectHead e n s) = settle (collectTold e n s) := by
    rw [creditCollected_eq hrated]
    exact settleDue_runs (s := collectTold e n s) hrated (by
      show 0 < (collectHead e n s).rate.acct.due; rw [hrate]; exact hd)
  unfold collectConfirmed
  rw [hcredit]

theorem undisturbed_of_same (hu : Undisturbed s) (hcoin : t.coin.run = s.coin.run ∧ t.coin.report = s.coin.report)
    (hcall : t.call.atStart = s.call.atStart ∧ t.call.closingSlot = s.call.closingSlot ∧ t.call.state = s.call.state)
    (hrate : t.rate.closing = s.rate.closing ∧ t.rate.phase = s.rate.phase) : Undisturbed t := by
  obtain ⟨hrun, hreport, hstart, hclosing, hstate, hc, hp⟩ := hu
  obtain ⟨h1, h2, h3⟩ := hcall
  refine ⟨hcoin.1.trans hrun, hcoin.2.trans hreport, h1.trans hstart, h2.trans hclosing, ?_, hrate.1.trans hc, ?_⟩
  · rw [h3]; exact hstate
  · rw [hrate.2]; exact hp

theorem collectTold_undisturbed {e : EscrowEntry} {n : Nat} (hu : Undisturbed s) : Undisturbed (collectTold e n s) := by
  obtain ⟨hcoin, -, -, hcall, hrate, -⟩ := collectTold_facts e n s
  exact undisturbed_of_same hu (by rw [hcoin]; exact ⟨rfl, rfl⟩) (by rw [hcall]; exact ⟨rfl, rfl, rfl⟩)
    (by rw [hrate]; exact ⟨rfl, rfl⟩)

/-- Nothing follows a settlement in an undisturbed step but a COIN notice. -/
theorem settledInto_posted {o : CoinOutcome} (hu : Undisturbed u) :
    SettledInto u (coinSettled (postCoin o (actVerdict (settle u)))) := by
  intro hq
  have hpost := postCoin_notifies o (actVerdict (settle u))
  rw [coinSettled_undisturbed (undisturbed_of_notifies hpost (hq.1 hu))]
  exact hpost

section Collected

variable {e : EscrowEntry} {rest : List EscrowEntry} {n : Nat}

/-- COIN after a confirmed COLLECT, as a frame has it. -/
theorem collected_coin (hl : s.coin.escrow = e :: rest) (hb : s.coin.blind = false) : coinCollected s =
    { s.coin with escrow := rest, gone := s.coin.gone + 1, mover := .idle, exitTimer := none } := by
  unfold coinCollected
  rw [hl, ← hb]
  rfl

theorem collectTold_covers (h : s.rate.acct.due ≤ s.rate.acct.unused + e.value) :
    (collectTold e n s).rate.acct.due ≤ (collectTold e n s).rate.acct.unused := by
  obtain ⟨-, -, -, -, hrate, -⟩ := collectTold_facts e n s
  rw [hrate]
  exact h

theorem collect_linkKept {s0 : State} : LinkKept (collectTold e n s) (finish s0 (coinSettled
    (postCoin (.collected (some (e.denom, e.value))) (actVerdict (settle (collectTold e n s)))))) :=
  linkKept_of_kept (.after coinSettled_kept (.after post_kept (actVerdict_kept settle_kept)))

/-- The settlement of a collected coin that U covers. -/
theorem collect_settled (hu : Undisturbed s) (hr : rating s = true) (hd : 0 < s.rate.acct.due)
    (hc : s.rate.acct.due ≤ s.rate.acct.unused + e.value) (hh : s.call.heldFollowOn = false)
    (ht : t = finish s (coinSettled (collectConfirmed e n s))) :
    t.rate = { (collectTold e n s).rate with
        acct := (collectTold e n s).rate.acct.stepped (collectTold e n s).rate.acct.due, phase := warnPhase t
        graceTimer := none, graceExpired := false }
      ∧ t.call = phaseTold (collectTold e n s).rate.phase (warnPhase t) (collectTold e n s).now (collectTold e n s).call
      ∧ OnlyChanges [.rate, .call] (collectTold e n s) t := by
  obtain ⟨-, -, -, hcall, -⟩ := collectTold_facts e n s
  rw [ht, collectConfirmed_settles hr hd]
  obtain ⟨hrate, htcall, honly, -⟩ := settlement_covers (s0 := s) (settledInto_posted
    (o := .collected (some (e.denom, e.value))) (collectTold_undisturbed (e := e) (n := n) hu)) collect_linkKept
    (collectTold_covers hc) (by rw [hcall]; exact hh)
  exact ⟨hrate, htcall, honly⟩

theorem collect_effect (hu : Undisturbed s) (hr : rating s = true) (hl : s.coin.escrow = e :: rest)
    (hb : s.coin.blind = false) (hd : 0 < s.rate.acct.due) (hc : s.rate.acct.due ≤ s.rate.acct.unused + e.value)
    (hh : s.call.heldFollowOn = false) :
    let t := finish s (coinSettled (collectConfirmed e n s))
    t.coin = { s.coin with escrow := rest, gone := s.coin.gone + 1, mover := .idle, exitTimer := none }
      ∧ t.vault.counters = countedIn e s.vault.counters ∧ t.vault.lastStroke = some n ∧ t.call.lastCredited = some n
      ∧ t.rate.acct = { s.rate.acct with
          collected := s.rate.acct.collected + e.value, charged := s.rate.acct.charged + s.rate.acct.due
          unused := s.rate.acct.unused + e.value - s.rate.acct.due, due := 0, last := some e.value }
      ∧ t.rate.phase = warnPhase t ∧ OnlyChanges [.coin, .vault, .rate, .call, .incd] s t := by
  intro t
  obtain ⟨hcoin, hcounters, hlast, hcall, hrate, -, honly, -⟩ := collectTold_facts e n s
  obtain ⟨htrate, htcall, htonly⟩ := collect_settled (t := t) (n := n) hu hr hd hc hh rfl
  clear_value t
  generalize collectTold e n s = c at *
  have hvault : t.vault = c.vault := htonly .vault (by decide)
  refine ⟨(htonly .coin (by decide) : t.coin = _).trans (hcoin.trans (collected_coin hl hb)), ?_, ?_, ?_, ?_, ?_,
    honly.step htonly (by decide)⟩
  · rw [hvault, hcounters]
  · rw [hvault, hlast]
  · obtain ⟨a, b, h, heq⟩ := phaseTold_eq c.rate.phase (warnPhase t) c.now c.call
    rw [htcall, heq, hcall]
  · refine (congrArg RateBlock.acct htrate).trans ?_
    rw [hrate]
    rfl
  · exact congrArg RateBlock.phase htrate

theorem settlementDone_rate (s : State) : (settlementDone s).rate = { s.rate with
    acct := s.rate.acct.stepped s.rate.acct.due, phase := (settlementDone s).rate.phase, graceTimer := none
    graceExpired := false } := rfl

theorem settlementDone_coin (s : State) : (settlementDone s).coin = s.coin := rfl

theorem settlementDone_vault (s : State) : (settlementDone s).vault = s.vault := rfl

theorem settlementDone_link (s : State) : (settlementDone s).link = s.link := rfl

theorem LinkKept.settled (h : LinkKept s t) : LinkKept (settlementDone s) t := by
  unfold LinkKept at h ⊢; rw [settlementDone_link]; exact h

theorem linkKept_settled (h : LinkKept s t) : LinkKept s (settlementDone t) := by
  unfold LinkKept at h ⊢; rw [settlementDone_link]; exact h

/-- A FOLLOW-ON press held until the coin was collected. -/
theorem collect_followEnds {sl : Slot} (hu : Undisturbed s) (hr : rating s = true) (hd : 0 < s.rate.acct.due)
    (hc : s.rate.acct.due ≤ s.rate.acct.unused + e.value) (hh : s.call.heldFollowOn = true)
    (hs : s.call.state = .connected) (ho : s.call.openSlot = some sl) (hlog : s.store.log.records.length < 64) :
    FollowOnEnded (settlementDone (collectTold e n s)) (finish s (coinSettled (collectConfirmed e n s))) sl := by
  obtain ⟨hcoin, -, -, hcall, -, hloglen, -, -⟩ := collectTold_facts e n s
  have hinto := settledInto_posted (o := .collected (some (e.denom, e.value)))
    (collectTold_undisturbed (e := e) (n := n) hu)
  obtain ⟨hrun, -, hstart, hclosing, -⟩ := hu
  rw [collectConfirmed_settles hr hd]
  exact settlement_follows hinto (LinkKept.settled collect_linkKept)
    (collectTold_covers hc) (by rw [hcall]; exact hh) (by rw [hcall]; exact hs) (by rw [hcall]; exact ho)
    (by rw [hcall]; exact hclosing) (by rw [hcall]; exact hstart) (by rw [hcoin]; exact hrun)
    (by rw [hloglen]; exact hlog)

theorem collect_follows {sl : Slot} (hu : Undisturbed s) (hr : rating s = true) (hl : s.coin.escrow = e :: rest)
    (hb : s.coin.blind = false) (hd : 0 < s.rate.acct.due) (hc : s.rate.acct.due ≤ s.rate.acct.unused + e.value)
    (hh : s.call.heldFollowOn = true) (hs : s.call.state = .connected) (ho : s.call.openSlot = some sl)
    (hlog : s.store.log.records.length < 64) :
    ∃ u, OnlyChanges [.coin, .vault, .rate, .call, .incd] s u ∧ LinkKept s u
      ∧ u.coin = { s.coin with escrow := rest, gone := s.coin.gone + 1, mover := .idle, exitTimer := none }
      ∧ u.vault.counters = countedIn e s.vault.counters
      ∧ u.rate = { s.rate with
          acct := { s.rate.acct with
            collected := s.rate.acct.collected + e.value, charged := s.rate.acct.charged + s.rate.acct.due
            unused := s.rate.acct.unused + e.value - s.rate.acct.due, due := 0, last := some e.value }
          phase := u.rate.phase, graceTimer := none, graceExpired := false }
      ∧ FollowOnEnded u (finish s (coinSettled (collectConfirmed e n s))) sl := by
  have hends := collect_followEnds hu hr hd hc hh hs ho hlog (n := n)
  obtain ⟨hcoin, hcounters, -, -, hrate, -, honly, hlink⟩ := collectTold_facts e n s
  have hwant := collected_coin hl hb
  generalize collectTold e n s = c at *
  generalize finish s (coinSettled (collectConfirmed e n s)) = t at *
  refine ⟨settlementDone c, honly.step settlementDone_only (by decide), linkKept_settled hlink, ?_, ?_, ?_, hends⟩
  · rw [settlementDone_coin, hcoin, hwant]
  · rw [settlementDone_vault, hcounters]
  · rw [settlementDone_rate]
    generalize (settlementDone c).rate.phase = q
    rw [hrate]
    rfl

end Collected

end Sys2Proof.Machine

open Sys2Proof Sys2Proof.Machine

end

section
/-! O57: blind strokes and the purge, the jam of a COLLECT, and the obligation. -/

namespace Sys2Proof.Machine

variable {s t u v w x y : State}

/-! ### Blind strokes of the service actions (R81, R136) -/

/-- COIN with the mover at rest. -/
def coinRested (s : State) : CoinBlock := { s.coin with mover := .idle, exitTimer := none, blind := false }

theorem replyBlind_outstanding {k : Byte} {passed : Bool} (h : s.link.outstanding = some k) :
    replyBlind passed s = respond k .ok (markBytes passed) s := by
  unfold replyBlind; rw [h]

/-- A blind stroke's end, answered: nothing else follows it. -/
theorem replyBlind_effect {k : Byte} {passed : Bool} (hu : Undisturbed v) (hlink : Kept True s v)
    (ho : s.link.outstanding = some k) :
    Answered (k + 0x80) (0 :: markBytes passed) s (finish s (coinSettled (replyBlind passed v)))
      ∧ (finish s (coinSettled (replyBlind passed v))).body = v.body := by
  have hv : v.link.outstanding = some k :=
    ((congrArg LinkBlock.outstanding (hlink.wires trivial) :) : v.link.outstanding = _).trans ho
  rw [replyBlind_outstanding hv, coinSettled_undisturbed (undisturbed_of_same (s := v)
    (t := respond k .ok (markBytes passed) v) hu ⟨rfl, rfl⟩ ⟨rfl, rfl, rfl⟩ ⟨rfl, rfl⟩)]
  exact ⟨finish_answered s s (respond k .ok (markBytes passed) v) (replyKind k) (0 :: markBytes passed)
    (congrArg LinkBlock.tx (hlink.wires trivial) :) rfl rfl, (finish_body ..).trans rfl⟩

theorem rested_undisturbed (hu : Undisturbed s) : Undisturbed (restMover s) :=
  undisturbed_of_same hu ⟨rfl, rfl⟩ ⟨rfl, rfl, rfl⟩ ⟨rfl, rfl⟩

theorem exec_returnSensor_blind (ha : alive s = true) (hm : s.coin.mover = .refunding) (hb : s.coin.blind = true) :
    exec .returnSensor s =
      .next (finish s (coinSettled (if s.coin.run = .purge then purgePassed s else blindRefunded s))) :=
  exec_alive ha ((if_pos hm).trans (if_pos hb))

theorem exec_vaultSensor_blind (ha : alive s = true) (hm : s.coin.mover = .collecting) (hb : s.coin.blind = true) :
    exec .vaultSensor s = .next (finish s (coinSettled (blindCollected s))) :=
  exec_alive ha ((if_pos hm).trans (if_pos hb))

theorem strokeEnds_blind (hb : s.coin.blind = true) : strokeEnds s =
    if s.coin.run = .purge then endPurge s else replyBlind false (restMover s) := by
  unfold strokeEnds; rw [if_pos hb]

section Blind

variable {k : Byte}

theorem blindRefunded_effect (hu : Undisturbed s) (ho : s.link.outstanding = some k) :
    Answered (k + 0x80) [0, 1] s (finish s (coinSettled (blindRefunded s)))
      ∧ (finish s (coinSettled (blindRefunded s))).body = { s with coin := coinRested s }.body := by
  have hn := postCoin_notifies (.refunded none) (restMover s)
  obtain ⟨hanswered, hbody⟩ := replyBlind_effect (passed := true) (s := s)
    (undisturbed_of_notifies hn (rested_undisturbed hu)) (.after post_kept restMover_kept) ho
  exact ⟨hanswered, hbody.trans hn.body⟩

/-- A blind COLLECT's coin counted, before its notice. -/
def blindCounted (s : State) : State := postVault (vaultRefresh (setCounters s.vault.counters.blind (restMover s)))

theorem blindCounted_left (s : State) : ∃ v i,
    v.counters = { s.vault.counters with
      unknown := s.vault.counters.unknown + 1, total := s.vault.counters.total + 1 }
    ∧ Notifies (pathLeft s.call (coinRested s) v i s) (blindCounted s) := by
  have hn := vaultRefresh_notifies (setCounters s.vault.counters.blind (restMover s))
  exact ⟨_, _, vaultRefresh_counters .., hn.trans (notifies_post ..)⟩

theorem blindCollected_effect (hu : Undisturbed s) (ho : s.link.outstanding = some k) :
    let t := finish s (coinSettled (blindCollected s))
    Answered (k + 0x80) [0, 1] s t ∧ t.coin = coinRested s
      ∧ t.vault.counters = { s.vault.counters with
          unknown := s.vault.counters.unknown + 1, total := s.vault.counters.total + 1 }
      ∧ OnlyChanges [.coin, .vault, .incd] s t := by
  intro t
  obtain ⟨v, i, hv, hleft⟩ := blindCounted_left s
  have hn := hleft.trans (postCoin_notifies (.collected none) (blindCounted s))
  have hundisturbed := undisturbed_of_notifies hn
    (undisturbed_of_same (t := pathLeft s.call (coinRested s) v i s) hu ⟨rfl, rfl⟩ ⟨rfl, rfl, rfl⟩ ⟨rfl, rfl⟩)
  obtain ⟨hanswered, hbody⟩ := replyBlind_effect (passed := true) (s := s) hundisturbed
    (.after post_kept (.after post_kept (.after vaultRefresh_kept (.after (setCounters_kept id) restMover_kept)))) ho
  have hbody' : t.body = _ := hbody.trans hn.body
  have honly : OnlyChanges [.coin, .vault, .incd] s (pathLeft s.call (coinRested s) v i s) := by
    intro p hp
    cases p
    case clock => exact ⟨rfl, rfl⟩
    case coin | vault | incd => exact absurd (by decide) hp
    all_goals rfl
  have hvault : t.vault = v := same_of_body hbody' .vault
  refine ⟨hanswered, same_of_body hbody' .coin, ?_, honly.step (only_of_body (l := []) hbody') (List.nil_subset _)⟩
  rw [hvault, hv]

theorem blindMissed_effect {d : Nat} (hu : Undisturbed s) (hb : s.coin.blind = true) (hr : s.coin.run = .none)
    (ho : s.link.outstanding = some k) :
    let t := finish s (coinSettled (strokeEnds (reach (some d) s)))
    Answered (k + 0x80) [0, 0] s t ∧ Posted [] s t
      ∧ t.body = { s with now := max s.now d, coin := coinRested s }.body := by
  have hrun : ¬ ((reach (some d) s).coin.run = .purge) := by
    show ¬ (s.coin.run = .purge); rw [hr]; decide
  have hends : strokeEnds (reach (some d) s) = respond k .ok [0] (restMover (reach (some d) s)) := by
    rw [strokeEnds_blind (s := reach (some d) s) hb, if_neg hrun,
      replyBlind_outstanding (s := restMover (reach (some d) s)) ho]
    rfl
  have hsettled : coinSettled (respond k .ok [0] (restMover (reach (some d) s))) =
      respond k .ok [0] (restMover (reach (some d) s)) :=
    coinSettled_undisturbed (undisturbed_of_same hu ⟨rfl, rfl⟩ ⟨rfl, rfl, rfl⟩ ⟨rfl, rfl⟩)
  intro t
  have ht : t = finish s (respond k .ok [0] (restMover (reach (some d) s))) := by rw [← hsettled, ← hends]
  rw [ht]
  exact finish_replied k .ok [0] [] s (restMover (reach (some d) s)) rfl rfl rfl rfl rfl

end Blind

/-! ### The purge (R85) -/

/-- A purge that no record and no account waits for. -/
def Purging (s : State) : Prop :=
  s.coin.run = .purge ∧ s.call.atStart = [] ∧ s.call.closingSlot = none ∧ s.call.state ≠ .clearing
    ∧ s.coin.report = false ∧ s.rate = RateBlock.inactive

theorem coinSettled_purging (h : Purging s) : coinSettled s = s := by
  obtain ⟨hrun, hstart, hclosing, hstate, hreport, hrate⟩ := h
  have hstep : runStep s = s := by unfold runStep; rw [hrun]
  rw [coinSettled_eq, hstep]
  exact progress_nothing ⟨hclosing, hstart, hreport⟩ hstate (by rw [hrate]; rfl) (by rw [hrate]; nofun)

/-- COIN when the purge has ended. -/
def purgeOver (k : CoinBlock) : CoinBlock :=
  { k with
    escrow := [], gone := enteredCoins k, mover := .idle, exitTimer := none, blind := false, run := .none
    report := false }

theorem endPurge_eq (h : Purging s) : endPurge s = { s with coin := purgeOver s.coin } := by
  obtain ⟨hrun, hstart, -⟩ := h
  have hwanted : (decide ((restMover (emptyList s)).coin.run = .callEnd)
      || !(restMover (emptyList s)).call.atStart.isEmpty) = false := by
    show (decide (s.coin.run = .callEnd) || !s.call.atStart.isEmpty) = false
    rw [hrun, hstart]
    rfl
  unfold endPurge endRun
  dsimp only
  rw [hwanted]
  rfl

theorem purgeOver_undisturbed (h : Purging s) : Undisturbed { s with coin := purgeOver s.coin } := by
  obtain ⟨-, hstart, hclosing, hstate, -, hrate⟩ := h
  exact ⟨rfl, rfl, hstart, hclosing, hstate, (congrArg RateBlock.closing hrate :), fun hp => by
    have hphase : s.rate.phase = .ended := hp
    exact absurd (hphase.symm.trans (congrArg RateBlock.phase hrate)) nofun⟩

theorem coinSettled_endPurge (h : Purging s) : coinSettled (endPurge s) = { s with coin := purgeOver s.coin } := by
  rw [endPurge_eq h, coinSettled_undisturbed (purgeOver_undisturbed h)]

theorem Purging.of_notifies (h : Purging s) (hn : Notifies s t) : Purging t := by
  obtain ⟨l, -, rfl⟩ := hn; exact h

/-- The purge's coin counted. -/
def purgeCounted (s : State) : State :=
  { s with coin := { s.coin with purgeCount := s.coin.purgeCount.map (· + 1) } }

/-- The purge's next stroke begun. -/
def purgeStroked (s : State) : State :=
  beginBlind .refund { s with coin := { s.coin with purgeStrokes := s.coin.purgeStrokes + 1 } }

theorem purgeGoesOn_effect (h : Purging s) (hm : s.coin.mover = .refunding) (hb : s.coin.blind = true)
    (hlt : s.coin.purgeStrokes < 13) : (finish s (coinSettled (purgePassed s))).body =
      { s with coin := { s.coin with
          exitTimer := some (s.now + 800), purgeStrokes := s.coin.purgeStrokes + 1
          purgeCount := s.coin.purgeCount.map (· + 1) } }.body := by
  have hn := (postCoin_notifies (.refunded none) (purgeCounted s)).update purgeStroked rfl fun _ => rfl
  have hstrokes : ¬ 13 ≤ (postCoin (.refunded none) (purgeCounted s)).coin.purgeStrokes := by
    rw [((postCoin_notifies (.refunded none) (purgeCounted s)).same .coin : _ = (purgeCounted s).coin)]
    exact Nat.not_le.mpr hlt
  have hpassed : purgePassed s = purgeStroked (postCoin (.refunded none) (purgeCounted s)) := if_neg hstrokes
  have hpurging : Purging (purgeStroked (purgeCounted s)) := h
  have hcoin : (purgeStroked (purgeCounted s)).coin = { s.coin with
      exitTimer := some (s.now + 800), purgeStrokes := s.coin.purgeStrokes + 1
      purgeCount := s.coin.purgeCount.map (· + 1) } := by
    show ({ s.coin with
      mover := .refunding, exitTimer := some (s.now + 800), blind := true
      purgeStrokes := s.coin.purgeStrokes + 1, purgeCount := s.coin.purgeCount.map (· + 1) } : CoinBlock) = _
    rw [← hm, ← hb]
  rw [hpassed, coinSettled_purging (hpurging.of_notifies hn), finish_body, hn.body, ← hcoin]
  rfl

/-- The purge ended with the escrow OUT_OF_ORDER. -/
def purgeFailed (i : IncdBlock) (s : State) : State :=
  { s with coin := purgeOver { s.coin with order := .outOfOrder }, incd := i }

theorem purgeFails_notifies (h : Purging s) (hge : 13 ≤ s.coin.purgeStrokes) :
    Notifies (purgeFailed (countOccurrence .escrowJam s).incd (purgeCounted s)) (coinSettled (purgePassed s)) := by
  have hposted := postCoin_notifies (.refunded none) (purgeCounted s)
  have hpassed : purgePassed s = endPurge (escrowFails (postCoin (.refunded none) (purgeCounted s))) := by
    refine if_pos ?_
    show 13 ≤ (postCoin (.refunded none) (purgeCounted s)).coin.purgeStrokes
    rw [((postCoin_notifies (.refunded none) (purgeCounted s)).same .coin : _ = (purgeCounted s).coin)]
    exact hge
  rw [hpassed]
  generalize postCoin (.refunded none) (purgeCounted s) = x at hposted
  have hincd : (countOccurrence .escrowJam x).incd = (countOccurrence .escrowJam s).incd :=
    countOccurrence_incd_of (hposted.same .incd) (hposted.only .clock (by decide)).1
  have hfails := escrowFails_notifies x
  rw [hincd] at hfails
  generalize (countOccurrence .escrowJam s).incd = i at *
  have hfailed : Notifies (escrowFailed i (purgeCounted s)) (escrowFails x) :=
    (hposted.update (escrowFailed i) rfl fun _ => rfl).trans hfails
  have hpurging : Purging (escrowFailed i (purgeCounted s)) := h
  rw [coinSettled_endPurge (hpurging.of_notifies hfailed)]
  exact hfailed.update (fun z => { z with coin := purgeOver z.coin }) rfl fun _ => rfl

theorem purgeFails_effect (h : Purging s) (hge : 13 ≤ s.coin.purgeStrokes) :
    let t := finish s (coinSettled (purgePassed s))
    t.coin = { s.coin with
        escrow := [], gone := s.coin.gone + s.coin.escrow.length, order := .outOfOrder, mover := .idle
        exitTimer := none, blind := false, run := .none, purgeCount := s.coin.purgeCount.map (· + 1) }
      ∧ t.incd = (countOccurrence .escrowJam s).incd ∧ OnlyChanges [.coin, .incd] s t := by
  intro t
  have hbody : t.body = _ := (finish_body s _).trans (purgeFails_notifies h hge).body
  obtain ⟨-, -, -, -, hreport, -⟩ := h
  have honly : OnlyChanges [.coin, .incd] s (purgeFailed (countOccurrence .escrowJam s).incd (purgeCounted s)) := by
    intro p hp
    cases p
    case clock => exact ⟨rfl, rfl⟩
    case coin | incd => exact absurd (by decide) hp
    all_goals rfl
  refine ⟨(same_of_body hbody .coin : _ = _).trans ?_, same_of_body hbody .incd,
    honly.step (only_of_body (l := []) hbody) (List.nil_subset _)⟩
  show purgeOver { (purgeCounted s).coin with order := .outOfOrder } = _
  unfold purgeOver purgeCounted
  rw [← hreport]
  rfl

theorem purgeEnds_effect {d : Nat} (h : Purging s) (hb : s.coin.blind = true) :
    let t := finish s (coinSettled (strokeEnds (reach (some d) s)))
    LinkKept s t ∧ Posted [] s t
      ∧ t.body = { s with now := max s.now d, coin := { s.coin with
          escrow := [], gone := s.coin.gone + s.coin.escrow.length, mover := .idle, exitTimer := none
          blind := false, run := .none } }.body := by
  have hpurging : Purging (reach (some d) s) := h
  have hends : coinSettled (strokeEnds (reach (some d) s)) =
      { reach (some d) s with coin := purgeOver s.coin } := by
    rw [strokeEnds_blind (s := reach (some d) s) hb, if_pos hpurging.1, coinSettled_endPurge hpurging]
    rfl
  have hkept : Kept True s { reach (some d) s with coin := purgeOver s.coin } := by
    have hend := endPurge_kept (wired := True) (s := reach (some d) s)
    rw [endPurge_eq hpurging] at hend
    exact hend.after reach_kept
  obtain ⟨hrun, -, -, -, hreport, -⟩ := h
  have hkey : creditKey s = creditKey { reach (some d) s with coin := purgeOver s.coin } := by
    have hbefore : callE s = 0 := by
      unfold callE ownEscrow escrowElsewhere
      rw [hrun]
      simp
    have hafter : callE { reach (some d) s with coin := purgeOver s.coin } = 0 := by
      unfold callE ownEscrow
      split <;> rfl
    unfold creditKey
    rw [hbefore, hafter]
    rfl
  intro t
  have ht : t = finish s { reach (some d) s with coin := purgeOver s.coin } := by rw [← hends]
  rw [ht]
  obtain ⟨hlink, hposted, hbody⟩ := finish_silent hkept rfl rfl rfl hkey
  refine ⟨hlink, hposted, hbody.trans ?_⟩
  unfold purgeOver
  rw [← hreport]
  rfl

/-! ### A COLLECT stroke that jams (R75, R92) -/

/-- The state that the settlement after a jammed COLLECT starts from. -/
def collectJam (d : Nat) (e : EscrowEntry) (s : State) : State := jamHead e .collect (reach (some d) s)

theorem collectJam_facts {d : Nat} {e : EscrowEntry} {sl : Slot} (hu : Undisturbed s)
    (ho : s.call.openSlot = some sl) : ∃ v i, v.counters = s.vault.counters ∧ JamActive i.map
      ∧ Notifies (pathLeft (callOf (sl.modify (jamCounted e)) s) (coinJammed e .collect s) v i (reach (some d) s))
          (collectJam d e s) := by
  obtain ⟨hrun, -, hstart, hclosing, -⟩ := hu
  have helse : escrowElsewhere (reach (some d) s) = false := by
    show (s.call.closingSlot.isSome || !s.call.atStart.isEmpty || decide (s.coin.run = .startUp)
      || decide (s.coin.run = .purge)) = false
    rw [hclosing, hstart, hrun]
    rfl
  exact jamHead_left (s := reach (some d) s) (modifyOwner_ofOpen (f := jamCounted e) helse ho)

theorem collectJam_coin {e : EscrowEntry} {rest : List EscrowEntry} (hl : s.coin.escrow = e :: rest)
    (hb : s.coin.blind = false) : coinJammed e .collect s =
    { s.coin with escrow := rest, gone := s.coin.gone + 1, order := .outOfOrder, mover := .idle, exitTimer := none } := by
  unfold coinJammed
  rw [hl, ← hb]
  rfl

theorem settledInto_settled (hu : Undisturbed u) : SettledInto u (coinSettled (actVerdict (settle u))) := by
  intro hq
  rw [coinSettled_undisturbed (hq.1 hu)]
  exact .refl

/-- R94: no coin can be stroked or awaited, and the escrow has failed. -/
theorem settlement_fails {sl : Slot} (hw : SettledInto u w) (hlink : LinkKept u (finish s w)) (h : RatedOpen u sl)
    (hd : u.rate.acct.unused < u.rate.acct.due) (ho : u.coin.order = .outOfOrder) :
    RatedCallEnded .escrowFault u.now u (finish s w) sl := by
  have hmover := h
  obtain ⟨-, -, -, -, htransit, -, hidle, -, -⟩ := hmover
  refine settlement_ends hw hlink ?_ h (.inr ho)
  rw [settle_noStroke hd (.inl ⟨hidle, .inr (.inl ho)⟩), if_neg (by rw [htransit]; exact Bool.false_ne_true), if_pos ho]
  rfl

theorem collectJams_effect {d : Nat} {e : EscrowEntry} {rest : List EscrowEntry} {sl : Slot}
    (hb : s.coin.blind = false) (hl : s.coin.escrow = e :: rest) (hm : s.coin.mover = .collecting)
    (hu : Undisturbed s) (hr : rating s = true) (hd : s.rate.acct.unused < s.rate.acct.due)
    (htransit : s.coin.transit = none) (ho : s.call.openSlot = some sl) (hlog : s.store.log.records.length < 64) :
    ∃ u, OnlyChanges [.now, .coin, .call, .vault, .incd] s u ∧ LinkKept s u ∧ u.now = max s.now d
      ∧ u.coin = { s.coin with
          escrow := rest, gone := s.coin.gone + 1, order := .outOfOrder, mover := .idle, exitTimer := none }
      ∧ u.call = { s.call with openSlot := some (sl.modify (jamCounted e)) }
      ∧ u.vault.counters = s.vault.counters ∧ JamActive u.incd.map
      ∧ RatedCallEnded .escrowFault u.now u (finish s (coinSettled (strokeEnds (reach (some d) s))))
          (sl.modify (jamCounted e)) := by
  obtain ⟨v, i, hv, hi, hn⟩ := collectJam_facts (d := d) (e := e) hu ho
  have hends : strokeEnds (reach (some d) s) = actVerdict (settleDue (collectJam d e s)) :=
    (strokeEnds_jams (s := reach (some d) s) hb hl).trans (if_pos hm)
  rw [hends]
  generalize collectJam d e s = c at *
  have hcoin : c.coin = coinJammed e .collect s := hn.same .coin
  have hcall : c.call = callOf (sl.modify (jamCounted e)) s := hn.same .call
  have hrate : c.rate = s.rate := hn.same .rate
  have hvault : c.vault = v := hn.same .vault
  have hincd : c.incd = i := hn.same .incd
  have hcs : c.store.log = s.store.log := hn.same .log
  have honly : OnlyChanges [.now, .coin, .call, .vault, .incd] s
      (pathLeft (callOf (sl.modify (jamCounted e)) s) (coinJammed e .collect s) v i (reach (some d) s)) :=
    (only_reach.wider (by decide)).step pathLeft_only (by decide)
  have hlink : LinkKept s c :=
    (hn.linkKept (linkKept_of_link rfl) :
      LinkKept (pathLeft (callOf (sl.modify (jamCounted e)) s) (coinJammed e .collect s) v i (reach (some d) s)) c)
  have hundisturbed : Undisturbed c := undisturbed_of_same hu (by rw [hcoin]; exact ⟨rfl, rfl⟩)
    (by rw [hcall]; exact ⟨rfl, rfl, rfl⟩) (by rw [hrate]; exact ⟨rfl, rfl⟩)
  have hrating : rating c = true := by
    rw [rating_of_rate (congrArg RateBlock.closing hrate) (congrArg RateBlock.phase hrate)]; exact hr
  have hopen : RatedOpen c (sl.modify (jamCounted e)) := by
    obtain ⟨hrun, hreport, hstart, hclosing, -⟩ := hu
    refine ⟨by rw [hcall]; rfl, by rw [hcall]; exact hclosing, by rw [hcall]; exact hstart, hrating,
      by rw [hcoin]; exact htransit, by rw [hcoin]; exact hrun, by rw [hcoin]; rfl, by rw [hcoin]; exact hreport, ?_⟩
    rw [hcs]; exact hlog
  have hruns : settleDue c = settle c := settleDue_runs hrating (by rw [hrate]; omega)
  refine ⟨c, honly.step hn.only (List.nil_subset _), hlink, hn.same .now, hcoin.trans (collectJam_coin hl hb), hcall,
    by rw [hvault, hv], by rw [hincd]; exact hi, ?_⟩
  rw [hruns]
  exact settlement_fails (settledInto_settled hundisturbed)
    (linkKept_of_kept (.after coinSettled_kept (actVerdict_kept settle_kept))) hopen (by rw [hrate]; exact hd)
    (by rw [hcoin]; rfl)

end Sys2Proof.Machine

open Sys2Proof Sys2Proof.Machine

/-- Settles O57: a stroke ends at its sensor or at the exit timer, and the record, the account and the run go on from there. -/
theorem strokesEndAtTheirSensors : Obligations.StrokesEndAtTheirSensors := by
  intro s ha
  refine ⟨?_, ?_, ?_, ?_, ?_, ?_⟩
  · intro e rest n hm hb hl he hu hr hd hc
    refine ⟨fun hh => ⟨_, exec_vaultSensor_collect ha hm hb hl he, ?_, collect_effect hu hr hl hb hd hc hh⟩,
      fun sl hh hs ho hlog => ?_⟩
    · exact linkKept_of_kept (.after coinSettled_kept collectConfirmed_kept)
    · obtain ⟨u, hends⟩ := collect_follows (n := n) hu hr hl hb hd hc hh hs ho hlog
      exact ⟨_, u, exec_vaultSensor_collect ha hm hb hl he, hends⟩
  · intro e e2 rest sl hm hb hl hr hord hreport ho hc hclosing hstart hrate hasked
    exact ⟨_, exec_returnSensor_refund ha hm hb hl, linkKept_of_kept (.after coinSettled_kept refundHead_kept),
      refundGoesOn_effect hl hm hb hr hord hreport ho hc ⟨hclosing, hstart, hrate, hasked⟩⟩
  · intro e hm hl hord
    have hlink : LinkKept s (finish s (coinSettled (refundHead e s))) :=
      linkKept_of_kept (.after coinSettled_kept refundHead_kept)
    refine ⟨fun sl h => ?_, fun first hr hb hreport hc hfirst hstart hclosing hp hlog => ⟨fun hs => ?_,
      fun sl hs ho hsl hasked hrate htransit => ?_⟩⟩
    · have hcall := h
      obtain ⟨-, -, -, -, -, -, -, -, -, hb, -⟩ := hcall
      exact ⟨_, exec_returnSensor_refund ha hm hb hl, hlink, refundEnds_effect hl h⟩
    · exact ⟨_, exec_returnSensor_refund ha hm hb hl, hlink,
        refundClosing_effect hl hr hb hreport hc hstart hclosing hp (by omega) hs⟩
    · exact ⟨_, exec_returnSensor_refund ha hm hb hl, hlink,
        refundBoth_effect hl hr hb hreport hc hstart hlog hs ho hasked hrate htransit⟩
  · intro k hb hr ho hu
    refine ⟨fun hm => ⟨_, exec_returnSensor_blind ha hm hb, ?_⟩, fun hm => ⟨_, exec_vaultSensor_blind ha hm hb,
      blindCollected_effect hu ho⟩, fun d hd => ⟨_, exec_exitTimerExpiry ha hd, blindMissed_effect hu hb hr ho⟩⟩
    rw [if_neg (by rw [hr]; decide)]
    exact blindRefunded_effect hu ho
  · intro hr hb hm hstart hclosing hs hreport hrate
    have h : Purging s := ⟨hr, hstart, hclosing, hs, hreport, hrate⟩
    have hexec := exec_returnSensor_blind ha hm hb
    rw [if_pos hr] at hexec
    have hlink : LinkKept s (finish s (coinSettled (purgePassed s))) :=
      linkKept_of_kept (.after coinSettled_kept purgePassed_kept)
    exact ⟨fun hlt => ⟨_, hexec, hlink, purgeGoesOn_effect h hm hb hlt⟩,
      fun hge => ⟨_, hexec, hlink, purgeFails_effect h hge⟩,
      fun d hd => ⟨_, exec_exitTimerExpiry ha hd, purgeEnds_effect h hb⟩⟩
  · intro d e rest hd hb hl
    refine ⟨fun sl hm h => ?_, fun sl hm hu hr hlt htransit ho hlog => ?_⟩
    · have hends : strokeEnds (reach (some d) s) = jamHead e .refund (reach (some d) s) :=
        (strokeEnds_jams (s := reach (some d) s) hb hl).trans (if_neg (by
          show ¬ s.coin.mover = .collecting; rw [hm]; decide))
      have hexec := exec_exitTimerExpiry ha hd
      rw [hends] at hexec
      exact ⟨_, hexec, linkKept_of_kept (.after coinSettled_kept (.after jamHead_kept reach_kept)),
        jamClears_effect hl h⟩
    · obtain ⟨u, hends⟩ := collectJams_effect (d := d) hb hl hm hu hr hlt htransit ho hlog
      exact ⟨_, u, exec_exitTimerExpiry ha hd, hends⟩

end

section
/-! A start up to the treatment of the escrow: the areas judged (R179), the blocks' starting values, INCD's readings (R154)
and the banks (R124). -/

namespace Sys2Proof.Machine

variable {s t u v w x y : State}

/-! ### The banks at a start (R124) -/

/-- Each bank keeps its contents, and neither is in use. -/
def BanksKept (k l : BankBlock) : Prop :=
  l.a.contents = k.a.contents ∧ l.b.contents = k.b.contents ∧ l.inUseA = k.inUseA ∧ l.inUseB = k.inUseB

theorem BanksKept.refl {k : BankBlock} : BanksKept k k := ⟨rfl, rfl, rfl, rfl⟩

theorem BanksKept.trans {k l m : BankBlock} (h : BanksKept k l) (g : BanksKept l m) : BanksKept k m := by
  obtain ⟨ha, hb, hua, hub⟩ := h
  obtain ⟨ga, gb, gua, gub⟩ := g
  exact ⟨ga.trans ha, gb.trans hb, gua.trans hua, gub.trans hub⟩

theorem banksKept_set {k : BankBlock} {n : BankName} {b : Bank} (h : b.contents = (k.get n).contents) :
    BanksKept k (k.set n b) := by
  cases n with
  | a => exact ⟨h, rfl, rfl, rfl⟩
  | b => exact ⟨rfl, h, rfl, rfl⟩

theorem moveBank_banksKept {n : BankName} {b : BankState} {c : BankCause} : BanksKept s.bank (moveBank n b c s).bank := by
  rw [moveBank_bank]; exact banksKept_set rfl

theorem displace_banksKept {n : BankName} : BanksKept s.bank (displace n s).bank := by
  unfold displace; split
  · exact moveBank_banksKept
  · exact .refl

theorem activate_banksKept {n : BankName} : BanksKept s.bank (activate n s).bank := by
  have hset : BanksKept (displace (otherBank n) s).bank ((displace (otherBank n) s).bank.set n
      { (displace (otherBank n) s).bank.get n with
        serial := max (displace (otherBank n) s).bank.a.serial (displace (otherBank n) s).bank.b.serial + 1
        due := none }) := banksKept_set rfl
  exact displace_banksKept.trans (hset.trans moveBank_banksKept)

theorem judgeActivation_banksKept : BanksKept s.bank (judgeActivation s).bank := by
  unfold judgeActivation
  split
  · exact .refl
  · split
    · exact .refl
    · split
      · exact activate_banksKept
      · exact .refl

theorem retireAtStart_banksKept {n : BankName} : BanksKept s.bank (retireAtStart n s).bank := by
  unfold retireAtStart; split
  · exact moveBank_banksKept
  · exact .refl

theorem resolveDoubleActive_banksKept : BanksKept s.bank (resolveDoubleActive s).bank := by
  unfold resolveDoubleActive; split
  · split <;> exact moveBank_banksKept
  · exact .refl

theorem banksAtStart_banksKept : BanksKept s.bank (banksAtStart s).bank :=
  (resolveDoubleActive_banksKept.trans (retireAtStart_banksKept.trans retireAtStart_banksKept)).trans
    judgeActivation_banksKept

/-- No bank is RETIRING. -/
def NoneRetiring (k : BankBlock) : Prop := ∀ n, (k.get n).state ≠ .retiring

theorem noneRetiring_set {k : BankBlock} {n : BankName} {b : Bank} (h : NoneRetiring k) (hb : b.state ≠ .retiring) :
    NoneRetiring (k.set n b) := by
  intro m
  cases n with
  | a => cases m with
    | a => exact hb
    | b => exact h .b
  | b => cases m with
    | a => exact h .a
    | b => exact hb

theorem moveBank_noneRetiring {n : BankName} {b : BankState} {c : BankCause} (h : NoneRetiring s.bank)
    (hb : b ≠ .retiring) : NoneRetiring (moveBank n b c s).bank := by
  rw [moveBank_bank]; exact noneRetiring_set h hb

/-- R119: with neither bank in use, the displaced bank becomes READY at once. -/
theorem displace_noneRetiring {n : BankName} (h : NoneRetiring s.bank) (hu : s.bank.inUse n = false) :
    NoneRetiring (displace n s).bank := by
  unfold displace; split
  · exact moveBank_noneRetiring h (by rw [hu]; nofun)
  · exact h

theorem activate_noneRetiring {n : BankName} (h : NoneRetiring s.bank) (hu : s.bank.inUse (otherBank n) = false) :
    NoneRetiring (activate n s).bank :=
  moveBank_noneRetiring (noneRetiring_set (displace_noneRetiring h hu) (displace_noneRetiring h hu n)) nofun

theorem judgeActivation_noneRetiring (h : NoneRetiring s.bank) (ha : s.bank.inUseA = false) (hb : s.bank.inUseB = false) :
    NoneRetiring (judgeActivation s).bank := by
  have hu (n : BankName) : s.bank.inUse n = false := by
    cases n with
    | a => exact ha
    | b => exact hb
  unfold judgeActivation
  split
  · exact h
  · split
    · exact h
    · split
      · exact activate_noneRetiring h (hu _)
      · exact h

/-- R124 step 4: of the two banks, the named one is not RETIRING, and the other one's state stays. -/
theorem retireAtStart_states (n m : BankName) (s : State) : ((retireAtStart n s).bank.get n).state ≠ .retiring
    ∧ (m ≠ n → ((retireAtStart n s).bank.get m) = s.bank.get m) := by
  unfold retireAtStart
  split
  · rw [moveBank_bank]
    refine ⟨by rw [BankBlock.get_set]; nofun, fun h => ?_⟩
    cases n <;> cases m
    · exact absurd rfl h
    · rfl
    · rfl
    · exact absurd rfl h
  · next h => exact ⟨h, fun _ => rfl⟩

theorem banksAtStart_noneRetiring (ha : s.bank.inUseA = false) (hb : s.bank.inUseB = false) :
    NoneRetiring (banksAtStart s).bank := by
  have hkept : BanksKept s.bank (retireAtStart .b (retireAtStart .a (resolveDoubleActive s))).bank :=
    resolveDoubleActive_banksKept.trans (retireAtStart_banksKept.trans retireAtStart_banksKept)
  obtain ⟨-, -, hua, hub⟩ := hkept
  refine judgeActivation_noneRetiring (fun n => ?_) (hua.trans ha) (hub.trans hb)
  obtain ⟨hfirst, -⟩ := retireAtStart_states .a .a (resolveDoubleActive s)
  obtain ⟨hsecond, hother⟩ := retireAtStart_states .b .a (retireAtStart .a (resolveDoubleActive s))
  cases n with
  | a => rw [hother nofun]; exact hfirst
  | b => exact hsecond

theorem retireAtStart_only {n : BankName} : OnlyChanges [.bank] s (retireAtStart n s) := by
  unfold retireAtStart; split
  · exact moveBank_only
  · exact .refl

theorem resolveDoubleActive_only : OnlyChanges [.bank] s (resolveDoubleActive s) := by
  unfold resolveDoubleActive; split
  · split <;> exact moveBank_only
  · exact .refl

theorem banksAtStart_only : OnlyChanges [.bank] s (banksAtStart s) :=
  ((resolveDoubleActive_only.step retireAtStart_only (by decide)).step retireAtStart_only (by decide)).step
    judgeActivation_only (by decide)

theorem banksAtStart_oneActive : OneActive (banksAtStart s) :=
  (Kept.active (wired := True) (.after judgeActivation_kept (.after retireAtStart_kept retireAtStart_kept)) :
    OneActive (resolveDoubleActive s) → OneActive (banksAtStart s)) (resolveDoubleActive_oneActive s)

/-! ### INCD's sensors -/

/-- INCD's cord state and shock window stay. -/
def SensorsKept (s t : State) : Prop := t.incd.cordOpen = s.incd.cordOpen ∧ t.incd.window = s.incd.window

theorem SensorsKept.trans (h : SensorsKept s t) (g : SensorsKept t u) : SensorsKept s u :=
  ⟨g.1.trans h.1, g.2.trans h.2⟩

theorem SensorsKept.of_incd (h : t.incd = s.incd) : SensorsKept s t := ⟨by rw [h], by rw [h]⟩

theorem SensorsKept.of_only {l : List Part} (h : OnlyChanges l s t) (hl : .incd ∉ l) : SensorsKept s t :=
  .of_incd (h .incd hl)

theorem countOccurrence_sensors {k : IncidentKind} : SensorsKept s (countOccurrence k s) := by
  unfold SensorsKept; rw [countOccurrence_incd]; exact ⟨rfl, rfl⟩

theorem clearActive_sensors {k : IncidentKind} {c : IncidentCause} : SensorsKept s (clearActive k c s) := by
  unfold SensorsKept; rw [clearActive_endedMap]; exact ⟨rfl, rfl⟩

theorem vaultRefresh_sensors : SensorsKept s (vaultRefresh s) := by
  refine .trans (t := fullFollow s) ?_ (.of_only (l := [.vault]) nearFollow_only (by decide))
  unfold fullFollow
  dsimp only
  split
  · exact ⟨rfl, rfl⟩
  · split
    · split
      · exact .trans ⟨rfl, rfl⟩ countOccurrence_sensors
      · exact .trans ⟨rfl, rfl⟩ clearActive_sensors
    · exact ⟨rfl, rfl⟩

/-- Of an occurrence that is not urgent, INCD alone knows. -/
theorem raiseIncident_counts {k : IncidentKind} (h : severityOf k ≠ .urgent) : raiseIncident k s = countOccurrence k s :=
  if_neg h

theorem reading_sensors {k : IncidentKind} {p : Bool} (h : severityOf k ≠ .urgent) : SensorsKept s (reading p k s) := by
  cases p with
  | false => exact clearActive_sensors
  | true =>
    show SensorsKept s (readPresent k s)
    unfold readPresent
    split
    · split
      · exact ⟨rfl, rfl⟩
      · rw [raiseIncident_counts h]; exact countOccurrence_sensors
    · rw [raiseIncident_counts h]; exact countOccurrence_sensors

theorem powerLossAtStart_only {k : StartKind} : OnlyChanges [.incd] s (powerLossAtStart k s) := by
  unfold powerLossAtStart; split
  · exact countOccurrence_only
  · exact .refl

theorem powerLossAtStart_sensors {k : StartKind} : SensorsKept s (powerLossAtStart k s) := by
  unfold powerLossAtStart; split
  · exact countOccurrence_sensors
  · exact ⟨rfl, rfl⟩

theorem readingsAtStart_only : OnlyChanges [.incd] s (readingsAtStart s) :=
  ((readAbsent_only.step readAbsent_only (by decide)).step (reading_only (by decide)) (by decide)).step (reading_only (by decide))
    (by decide)

theorem readingsAtStart_sensors : SensorsKept s (readingsAtStart s) :=
  ((clearActive_sensors.trans clearActive_sensors).trans (reading_sensors (by decide))).trans (reading_sensors (by decide))

/-! ### The state before the escrow is treated -/

/-- The start of kind `k`, before the escrow is treated. -/
@[irreducible] def startBlocks (k : StartKind) (s : State) : State :=
  banksAtStart (readingsAtStart (powerLossAtStart k (blocksAtStart k (judgedAt k s.store.areas) s)))

theorem startPart_eq (k : StartKind) (s : State) : startPart k s =
    escrowAtStart k (!(judgedAt k s.store.areas).invalid.contains .call)
      (!(judgedAt k s.store.areas).invalid.contains .coin) (startBlocks k s) := by
  unfold startBlocks; rfl

section Blocks

variable {k : StartKind}

theorem startBlocks_only :
    OnlyChanges [.bank, .incd] (blocksAtStart k (judgedAt k s.store.areas) s) (startBlocks k s) := by
  unfold startBlocks
  exact ((powerLossAtStart_only.step readingsAtStart_only (by decide)).wider (by decide)).step banksAtStart_only (by decide)

theorem startBlocks_sensors : (startBlocks k s).incd.cordOpen = none ∧ (startBlocks k s).incd.window = [] := by
  unfold startBlocks
  exact (powerLossAtStart_sensors.trans readingsAtStart_sensors).trans (.of_only banksAtStart_only (by decide))

/-- R124, R179: what a start makes of the banks. -/
theorem startBlocks_bank : OneActive (startBlocks k s) ∧ NoneRetiring (startBlocks k s).bank
    ∧ BanksKept ⟨(judgedAt k s.store.areas).bankA, (judgedAt k s.store.areas).bankB, false, false⟩
        (startBlocks k s).bank := by
  unfold startBlocks
  have hread : OnlyChanges [.incd] (blocksAtStart k (judgedAt k s.store.areas) s)
      (readingsAtStart (powerLossAtStart k (blocksAtStart k (judgedAt k s.store.areas) s))) :=
    powerLossAtStart_only.step readingsAtStart_only (by decide)
  have hbank := hread .bank (by decide)
  refine ⟨banksAtStart_oneActive, banksAtStart_noneRetiring (congrArg BankBlock.inUseA hbank :)
    (congrArg BankBlock.inUseB hbank :), ?_⟩
  have hkept := banksAtStart_banksKept
    (s := readingsAtStart (powerLossAtStart k (blocksAtStart k (judgedAt k s.store.areas) s)))
  rw [show (readingsAtStart (powerLossAtStart k (blocksAtStart k (judgedAt k s.store.areas) s))).bank = _ from hbank]
    at hkept
  exact hkept

theorem startBlocks_kept : Kept True (blocksAtStart k (judgedAt k s.store.areas) s) (startBlocks k s) := by
  unfold startBlocks
  exact .after judgeActivation_kept (.after retireAtStart_kept (.after retireAtStart_kept (.after resolveDoubleActive_kept
    (.after readingsAtStart_kept powerLossAtStart_kept))))

end Blocks

/-! ### The areas judged (R179) -/

theorem invalid_config (ar : Areas) : .config ∈ (judgeAreas ar).invalid ↔ ar.config.newest = none := by
  simp [judgeAreas, invalidName]

theorem invalid_call (ar : Areas) : (judgeAreas ar).invalid.contains .call = ar.call.newest.isNone := by
  rw [Bool.eq_iff_iff]; simp [judgeAreas, invalidName]

theorem invalid_coin (ar : Areas) : (judgeAreas ar).invalid.contains .coin = ar.coin.newest.isNone := by
  rw [Bool.eq_iff_iff]; simp [judgeAreas, invalidName]

theorem contentsOr_some {α : Type} {x : Area α} {f : α} {c : Copy α} (h : x.newest = some c) :
    contentsOr x f = c.contents := by unfold contentsOr; rw [h]

theorem contentsOr_none {α : Type} {x : Area α} {f : α} (h : x.newest = none) : contentsOr x f = f := by
  unfold contentsOr; rw [h]

end Sys2Proof.Machine

end

section
/-! A start's escrow and records (R84, R77, R78, R181): what they leave alone, and the storage of the records. -/

namespace Sys2Proof.Machine

variable {s t u v w x y z : State}

/-! ### What the escrow's treatment leaves alone -/

/-- CALL as a start has it: IDLE, with no record in the open or the closing slot. -/
def CallStarting (c : CallBlock) : Prop := c.openSlot = none ∧ c.closingSlot = none ∧ c.state = .idle

/-- What every step of the escrow's treatment at a start keeps. -/
structure StartKept (s t : State) : Prop where
  only : OnlyChanges [.call, .coin, .vault, .incd, .log] s t
  sensors : SensorsKept s t
  transit : t.coin.transit = s.coin.transit
  call : CallStarting s.call → CallStarting t.call
  noRecord : CallStarting s.call → s.call.atStart = [] → t.call.atStart = []

theorem StartKept.refl : StartKept s s := ⟨.refl, ⟨rfl, rfl⟩, rfl, id, fun _ => id⟩

theorem StartKept.trans (h : StartKept s t) (g : StartKept t u) : StartKept s u :=
  ⟨h.only.step g.only (fun _ hp => hp), h.sensors.trans g.sensors, g.transit.trans h.transit, g.call ∘ h.call,
    fun hc hs => g.noRecord (h.call hc) (h.noRecord hc hs)⟩

/-- A step that leaves CALL and COIN alone. -/
theorem StartKept.of_only {l : List Part} (h : OnlyChanges l s t) (hl : l ⊆ [.vault, .incd, .log])
    (hs : SensorsKept s t) : StartKept s t := by
  have hcall : t.call = s.call := h .call fun hp => absurd (hl hp) (by decide)
  have hcoin : t.coin = s.coin := h .coin fun hp => absurd (hl hp) (by decide)
  refine ⟨h.wider (List.Subset.trans hl (by decide)), hs, by rw [hcoin], ?_, ?_⟩
  · rw [hcall]; exact id
  · rw [hcall]; exact fun _ => id

/-- A step that changes COIN alone, and not the coin in transit. -/
theorem StartKept.of_coin {k : CoinBlock} (h : k.transit = s.coin.transit) : StartKept s { s with coin := k } :=
  ⟨only_coin .refl (by decide), ⟨rfl, rfl⟩, h, id, fun _ => id⟩

/-- R71: at a start the escrow's owner is the oldest record to be stored. -/
theorem modifyOwnerSlot_start {g : Slot → Slot} (h : CallStarting s.call) : modifyOwnerSlot g s =
    { s with call := { s.call with atStart := modifyHead g s.call.atStart } } := by
  obtain ⟨hopen, hclosing, -⟩ := h
  unfold modifyOwnerSlot
  rw [hclosing]
  dsimp only
  cases hs : s.call.atStart with
  | cons sl rest => rfl
  | nil =>
    have hsame : { s with call := { s.call with atStart := modifyHead g [] } } = s := by
      rw [show modifyHead g [] = s.call.atStart from hs.symm]
    have hset : setOpen (s.call.openSlot.map g) s = s := by
      have hnone : s.call.openSlot.map g = s.call.openSlot := by rw [hopen]; rfl
      rw [hnone]
      rfl
    dsimp only
    rw [hsame, hset]
    exact ite_self _

theorem modifyHead_nil {g : Slot → Slot} {l : List Slot} (h : l = []) : modifyHead g l = [] := by rw [h]; rfl

theorem modifyOwnerSlot_startKept {g : Slot → Slot} (h : CallStarting s.call) : StartKept s (modifyOwnerSlot g s) := by
  rw [modifyOwnerSlot_start h]
  exact ⟨only_call .refl (by decide), ⟨rfl, rfl⟩, rfl, id, fun _ => modifyHead_nil⟩

theorem post_startKept {k : NoticeKind} {p : List Byte} : StartKept s (post k p s) :=
  .of_only (l := []) (only_of_body (post_body ..)) (List.nil_subset _)
    (.of_only (l := []) (only_of_body (post_body ..)) nofun)

theorem vaultRefresh_startKept : StartKept s (vaultRefresh s) := .of_only vaultRefresh_only (by decide) vaultRefresh_sensors

/-- The escrow stranded into the record of its owner, the oldest to be stored. -/
def strandedStart (s : State) : State :=
  { s with
    call := { s.call with atStart := modifyHead (Slot.modify (strandCounted s.coin.escrow)) s.call.atStart }
    coin := allStranded s.coin }

theorem strandedStart_only : OnlyChanges [.call, .coin, .vault, .incd, .log] s (strandedStart s) := by
  intro p hp
  cases p
  case clock => exact ⟨rfl, rfl⟩
  case call | coin | vault | incd | log => exact absurd (by decide) hp
  all_goals rfl

theorem strand_start (h : CallStarting s.call) (hc : s.coin.escrow ≠ []) :
    strand s = postCoin (.stranded (escrowSum s.coin.escrow)) (vaultRefresh (strandedStart s)) := by
  have hcoin : allStranded s.coin = _ := if_neg hc
  unfold strandedStart
  rw [hcoin]
  unfold strand
  split
  · next hl => exact absurd hl hc
  · rw [modifyOwner, modifyOwnerSlot_start h]
    rfl

theorem strand_startKept (h : CallStarting s.call) : StartKept s (strand s) := by
  by_cases hc : s.coin.escrow = []
  · have hsame : strand s = s := by unfold strand; rw [hc]
    rw [hsame]
    exact .refl
  · have htransit : (allStranded s.coin).transit = s.coin.transit := by unfold allStranded; split <;> rfl
    have hstranded : StartKept s (strandedStart s) :=
      ⟨strandedStart_only, ⟨rfl, rfl⟩, htransit, id, fun _ => modifyHead_nil⟩
    rw [strand_start h hc]
    exact hstranded.trans (vaultRefresh_startKept.trans post_startKept)

theorem endRun_startKept : StartKept s (endRun s) := .of_coin rfl

theorem runStep_startKept (h : CallStarting s.call) : StartKept s (runStep s) := by
  have hrun : StartKept s (if s.coin.order = .outOfOrder then endRun (strand s)
      else if s.coin.escrow.isEmpty then endRun s else if s.coin.mover ≠ .idle then s else beginStroke .refund s) := by
    split
    · exact (strand_startKept h).trans endRun_startKept
    · split
      · exact endRun_startKept
      · split
        · exact .refl
        · exact .of_coin rfl
  unfold runStep
  split
  · exact hrun
  · exact hrun
  · exact .refl
  · exact .refl

/-- A refund run entered, its tallies at 0. -/
def runEntered (r : RefundRun) (s : State) : State :=
  { s with coin := { s.coin with run := r, tally := {}, report := false } }

theorem startRun_eq (r : RefundRun) (s : State) : startRun r s = runStep (runEntered r s) := rfl

theorem startRun_startKept {r : RefundRun} (h : CallStarting s.call) : StartKept s (startRun r s) :=
  StartKept.trans (t := runEntered r s) (.of_coin rfl) (runStep_startKept h)

theorem markPowerMove_startKept (h : CallStarting s.call) : StartKept s (markPowerMove s) := by
  unfold markPowerMove; split
  · exact modifyOwnerSlot_startKept h
  · exact .refl

theorem setCredited_startKept {n : Nat} : StartKept s (setCredited n s) :=
  ⟨only_call .refl (by decide), ⟨rfl, rfl⟩, rfl, id, fun _ => id⟩

theorem dropHead_startKept : StartKept s (dropHead s) := .of_coin rfl

theorem resolveMoving_startKept (h : CallStarting s.call) : StartKept s (resolveMoving s) := by
  have hgone : StartKept s (dropHead (markPowerMove s)) := (markPowerMove_startKept h).trans dropHead_startKept
  unfold resolveMoving
  split
  · exact .refl
  · dsimp only
    split
    · split
      · exact hgone.trans (setCredited_startKept.trans vaultRefresh_startKept)
      · exact hgone.trans (setCredited_startKept.trans (.trans
          (.of_only vaultCounts_only (by decide) (.of_only vaultCounts_only (by decide)))
          (vaultRefresh_startKept.trans post_startKept)))
    · exact hgone.trans ((modifyOwnerSlot_startKept (hgone.call h)).trans vaultRefresh_startKept)

/-- The run's end taken by CALL. -/
def reportTaken (s : State) : State := { s with coin := { s.coin with report := false } }

theorem takeReport_takes (h : s.coin.report = true) :
    takeReport s = modifyOwnerSlot (fun sl => { sl with complete := true }) (reportTaken s) := if_pos h

theorem takeReport_startKept (h : CallStarting s.call) : StartKept s (takeReport s) := by
  unfold takeReport; split
  · exact StartKept.trans (t := reportTaken s) (.of_coin rfl) (modifyOwnerSlot_startKept h)
  · exact .refl

theorem storeAll_startKept (l : List Slot) (s : State) : StartKept s (storeAll l s) :=
  .of_only (storeAll_only l s) (by decide) (.of_only (storeAll_only l s) (by decide))

/-- The records taken from the list of the start. -/
def recordsTaken (s : State) : State := { s with call := { s.call with atStart := [], restartEnd := none } }

theorem storeAtStart_startKept : StartKept s (storeAtStart s) := by
  unfold storeAtStart; split
  · exact .refl
  · split
    · exact StartKept.trans (t := recordsTaken s) ⟨only_call .refl (by decide), ⟨rfl, rfl⟩, rfl, id, fun _ _ => rfl⟩ (storeAll_startKept ..)
    · exact .refl

/-! ### What goes on at a start (R181) -/

theorem takeReport_report (s : State) : (takeReport s).coin.report = false := by
  unfold takeReport
  split
  · have honly : OnlyChanges [.call] (reportTaken s) (modifyOwnerSlot (fun sl => { sl with complete := true }) (reportTaken s)) :=
      modifyOwnerSlot_only
    have hcoin := honly .coin (by decide)
    exact congrArg CoinBlock.report hcoin
  · next h => exact Bool.eq_false_iff.2 h

/-- With no call, only the records of the start wait for a coin's outcome. -/
theorem progress_start (h : CallStarting s.call) (hr : s.rate = RateBlock.inactive) :
    progress s = storeAtStart (takeReport s) := by
  have htaken := takeReport_startKept h
  have hstored : StartKept s (storeAtStart (takeReport s)) := htaken.trans storeAtStart_startKept
  have hreport : (storeAtStart (takeReport s)).coin.report = false := by
    rw [show (storeAtStart (takeReport s)).coin = _ from storeAtStart_only .coin (by decide)]
    exact takeReport_report s
  obtain ⟨hopen, hclosing, hstate⟩ := hstored.call h
  have hrate : (storeAtStart (takeReport s)).rate = RateBlock.inactive := (hstored.only .rate (by decide)).trans hr
  unfold progress
  rw [storeClosing_none hclosing, clearAccount_inactive hrate,
    show askRefund (storeAtStart (takeReport s)) = _ from if_neg fun hx => by rw [hstate] at hx; exact absurd hx.1 nofun,
    takeReport_none hreport]
  unfold storeOpen
  rw [hopen]

theorem progress_startKept (h : CallStarting s.call) (hr : s.rate = RateBlock.inactive) : StartKept s (progress s) := by
  rw [progress_start h hr]
  exact (takeReport_startKept h).trans storeAtStart_startKept

/-- The run's end, with records to store. -/
def startOver (s : State) : State :=
  { s with
    call := { s.call with atStart := [], restartEnd := none }
    coin := { s.coin with run := .none, report := false } }

/-- R181 step 5: the escrow's owner has its values, and the records are stored. -/
theorem progress_endRun_start {sl : Slot} {rest : List Slot} (h : CallStarting s.call) (hr : s.rate = RateBlock.inactive)
    (hs : s.call.atStart = sl :: rest) :
    progress (endRun s) = storeAll (slotComplete sl :: rest) (startOver s) := by
  have hreport : (endRun s).coin.report = true := by
    show (decide (s.coin.run = .callEnd) || !s.call.atStart.isEmpty) = true
    rw [hs]
    simp
  have htaken : takeReport (endRun s) =
      { s with
        call := { s.call with atStart := slotComplete sl :: rest }
        coin := { s.coin with run := .none, report := false } } := by
    rw [takeReport_takes hreport, modifyOwnerSlot_start (s := reportTaken (endRun s)) h]
    show ({ s with
      call := { s.call with atStart := modifyHead _ s.call.atStart }
      coin := { s.coin with run := .none, report := false } } : State) = _
    rw [hs]
    rfl
  rw [progress_start (s := endRun s) h hr, htaken]
  rfl

/-- Nothing to store: the log stays as it is. -/
theorem progress_noRecord (h : CallStarting s.call) (hr : s.rate = RateBlock.inactive) (hs : s.call.atStart = []) :
    (progress s).store.log = s.store.log := by
  have htaken := takeReport_startKept h
  rw [progress_start h hr, storeAtStart_none (htaken.noRecord h hs)]
  exact takeReport_only .log (by decide)

/-! ### The log (R174) -/

theorem storeAll_one {sl : Slot} (h : s.store.log.records.length < 64) :
    LogTook [sl] s.store.log (storeAll [sl] s) := by
  have hn := (storeSlot_stored sl h).1
  exact hn.same .log

theorem storeAll_two {first sl : Slot} (h : s.store.log.records.length < 63) :
    LogTook [first, sl] s.store.log (storeAll [first, sl] s) := by
  have hfirst := (storeSlot_stored first (s := s) (by omega)).1
  generalize hx : (storeSlot first s).1 = x at hfirst
  have hlog : x.store.log = (logged first s).store.log := hfirst.same .log
  have hroom : x.store.log.records.length < 64 := by
    rw [hlog, logged_log]
    simp only [List.length_append, List.length_cons, List.length_nil]
    omega
  have hsecond : (storeSlot sl x).1.store.log = (logged sl x).store.log := (storeSlot_stored sl hroom).1.same .log
  have hall : storeAll [first, sl] s = (storeSlot sl x).1 := by rw [← hx]; rfl
  unfold LogTook
  rw [hall, hsecond, logged_log, hlog, logged_log]
  dsimp only
  rw [List.append_assoc]
  rfl

end Sys2Proof.Machine

end

section
/-! A start's records as they are found (R181, R107, R83), and the coin of an interrupted stroke (R84). -/

namespace Sys2Proof.Machine

variable {s t u v w x y z : State}

/-! ### The record of the call found open -/

theorem headMoving_eq (l : List EscrowEntry) : headMoving l = movingHead l := by cases l <;> rfl

/-- A record's end at a start of kind `k`, before the cause. -/
def foundEnd (k : StartKind) (kept : Option (Nat × Option Time)) (sl : Slot) : CallRecord :=
  let atEnd := match k, kept with
    | .restart, some (i, c) => ((i - sl.offAt) / 100, c)
    | _, _ => (sl.lastAlive, sl.record.offHook.map (fun t => t + sl.lastAlive / 10))
  if sl.ended = true then sl.record else
    { sl.record with
      endTime := atEnd.2, elapsed := atEnd.1, connected := sl.answerElapsed.map (fun x => atEnd.1 - x)
      flags := { sl.record.flags with clockUnset := sl.record.flags.clockUnset || atEnd.2.isNone } }

theorem closeOpenAtStart_record (k : StartKind) (kept : Option (Nat × Option Time)) (sl : Slot) :
    (closeOpenAtStart k kept sl).record =
      { foundEnd k kept sl with cause := some (if k = .restart then .restart else .power) } := by
  unfold closeOpenAtStart foundEnd
  dsimp only
  split
  · rfl
  · cases k <;> cases kept <;> rfl

theorem closeOpenAtStart_slot (k : StartKind) (kept : Option (Nat × Option Time)) (sl : Slot) :
    (closeOpenAtStart k kept sl).offAt = sl.offAt ∧ (closeOpenAtStart k kept sl).base = sl.base
      ∧ (closeOpenAtStart k kept sl).lastCoin = sl.lastCoin := by
  unfold closeOpenAtStart
  split
  · exact ⟨rfl, rfl, rfl⟩
  · exact ⟨rfl, rfl, rfl⟩

theorem close_eq (a : Account) : a.close = a.closedWith 0 := close_charge a 0

theorem copyAccount_atStart (q : SavedAccount) (moved : Option (Nat × Nat)) (n : Option Nat) (r : CallRecord) :
    copyAccount (q.atStart moved n) r = ratedRecord [] { q with
      acct := match moved with
        | some (value, stroke) => if n = some stroke then q.acct else q.acct.credit value
        | none => q.acct } r := by
  unfold copyAccount SavedAccount.atStart ratedRecord
  dsimp only
  rw [close_eq]
  rfl

/-- R107: what `movedCollect` reads of the escrow's head is what the record's account is credited with. -/
theorem withCoin_eq (q : SavedAccount) (n : Option Nat) (l : List EscrowEntry) : q.withCoin (movingHead l) n = { q with
    acct := match movedCollect l with
      | some (value, stroke) => if n = some stroke then q.acct else q.acct.credit value
      | none => q.acct } := by
  unfold movedCollect
  cases movingHead l with
  | none => rfl
  | some m =>
    obtain ⟨e, k, i⟩ := m
    cases k with
    | refund => rfl
    | collect =>
      show SavedAccount.withCoin q (some (e, .collect, i)) n = _
      unfold SavedAccount.withCoin
      dsimp only
      cases he : e.counted with
      | true => rw [if_pos (.inr rfl)]; rfl
      | false =>
        by_cases hn : n = some i
        · rw [if_pos (.inl hn)]
          rw [if_neg Bool.false_ne_true]
          dsimp only
          rw [if_pos hn]
        · rw [if_neg (fun h => h.elim hn nofun)]
          rw [if_neg Bool.false_ne_true]
          dsimp only
          rw [if_neg hn]
          rfl

/-- The entries as a start restores them, without an entry instant (R80). -/
def untimed (l : List EscrowEntry) : List EscrowEntry := l.map (fun e => { e with entryAt := none })

theorem movedCollect_untimed (l : List EscrowEntry) : movedCollect (untimed l) = movedCollect l := by
  cases l with
  | nil => rfl
  | cons e es =>
    unfold movedCollect
    show (match (e.moving.map fun m => ({ e with entryAt := none }, m.1, m.2) : Option (EscrowEntry × Stroke × Nat)) with
      | some (e, .collect, n) => if e.counted then none else some (e.value, n)
      | _ => none) = (match e.moving.map fun m => (e, m.1, m.2) with
      | some (e, .collect, n) => if e.counted then none else some (e.value, n)
      | _ => none)
    cases e.moving with
    | none => rfl
    | some m =>
      obtain ⟨k, n⟩ := m
      cases k <;> rfl

theorem foundOpen_eq (k : StartKind) (a : CallArea) (l : List EscrowEntry) (sl : Slot) :
    (closeAccountAtStart a (movedCollect l) (closeOpenAtStart k a.restartEnd sl)).record =
      foundOpen k a (movingHead l) sl := by
  have hopen : foundOpen k a (movingHead l) sl = match a.account with
      | some q => ratedRecord [] (q.withCoin (movingHead l) a.lastCredited)
          (closeOpenAtStart k a.restartEnd sl).record
      | none => (closeOpenAtStart k a.restartEnd sl).record := by
    rw [closeOpenAtStart_record]; rfl
  rw [hopen]
  unfold closeAccountAtStart
  cases a.account with
  | none => rfl
  | some q =>
    show copyAccount _ _ = ratedRecord [] _ _
    rw [copyAccount_atStart, withCoin_eq]

theorem closeAccountAtStart_slot (a : CallArea) (m : Option (Nat × Nat)) (sl : Slot) :
    (closeAccountAtStart a m sl).offAt = sl.offAt ∧ (closeAccountAtStart a m sl).base = sl.base
      ∧ (closeAccountAtStart a m sl).lastCoin = sl.lastCoin := by
  unfold closeAccountAtStart
  split
  · exact ⟨rfl, rfl, rfl⟩
  · exact ⟨rfl, rfl, rfl⟩

theorem settleLast_slot (a : CallArea) (c : Option CoinArea) (sl : Slot) :
    (settleLast a c sl).offAt = sl.offAt ∧ (settleLast a c sl).base = sl.base
      ∧ (settleLast a c sl).complete = false := by
  unfold settleLast
  dsimp only
  split
  · split
    · exact ⟨rfl, rfl, rfl⟩
    · exact ⟨rfl, rfl, rfl⟩
  · exact ⟨rfl, rfl, rfl⟩

/-- R83, R67: the last coin judged by COIN's area. -/
theorem settleLast_record {a : CallArea} {c : CoinArea} {sl x : Slot} (h : x.lastCoin = sl.lastCoin) :
    (settleLast a (some c) x).record = lastJudged a c sl x.record := by
  unfold settleLast lastJudged neverEntered
  rw [h]
  cases sl.lastCoin with
  | none => rfl
  | some m =>
    dsimp only
    by_cases hn : c.gone + c.escrow.length < m.1 ∧ a.gone < m.1
    · rw [if_pos hn, if_pos (by simp [hn.1, hn.2])]
      rfl
    · rw [if_neg hn, if_neg (by simpa using hn)]

/-! ### The escrow as the records know it -/

theorem markCounted_nil (n : Nat) : markCounted n [] = [] := by cases n <;> rfl

theorem markCounted_zero (l : List EscrowEntry) : markCounted 0 l = l := by cases l <;> rfl

theorem markCounted_zipIdx (l : List EscrowEntry) : ∀ g m : Nat,
    (l.zipIdx (g + 1)).map (fun x => { x.1 with entryAt := none, counted := x.1.counted || decide (x.2 ≤ m) }) =
      untimed (markCounted (m - g) l) := by
  induction l with
  | nil => intro g m; rw [markCounted_nil]; rfl
  | cons e es ih =>
    intro g m
    rw [List.zipIdx_cons, List.map_cons, ih (g + 1) m]
    by_cases h : m ≤ g
    · rw [Nat.sub_eq_zero_of_le h, Nat.sub_eq_zero_of_le (by omega), markCounted_zero, markCounted_zero,
        decide_eq_false (by omega), Bool.or_false]
      rfl
    · obtain ⟨n, hn⟩ : ∃ n, m - g = n + 1 := ⟨m - g - 1, by omega⟩
      rw [hn, show m - (g + 1) = n from by omega, decide_eq_true (show g + 1 ≤ m from by omega), Bool.or_true]
      rfl

theorem listFound_eq (a : CallArea) (sl : Slot) (c : CoinArea) :
    listFound a sl c = untimed (markCounted (max a.gone sl.base - c.gone) c.escrow) := markCounted_zipIdx ..

theorem movingHead_markCounted (n : Nat) (l : List EscrowEntry) : (movingHead (markCounted n l)).map
    (fun m => (m.1.denom, m.1.value, m.2)) = (movingHead l).map (fun m => (m.1.denom, m.1.value, m.2)) := by
  cases l with
  | nil => rw [markCounted_nil]
  | cons e es =>
    cases n with
    | zero => rfl
    | succ n => cases hm : e.moving <;> simp [movingHead, markCounted, hm]

theorem movingHead_untimed (l : List EscrowEntry) : (movingHead (untimed l)).map
    (fun m => (m.1.denom, m.1.value, m.2)) = (movingHead l).map (fun m => (m.1.denom, m.1.value, m.2)) := by
  cases l with
  | nil => rfl
  | cons e es => cases hm : e.moving <;> simp [movingHead, untimed, hm]

/-! ### The coin of an interrupted stroke (R84) -/

/-- The vault's counters after an interrupted stroke's coin. -/
def movedCounters (m : Option (EscrowEntry × Stroke × Nat)) (v : VaultBlock) : Counters :=
  match m with
  | some (e, .collect, n) => if v.lastStroke = some n then v.counters else countedIn e v.counters
  | _ => v.counters

/-- COIN after an interrupted stroke's coin. -/
def movedCoin (m : Option (EscrowEntry × Stroke × Nat)) (k : CoinBlock) : CoinBlock :=
  if m.isSome then { k with escrow := k.escrow.tail, gone := k.gone + 1 } else k

/-- The oldest record changed. -/
def oldestChanged (f : CallRecord → CallRecord) (n : Option Nat) (c : CallBlock) : CallBlock :=
  { c with atStart := modifyHead (Slot.modify f) c.atStart, lastCredited := n }

theorem modifyHead_comp (g f : Slot → Slot) (l : List Slot) : modifyHead g (modifyHead f l) = modifyHead (g ∘ f) l := by
  cases l <;> rfl

theorem modifyHead_same {f : CallRecord → CallRecord} (h : ∀ r, f r = r) (l : List Slot) :
    modifyHead (Slot.modify f) l = l := by
  cases l with
  | nil => rfl
  | cons sl rest =>
    show { sl with record := f sl.record } :: rest = sl :: rest
    rw [h]

/-- POWER_MOVE, if the coin is owned. -/
def powerMoved (owned : Bool) (r : CallRecord) : CallRecord :=
  { r with flags := { r.flags with powerMove := r.flags.powerMove || owned } }

theorem markPowerMove_start (h : CallStarting s.call) : markPowerMove s =
    { s with call := oldestChanged (powerMoved (headIsOwned s)) s.call.lastCredited s.call } := by
  unfold markPowerMove
  cases headIsOwned s with
  | false =>
    rw [if_neg Bool.false_ne_true]
    unfold oldestChanged
    rw [modifyHead_same fun r => by unfold powerMoved; rw [Bool.or_false]]
  | true =>
    have hset : (fun r : CallRecord => { r with flags := { r.flags with powerMove := true } }) = powerMoved true := by
      funext r; unfold powerMoved; rw [Bool.or_true]
    rw [if_pos rfl, modifyOwner, modifyOwnerSlot_start h, hset]
    rfl

theorem vaultRefresh_left (c : CallBlock) (k : CoinBlock) (v : VaultBlock) (i : IncdBlock) (s : State) : ∃ v' i',
    v'.counters = v.counters ∧ Notifies (pathLeft c k v' i' s) (vaultRefresh (pathLeft c k v i s)) :=
  ⟨_, _, vaultRefresh_counters (pathLeft c k v i s), vaultRefresh_notifies (pathLeft c k v i s)⟩

theorem resolveMoving_left (h : CallStarting s.call) : ∃ n v i,
    v.counters = movedCounters (movingHead s.coin.escrow) s.vault
      ∧ Notifies (pathLeft (oldestChanged (movedInto (movingHead s.coin.escrow) (headIsOwned s)) n s.call)
          (movedCoin (movingHead s.coin.escrow) s.coin) v i s) (resolveMoving s) := by
  unfold resolveMoving
  cases movingHead s.coin.escrow with
  | none =>
    refine ⟨s.call.lastCredited, s.vault, s.incd, rfl, ?_⟩
    have hsame : oldestChanged (movedInto none (headIsOwned s)) s.call.lastCredited s.call = s.call := by
      unfold oldestChanged
      rw [modifyHead_same (f := movedInto none (headIsOwned s)) fun r => rfl]
    rw [hsame]
    exact .refl
  | some m =>
    obtain ⟨e, k, n⟩ := m
    dsimp only
    rw [markPowerMove_start h]
    generalize headIsOwned s = owned
    cases k with
    | collect =>
      dsimp only
      split
      · next hstroke =>
        obtain ⟨v, i, hv, hn⟩ := vaultRefresh_left (oldestChanged (powerMoved owned) (some n) s.call)
          (movedCoin (some (e, .collect, n)) s.coin) s.vault s.incd s
        exact ⟨some n, v, i, hv.trans (if_pos hstroke).symm, hn⟩
      · next hstroke =>
        obtain ⟨v, i, hv, hn⟩ := vaultRefresh_left (oldestChanged (powerMoved owned) (some n) s.call)
          (movedCoin (some (e, .collect, n)) s.coin) (vaultCollected e n s) s.incd s
        exact ⟨some n, v, i, hv.trans (if_neg hstroke).symm, hn.trans (notifies_post ..)⟩
    | refund =>
      dsimp only
      have hhead : CallStarting (dropHead { s with
          call := oldestChanged (powerMoved owned) s.call.lastCredited s.call }).call := h
      have howner : modifyOwner (fun r => { r with refunded := r.refunded.add (uncountedSum [e]) })
          (dropHead { s with call := oldestChanged (powerMoved owned) s.call.lastCredited s.call }) =
          pathLeft (oldestChanged (movedInto (some (e, .refund, n)) owned) s.call.lastCredited s.call)
            (movedCoin (some (e, .refund, n)) s.coin) s.vault s.incd s := by
        rw [modifyOwner, modifyOwnerSlot_start hhead, uncountedSum_single]
        show ({ s with
          call := { s.call with atStart := modifyHead _ (modifyHead _ s.call.atStart) }, coin := _ } : State) = _
        rw [modifyHead_comp]
        rfl
      rw [howner]
      obtain ⟨v, i, hv, hn⟩ := vaultRefresh_left (oldestChanged (movedInto (some (e, .refund, n)) owned)
        s.call.lastCredited s.call) (movedCoin (some (e, .refund, n)) s.coin) s.vault s.incd s
      exact ⟨s.call.lastCredited, v, i, hv, hn⟩

end Sys2Proof.Machine

end

section
/-! The refund run of a start (R77, R78, R84), and what it leaves of the escrow and the records. -/

namespace Sys2Proof.Machine

variable {s t u v w x y z : State}

/-! ### The run, from the state that the interrupted stroke's coin has left -/

section Run

variable {sl : Slot} {rest : List Slot}

theorem runStep_startUp (hr : s.coin.run = .startUp) : runStep s =
    if s.coin.order = .outOfOrder then endRun (strand s) else if s.coin.escrow.isEmpty then endRun s
    else if s.coin.mover ≠ .idle then s else beginStroke .refund s := by
  unfold runStep; rw [hr]

/-- R77: with no coin in the escrow the run of a start ends at once. -/
theorem startRun_empty (he : s.coin.escrow = []) : startRun .startUp s = endRun (runEntered .startUp s) := by
  have hstrand : strand (runEntered .startUp s) = runEntered .startUp s := by
    unfold strand; rw [show (runEntered .startUp s).coin.escrow = [] from he]
  have hempty : (runEntered .startUp s).coin.escrow.isEmpty = true := List.isEmpty_iff.2 he
  rw [startRun_eq, runStep_startUp rfl, hstrand, if_pos hempty]
  exact ite_self _

theorem startRun_strands (ho : s.coin.order = .outOfOrder) :
    startRun .startUp s = endRun (strand (runEntered .startUp s)) := by
  rw [startRun_eq, runStep_startUp rfl]; exact if_pos ho

theorem startRun_strokes {e : EscrowEntry} {l : List EscrowEntry} (ho : s.coin.order = .inOrder)
    (hl : s.coin.escrow = e :: l) (hm : s.coin.mover = .idle) :
    startRun .startUp s = { s with coin := refundBegun e l (runEntered .startUp s) } := by
  have hne : ¬ (runEntered .startUp s).coin.escrow.isEmpty = true := by
    show ¬ s.coin.escrow.isEmpty = true; rw [hl]; exact Bool.false_ne_true
  rw [startRun_eq, runStep_startUp rfl, if_neg (by show ¬ s.coin.order = .outOfOrder; rw [ho]; decide), if_neg hne,
    if_neg (by show ¬ s.coin.mover ≠ .idle; rw [hm]; exact fun h => h rfl)]
  unfold beginStroke refundBegun runEntered
  rw [hl]
  rfl

theorem startRun_ends (h : CallStarting s.call) (hr : s.rate = RateBlock.inactive) (hs : s.call.atStart = sl :: rest)
    (he : s.coin.escrow = []) : progress (startRun .startUp s) =
      storeAll (slotComplete sl :: rest) (startOver (runEntered .startUp s)) := by
  rw [startRun_empty he]
  exact progress_endRun_start (s := runEntered .startUp s) h hr hs

theorem strandedStart_left (h : CallStarting s.call) (hc : s.coin.escrow ≠ []) :
    ∃ v i, Notifies { strandedStart s with vault := v, incd := i } (strand s) := by
  rw [strand_start h hc]
  exact ⟨_, _, (vaultRefresh_notifies (strandedStart s)).trans (notifies_post ..)⟩

/-- R78: the escrow OUT_OF_ORDER is stranded, and the records are stored. -/
theorem startRun_fails (h : CallStarting s.call) (hr : s.rate = RateBlock.inactive) (hs : s.call.atStart = sl :: rest)
    (ho : s.coin.order = .outOfOrder) (hc : s.coin.escrow ≠ []) : ∃ x,
      progress (startRun .startUp s) = storeAll (slotComplete (sl.modify (strandCounted s.coin.escrow)) :: rest) (startOver x)
      ∧ x.store.log = s.store.log ∧ x.coin = allStranded (runEntered .startUp s).coin := by
  obtain ⟨v, i, hn⟩ := strandedStart_left (s := runEntered .startUp s) h hc
  rw [startRun_strands ho]
  generalize strand (runEntered .startUp s) = x at hn
  have hcall : x.call = (strandedStart (runEntered .startUp s)).call := hn.same .call
  have hstart : x.call.atStart = sl.modify (strandCounted s.coin.escrow) :: rest := by
    rw [hcall]
    show modifyHead _ s.call.atStart = _
    rw [hs]
    rfl
  have hrate : x.rate = RateBlock.inactive := (hn.same .rate : x.rate = s.rate).trans hr
  exact ⟨x, progress_endRun_start (by rw [hcall]; exact h) hrate hstart, hn.same .log, hn.same .coin⟩

/-- R77: the first coin's stroke begun; the records wait. -/
theorem startRun_waits {e : EscrowEntry} {l : List EscrowEntry} (h : CallStarting s.call)
    (hr : s.rate = RateBlock.inactive) (hs : s.call.atStart = sl :: rest) (hcomplete : sl.complete = false)
    (ho : s.coin.order = .inOrder) (hl : s.coin.escrow = e :: l) (hm : s.coin.mover = .idle) :
    progress (startRun .startUp s) = { s with coin := refundBegun e l (runEntered .startUp s) } := by
  rw [startRun_strokes ho hl hm,
    progress_start (s := { s with coin := refundBegun e l (runEntered .startUp s) }) h hr,
    takeReport_none (s := { s with coin := refundBegun e l (runEntered .startUp s) }) rfl]
  unfold storeAtStart
  dsimp only
  rw [hs]
  dsimp only
  rw [if_neg (by rw [hcomplete]; exact Bool.false_ne_true)]

theorem strand_counters (h : CallStarting s.call) : (strand s).vault.counters = s.vault.counters := by
  by_cases hc : s.coin.escrow = []
  · have hsame : strand s = s := by unfold strand; rw [hc]
    rw [hsame]
  · rw [strand_start h hc]
    have hpost := (postCoin_notifies (.stranded (escrowSum s.coin.escrow)) (vaultRefresh (strandedStart s))).same .vault
    refine (congrArg VaultBlock.counters hpost).trans ?_
    rw [vaultRefresh_counters]
    rfl

/-- R77: the run of a start moves no coin into the vault at once. -/
theorem startRun_counters (h : CallStarting s.call) (hr : s.rate = RateBlock.inactive) :
    (progress (startRun .startUp s)).vault.counters = s.vault.counters := by
  have hkept := startRun_startKept (r := .startUp) h
  have hprogress : (progress (startRun .startUp s)).vault = (startRun .startUp s).vault := by
    rw [progress_start (hkept.call h) ((hkept.only .rate (by decide)).trans hr)]
    exact (storeAtStart_only .vault (by decide) : _ = (takeReport (startRun .startUp s)).vault).trans
      (takeReport_only .vault (by decide))
  rw [hprogress, startRun_eq, runStep_startUp rfl]
  split
  · exact strand_counters (s := runEntered .startUp s) h
  · split
    · rfl
    · split <;> rfl

end Run

/-! ### The areas and the state that the escrow is treated in -/

/-- A start that treats the escrow, from the areas `a`, `c`, `v` and `g`. -/
structure Treats (k : StartKind) (a : CallArea) (c : CoinArea) (v : VaultArea) (g : LogArea) (b : State) : Prop where
  call : ∃ n, b.call = callAtStart (recordsAtStart k a g.handed (some c)) n
  coin : ∃ jam now, b.coin = coinAtStart (coinFound a (foundSlots a g.handed) c) jam now
  vault : b.vault.counters = v.counters ∧ b.vault.lastStroke = v.lastStroke
  log : b.store.log = g
  rate : b.rate = RateBlock.inactive

section Treated

variable {k : StartKind} {a : CallArea} {c : CoinArea} {va : VaultArea} {g : LogArea} {sl first : Slot}

theorem Treats.starting (h : Treats k a c va g s) : CallStarting s.call := by
  obtain ⟨n, hn⟩ := h.call; rw [hn]; exact ⟨rfl, rfl, rfl⟩

theorem Treats.rest (h : Treats k a c va g s) : s.coin.mover = .idle ∧ s.coin.order = c.order
    ∧ s.coin.strandedTally = c.strandedTally ∧ s.coin.strokeNo = c.strokeNo
    ∧ s.coin.gone = max c.gone (a.gone - c.escrow.length) := by
  obtain ⟨jam, now, hk⟩ := h.coin; rw [hk]; exact ⟨rfl, rfl, rfl, rfl, rfl⟩

theorem Treats.records (h : Treats k a c va g s) : s.call.atStart = recordsAtStart k a g.handed (some c) := by
  obtain ⟨n, hn⟩ := h.call; rw [hn]; rfl

theorem Treats.escrow (h : Treats k a c va g s) :
    s.coin.escrow = untimed (coinFound a (foundSlots a g.handed) c).escrow := by
  obtain ⟨jam, now, hk⟩ := h.coin; rw [hk]; rfl

theorem movedCoin_rest (m : Option (EscrowEntry × Stroke × Nat)) (k : CoinBlock) : (movedCoin m k).mover = k.mover
    ∧ (movedCoin m k).order = k.order ∧ (movedCoin m k).strandedTally = k.strandedTally
    ∧ (movedCoin m k).strokeNo = k.strokeNo := by
  unfold movedCoin; split <;> exact ⟨rfl, rfl, rfl, rfl⟩

/-- COIN but for the escrow, as the run finds it. -/
theorem Treats.resolvedRest (h : Treats k a c va g s) : (resolveMoving s).coin.mover = .idle
    ∧ (resolveMoving s).coin.order = c.order ∧ (resolveMoving s).coin.strandedTally = c.strandedTally
    ∧ (resolveMoving s).coin.strokeNo = c.strokeNo := by
  obtain ⟨n, v, i, -, hn⟩ := resolveMoving_left h.starting
  obtain ⟨hmover, horder, hstranded, hstroke, -⟩ := h.rest
  obtain ⟨hm, ho, ht, hs⟩ := movedCoin_rest (movingHead s.coin.escrow) s.coin
  rw [show (resolveMoving s).coin = _ from hn.same .coin]
  exact ⟨hm.trans hmover, ho.trans horder, ht.trans hstranded, hs.trans hstroke⟩

/-- What the interrupted stroke leaves, as the run finds it. -/
theorem Treats.resolved (h : Treats k a c va g s) : CallStarting (resolveMoving s).call
    ∧ (resolveMoving s).rate = RateBlock.inactive ∧ (resolveMoving s).store.log = g
    ∧ (resolveMoving s).coin = movedCoin (movingHead s.coin.escrow) s.coin
    ∧ (resolveMoving s).call.atStart =
        modifyHead (Slot.modify (movedInto (movingHead s.coin.escrow) (headIsOwned s))) s.call.atStart
    ∧ (resolveMoving s).vault.counters = movedCounters (movingHead s.coin.escrow) s.vault := by
  obtain ⟨n, v, i, hv, hn⟩ := resolveMoving_left h.starting
  have hrate : (resolveMoving s).rate = s.rate := hn.same .rate
  have hlog : (resolveMoving s).store.log = s.store.log := hn.same .log
  have hcall := hn.same .call
  have hvault : (resolveMoving s).vault = v := hn.same .vault
  refine ⟨(resolveMoving_startKept h.starting).call h.starting, hrate.trans h.rate, hlog.trans h.log, hn.same .coin,
    congrArg CallBlock.atStart hcall, by rw [hvault, hv]⟩

theorem movedCounters_of {m m' : Option (EscrowEntry × Stroke × Nat)} {v : VaultBlock}
    (h : m.map (fun x => (x.1.denom, x.1.value, x.2)) = m'.map (fun x => (x.1.denom, x.1.value, x.2))) :
    movedCounters m v = movedCounters m' v := by
  cases m with
  | none => cases m' with
    | none => rfl
    | some x => exact absurd h nofun
  | some x => cases m' with
    | none => exact absurd h nofun
    | some x' =>
      obtain ⟨e, k, n⟩ := x
      obtain ⟨e', k', n'⟩ := x'
      simp only [Option.map_some, Option.some.injEq, Prod.mk.injEq] at h
      obtain ⟨hd, hv, rfl, rfl⟩ := h
      cases k with
      | refund => rfl
      | collect =>
        have hcounted : countedIn e v.counters = countedIn e' v.counters := by unfold countedIn; rw [hd, hv]
        unfold movedCounters
        dsimp only
        rw [hcounted]

/-- R84: the vault counts the coin of an interrupted COLLECT. -/
theorem Treats.counters (h : Treats k a c va g s) : (progress (startRun .startUp (resolveMoving s))).vault.counters =
    (match headMoving c.escrow with
      | some (e, .collect, n) => if va.lastStroke = some n then va.counters else countedIn e va.counters
      | _ => va.counters) := by
  obtain ⟨hstarting, hrate, -, -, -, hcounters⟩ := h.resolved
  obtain ⟨hv, hlast⟩ := h.vault
  have hhead : movedCounters (movingHead s.coin.escrow) s.vault = movedCounters (movingHead c.escrow) s.vault := by
    rw [h.escrow]
    exact movedCounters_of ((movingHead_untimed _).trans (movingHead_markCounted _ _))
  rw [startRun_counters hstarting hrate, hcounters, hhead, headMoving_eq]
  cases movingHead c.escrow with
  | none => exact hv
  | some m =>
    obtain ⟨e, kind, n⟩ := m
    cases kind with
    | refund => exact hv
    | collect =>
      show (if s.vault.lastStroke = some n then s.vault.counters else countedIn e s.vault.counters) =
        if va.lastStroke = some n then va.counters else countedIn e va.counters
      rw [hv, hlast]

theorem not_alreadyLogged {handed : Option Nat} (h : ∀ i, handed = some i → i < sl.offAt) :
    alreadyLogged handed sl = false := by
  unfold alreadyLogged
  cases handed with
  | none => rfl
  | some i => exact decide_eq_false (Nat.not_le.mpr (h i rfl))

theorem LogTook.of_records {l l' : List Slot} (h : LogTook l g t) (hr : l'.map Slot.record = l.map Slot.record)
    (ho : l'.map Slot.offAt = l.map Slot.offAt) : LogTook l' g t := by
  have hlength : l'.length = l.length := by simpa using congrArg List.length hr
  have hlast : (l'.getLast?.map Slot.offAt) = l.getLast?.map Slot.offAt := by
    rw [← List.getLast?_map, ← List.getLast?_map, ho]
  unfold LogTook at h ⊢
  rw [h, hr, hlength]
  cases hl : l.getLast? with
  | none => cases hl' : l'.getLast? with
    | none => rfl
    | some x => rw [hl, hl'] at hlast; exact absurd hlast nofun
  | some y => cases hl' : l'.getLast? with
    | none => rw [hl, hl'] at hlast; exact absurd hlast nofun
    | some x =>
      rw [hl, hl'] at hlast
      have hoff : x.offAt = y.offAt := Option.some.inj hlast
      dsimp only
      rw [hoff]

/-! ### One open record -/

/-- The open record as the start has judged it, alone. -/
def oneRecord (k : StartKind) (a : CallArea) (c : CoinArea) (sl : Slot) : Slot :=
  settleLast a (some c) (closeAccountAtStart a (movedCollect (listFound a sl c)) (closeOpenAtStart k a.restartEnd sl))

theorem oneRecord_slot : (oneRecord k a c sl).offAt = sl.offAt ∧ (oneRecord k a c sl).base = sl.base
    ∧ (oneRecord k a c sl).complete = false
    ∧ (oneRecord k a c sl).record = lastJudged a c sl (foundOpen k a (headMoving (listFound a sl c)) sl) := by
  have hopened := closeOpenAtStart_slot k a.restartEnd sl
  obtain ⟨hoff, hbase, hlast⟩ := hopened
  obtain ⟨hoff', hbase', hlast'⟩ := closeAccountAtStart_slot a (movedCollect (listFound a sl c))
    (closeOpenAtStart k a.restartEnd sl)
  obtain ⟨hoff'', hbase'', hcomplete⟩ := settleLast_slot a (some c)
    (closeAccountAtStart a (movedCollect (listFound a sl c)) (closeOpenAtStart k a.restartEnd sl))
  refine ⟨hoff''.trans (hoff'.trans hoff), hbase''.trans (hbase'.trans hbase), hcomplete, ?_⟩
  unfold oneRecord
  rw [settleLast_record (hlast'.trans hlast), foundOpen_eq, headMoving_eq]

theorem foundSlots_one (ho : a.openSlot = some sl) (hc : a.closingSlot = none) (hs : a.atStart = [])
    {handed : Option Nat} (hh : ∀ i, handed = some i → i < sl.offAt) : foundSlots a handed = [sl] := by
  unfold foundSlots
  rw [ho, hc, hs]
  show [sl].filter _ = [sl]
  rw [List.filter_cons_of_pos (by rw [not_alreadyLogged hh]; rfl)]
  rfl

theorem Treats.oneFound (h : Treats k a c va g s) (ho : a.openSlot = some sl) (hc : a.closingSlot = none)
    (hs : a.atStart = []) (hh : ∀ i, g.handed = some i → i < sl.offAt) :
    s.call.atStart = [oneRecord k a c sl] ∧ s.coin.escrow = listFound a sl c := by
  have hfound := foundSlots_one ho hc hs hh
  have hescrow : (coinFound a (foundSlots a g.handed) c).escrow =
      markCounted (max a.gone sl.base - c.gone) c.escrow := by rw [hfound]; rfl
  refine ⟨?_, ?_⟩
  · rw [h.records]
    unfold recordsAtStart
    rw [ho]
    dsimp only [Option.map, Option.bind]
    rw [hescrow, ← movedCollect_untimed, ← listFound_eq]
    obtain ⟨hoff, -⟩ := closeOpenAtStart_slot k a.restartEnd sl
    obtain ⟨hoff', -⟩ := closeAccountAtStart_slot a (movedCollect (listFound a sl c))
      (closeOpenAtStart k a.restartEnd sl)
    have hone := foundSlots_one (a := { a with openSlot := some (closeAccountAtStart a
      (movedCollect (listFound a sl c)) (closeOpenAtStart k a.restartEnd sl)) }) rfl hc hs (handed := g.handed)
      (by rw [hoff', hoff]; exact hh)
    rw [hone]
    rfl
  · rw [h.escrow, hescrow, listFound_eq]

/-- The open record with the interrupted stroke's coin. -/
def recordMoved (k : StartKind) (a : CallArea) (c : CoinArea) (sl : Slot) : CallRecord :=
  movedInto (headMoving (listFound a sl c)) (decide (sl.base ≤ max c.gone (a.gone - c.escrow.length)))
    (lastJudged a c sl (foundOpen k a (headMoving (listFound a sl c)) sl))

/-- The coins left in the escrow. -/
def coinsLeft (a : CallArea) (c : CoinArea) (sl : Slot) : List EscrowEntry :=
  if (headMoving (listFound a sl c)).isSome then (listFound a sl c).tail else listFound a sl c

theorem Treats.oneResolved (h : Treats k a c va g s) (ho : a.openSlot = some sl) (hc : a.closingSlot = none)
    (hs : a.atStart = []) (hh : ∀ i, g.handed = some i → i < sl.offAt) : ∃ x : Slot,
      (resolveMoving s).call.atStart = [x] ∧ x.record = recordMoved k a c sl ∧ x.offAt = sl.offAt
      ∧ x.complete = false ∧ (resolveMoving s).coin.escrow = coinsLeft a c sl := by
  obtain ⟨-, -, -, hcoin, hstart, -⟩ := h.resolved
  obtain ⟨hrecords, hescrow⟩ := h.oneFound ho hc hs hh
  obtain ⟨hoff, hbase, hcomplete, hrecord⟩ := oneRecord_slot (k := k) (a := a) (c := c) (sl := sl)
  obtain ⟨-, -, -, -, hgone⟩ := h.rest
  have howned : headIsOwned s = decide (sl.base ≤ max c.gone (a.gone - c.escrow.length)) := by
    unfold headIsOwned
    rw [hrecords, hgone]
    dsimp only
    rw [hbase]
  rw [howned, hrecords, hescrow, ← headMoving_eq] at hstart
  refine ⟨_, hstart, ?_, hoff, hcomplete, ?_⟩
  · unfold recordMoved
    rw [← hrecord]
    rfl
  · rw [hcoin, hescrow, ← headMoving_eq]
    unfold coinsLeft movedCoin
    split
    · rw [hescrow]
    · exact hescrow

/-- One record stored at the run's end. -/
theorem startOver_stored {s0 : State} {x : Slot} (hl : s.store.log = g) (hlog : g.records.length < 64) :
    let t := finish s0 (storeAll [x] (startOver s))
    LogTook [x] g t ∧ t.call.atStart = [] ∧ t.coin = { s.coin with run := .none, report := false } := by
  have htook := storeAll_one (s := startOver s) (sl := x) (by show s.store.log.records.length < 64; rw [hl]; exact hlog)
  rw [show (startOver s).store.log = g from hl] at htook
  have honly := storeAll_only [x] (startOver s)
  generalize storeAll [x] (startOver s) = w at *
  have hcoin : w.coin = (startOver s).coin := honly .coin (by decide)
  have hcall : w.call = (startOver s).call := honly .call (by decide)
  intro t
  have htcoin : t.coin = w.coin := finish_coin ..
  have htcall : t.call = w.call := finish_call ..
  have htlog : t.store.log = w.store.log := finish_log ..
  refine ⟨htlog.trans htook, ?_, htcoin.trans hcoin⟩
  rw [htcall, hcall]
  rfl

/-- No coin is left: the record is stored. -/
theorem Treats.oneStored {s0 : State} (h : Treats k a c va g s) (ho : a.openSlot = some sl) (hc : a.closingSlot = none)
    (hs : a.atStart = []) (hh : ∀ i, g.handed = some i → i < sl.offAt) (hlog : g.records.length < 64)
    (hleft : coinsLeft a c sl = []) :
    let t := finish s0 (progress (startRun .startUp (resolveMoving s)))
    LogTook [{ sl with record := recordMoved k a c sl }] g t ∧ t.call.atStart = [] ∧ t.coin.escrow = []
      ∧ t.coin.run = .none ∧ t.coin.mover = .idle ∧ t.coin.strandedTally = c.strandedTally := by
  obtain ⟨x, hstart, hrecord, hoff, -, hescrow⟩ := h.oneResolved ho hc hs hh
  obtain ⟨hstarting, hrate, hlogs, -⟩ := h.resolved
  obtain ⟨hmover, -, hstranded, -⟩ := h.resolvedRest
  rw [startRun_ends hstarting hrate hstart (hescrow.trans hleft)]
  obtain ⟨htook, hcall, hcoin⟩ := startOver_stored (s0 := s0) (x := slotComplete x) (s := runEntered .startUp (resolveMoving s))
    hlogs hlog
  intro t
  refine ⟨htook.of_records (congrArg (fun r => [r]) hrecord.symm) (congrArg (fun n => [n]) hoff.symm), hcall, ?_⟩
  rw [show t.coin = _ from hcoin]
  exact ⟨hescrow.trans hleft, rfl, hmover, hstranded⟩

/-- The coins left are stranded, and the record is stored. -/
theorem Treats.oneStranded {s0 : State} (h : Treats k a c va g s) (ho : a.openSlot = some sl) (hc : a.closingSlot = none)
    (hs : a.atStart = []) (hh : ∀ i, g.handed = some i → i < sl.offAt) (hlog : g.records.length < 64)
    (hleft : coinsLeft a c sl ≠ []) (hord : c.order = .outOfOrder) :
    let t := finish s0 (progress (startRun .startUp (resolveMoving s)))
    LogTook [{ sl with record := strandCounted (coinsLeft a c sl) (recordMoved k a c sl) }] g t ∧ t.call.atStart = []
      ∧ t.coin.escrow = [] ∧ t.coin.run = .none ∧ t.coin.mover = .idle
      ∧ t.coin.strandedTally = ⟨min 255 (c.strandedTally.coins + (escrowSum (coinsLeft a c sl)).coins),
          min 65535 (c.strandedTally.value + (escrowSum (coinsLeft a c sl)).value)⟩ := by
  obtain ⟨x, hstart, hrecord, hoff, -, hescrow⟩ := h.oneResolved ho hc hs hh
  obtain ⟨hstarting, hrate, hlogs, -⟩ := h.resolved
  obtain ⟨hmover, horder, hstranded, -⟩ := h.resolvedRest
  have hne : (resolveMoving s).coin.escrow ≠ [] := by rw [hescrow]; exact hleft
  obtain ⟨y, hends, hylog, hycoin⟩ := startRun_fails hstarting hrate hstart (horder.trans hord) hne
  rw [hends]
  obtain ⟨htook, hcall, hcoin⟩ := startOver_stored (s0 := s0)
    (x := slotComplete (x.modify (strandCounted (resolveMoving s).coin.escrow))) (s := y) (hylog.trans hlogs) hlog
  generalize finish s0 (storeAll [slotComplete (x.modify (strandCounted (resolveMoving s).coin.escrow))] (startOver y)) = t at *
  have hrecords : (strandCounted (coinsLeft a c sl) (recordMoved k a c sl)) =
      (slotComplete (x.modify (strandCounted (resolveMoving s).coin.escrow))).record := by rw [← hrecord, ← hescrow]; rfl
  refine ⟨htook.of_records (congrArg (fun r => [r]) hrecords) (congrArg (fun n => [n]) hoff.symm), hcall, ?_⟩
  have hall : allStranded (runEntered .startUp (resolveMoving s)).coin = _ := if_neg hne
  rw [hcoin, hycoin, hall, ← hstranded, ← hescrow]
  exact ⟨rfl, rfl, hmover, rfl⟩

/-- The coins left wait for their refund, of which the first has begun. -/
theorem Treats.oneWaits {s0 : State} {e : EscrowEntry} {l : List EscrowEntry} (h : Treats k a c va g s)
    (ho : a.openSlot = some sl) (hc : a.closingSlot = none) (hs : a.atStart = [])
    (hh : ∀ i, g.handed = some i → i < sl.offAt) (hleft : coinsLeft a c sl = e :: l) (hord : c.order = .inOrder) :
    let t := finish s0 (progress (startRun .startUp (resolveMoving s)))
    t.store.log = g ∧ t.call.atStart.map Slot.record = [recordMoved k a c sl] ∧ t.coin.run = .startUp
      ∧ t.coin.mover = .refunding ∧ t.coin.blind = false ∧ t.coin.exitTimer = some (t.now + 800)
      ∧ t.coin.escrow = { e with moving := some (.refund, c.strokeNo) } :: l := by
  obtain ⟨x, hstart, hrecord, -, hcomplete, hescrow⟩ := h.oneResolved ho hc hs hh
  obtain ⟨hstarting, hrate, hlogs, -⟩ := h.resolved
  obtain ⟨hmover, horder, -, hstroke⟩ := h.resolvedRest
  rw [startRun_waits hstarting hrate hstart hcomplete (horder.trans hord) (hescrow.trans hleft) hmover]
  intro t
  have hcoin : t.coin = refundBegun e l (runEntered .startUp (resolveMoving s)) := finish_coin ..
  have hcall : t.call = (resolveMoving s).call := finish_call ..
  have hnow : t.now = (resolveMoving s).now := finish_now ..
  have hlog : t.store.log = (resolveMoving s).store.log := finish_log ..
  refine ⟨hlog.trans hlogs, ?_, ?_⟩
  · rw [hcall, hstart, ← hrecord]
    rfl
  · rw [hcoin, hnow, ← hstroke]
    exact ⟨rfl, rfl, rfl, rfl, rfl⟩

/-! ### The closing and the open record; no record -/

theorem foundSlots_two (ho : a.openSlot = some sl) (hc : a.closingSlot = some first) (hs : a.atStart = [])
    {handed : Option Nat} (hh : ∀ i, handed = some i → i < first.offAt ∧ i < sl.offAt) :
    foundSlots a handed = [first, sl] := by
  have hfirst := not_alreadyLogged (sl := first) fun i hi => (hh i hi).1
  have hsl := not_alreadyLogged (sl := sl) fun i hi => (hh i hi).2
  unfold foundSlots
  rw [ho, hc, hs]
  show [first, sl].filter _ = [first, sl]
  rw [List.filter_cons_of_pos (by rw [hfirst]; rfl), List.filter_cons_of_pos (by rw [hsl]; rfl)]
  rfl

theorem foundSlots_handed {i : Nat} (ho : a.openSlot = some sl) (hc : a.closingSlot = none) (hs : a.atStart = [])
    {handed : Option Nat} (hh : handed = some i) (hi : sl.offAt ≤ i) : foundSlots a handed = [] := by
  have hlogged : alreadyLogged handed sl = true := by rw [hh]; exact decide_eq_true hi
  unfold foundSlots
  rw [ho, hc, hs]
  show [sl].filter _ = []
  rw [List.filter_cons_of_neg (by rw [hlogged]; exact Bool.false_ne_true)]
  rfl

theorem resolveMoving_empty (h : s.coin.escrow = []) : resolveMoving s = s := by unfold resolveMoving; rw [h]; rfl

theorem Treats.twoStored {s0 : State} (h : Treats k a c va g s) (ho : a.openSlot = some sl)
    (hc : a.closingSlot = some first) (hs : a.atStart = []) (he : c.escrow = [])
    (hh : ∀ i, g.handed = some i → i < first.offAt ∧ i < sl.offAt) (hlog : g.records.length < 63) :
    let t := finish s0 (progress (startRun .startUp (resolveMoving s)))
    LogTook [{ first with record := lastJudged a c first first.record },
        { sl with record := lastJudged a c sl (foundOpen k a none sl) }] g t ∧ t.call.atStart = [] := by
  have hescrow : s.coin.escrow = [] := by
    rw [h.escrow]; unfold coinFound; rw [he]; dsimp only; rw [markCounted_nil]; rfl
  have hmoved : movedCollect (coinFound a (foundSlots a g.handed) c).escrow = movedCollect [] := by
    unfold coinFound; rw [he]; dsimp only; rw [markCounted_nil]
  obtain ⟨hoff, -, hlast⟩ := closeOpenAtStart_slot k a.restartEnd sl
  obtain ⟨hoff', -, hlast'⟩ := closeAccountAtStart_slot a (movedCollect []) (closeOpenAtStart k a.restartEnd sl)
  generalize hx : closeAccountAtStart a (movedCollect []) (closeOpenAtStart k a.restartEnd sl) = x at hoff' hlast'
  have hrecord : x.record = foundOpen k a none sl := by rw [← hx, foundOpen_eq]; rfl
  have hstart : s.call.atStart = [settleLast a (some c) first, settleLast a (some c) x] := by
    rw [h.records]
    unfold recordsAtStart
    rw [ho]
    dsimp only [Option.map, Option.bind]
    rw [hmoved, hx, foundSlots_two (a := { a with openSlot := some x }) rfl hc hs (sl := x)
      fun i hi => ⟨(hh i hi).1, by rw [hoff', hoff]; exact (hh i hi).2⟩]
    rfl
  have hrecords : [slotComplete (settleLast a (some c) first), settleLast a (some c) x].map Slot.record =
      [lastJudged a c first first.record, lastJudged a c sl (foundOpen k a none sl)] := by
    show [(settleLast a (some c) first).record, (settleLast a (some c) x).record] = _
    rw [settleLast_record (sl := first) rfl, settleLast_record (hlast'.trans hlast), hrecord]
  have hoffs : [slotComplete (settleLast a (some c) first), settleLast a (some c) x].map Slot.offAt =
      [first.offAt, sl.offAt] := by
    show [(settleLast a (some c) first).offAt, (settleLast a (some c) x).offAt] = _
    rw [(settleLast_slot ..).1, (settleLast_slot ..).1, hoff', hoff]
  rw [resolveMoving_empty hescrow, startRun_ends h.starting h.rate hstart hescrow]
  have htook := storeAll_two (s := startOver (runEntered .startUp s)) (first := slotComplete (settleLast a (some c) first))
    (sl := settleLast a (some c) x) (by show s.store.log.records.length < 63; rw [h.log]; exact hlog)
  rw [show (startOver (runEntered .startUp s)).store.log = g from h.log] at htook
  have honly := storeAll_only [slotComplete (settleLast a (some c) first), settleLast a (some c) x]
    (startOver (runEntered .startUp s))
  generalize storeAll [slotComplete (settleLast a (some c) first), settleLast a (some c) x]
    (startOver (runEntered .startUp s)) = w at *
  intro t
  have hcall : w.call = (startOver (runEntered .startUp s)).call := honly .call (by decide)
  have htcall : t.call = w.call := finish_call ..
  have htlog : t.store.log = w.store.log := finish_log ..
  refine ⟨LogTook.of_records (t := t) (htlog.trans htook) hrecords.symm hoffs.symm, ?_⟩
  rw [htcall, hcall]
  rfl

/-- R174: the log already has the record. -/
theorem Treats.noneStored {s0 : State} {i : Nat} (h : Treats k a c va g s) (ho : a.openSlot = some sl)
    (hc : a.closingSlot = none) (hs : a.atStart = []) (hh : g.handed = some i) (hi : sl.offAt ≤ i) :
    let t := finish s0 (progress (startRun .startUp (resolveMoving s)))
    t.call.atStart = [] ∧ t.store.log = g := by
  obtain ⟨hoff, -⟩ := closeOpenAtStart_slot k a.restartEnd sl
  have hstart : s.call.atStart = [] := by
    rw [h.records]
    unfold recordsAtStart
    rw [ho]
    dsimp only [Option.map]
    generalize ((some c).bind _ : Option (Nat × Nat)) = moved
    obtain ⟨hoff', -⟩ := closeAccountAtStart_slot a moved (closeOpenAtStart k a.restartEnd sl)
    rw [foundSlots_handed (a := { a with openSlot := some (closeAccountAtStart a moved
      (closeOpenAtStart k a.restartEnd sl)) }) rfl hc hs hh (by rw [hoff', hoff]; exact hi)]
    rfl
  have hresolved := resolveMoving_startKept h.starting
  have hrun := hresolved.trans (startRun_startKept (r := .startUp) (hresolved.call h.starting))
  obtain ⟨-, hrate, hlogs, -⟩ := h.resolved
  have hrunlog : (startRun .startUp (resolveMoving s)).store.log = g :=
    (startRun_only .log (by decide) : _ = (resolveMoving s).store.log).trans hlogs
  have hrunrate : (startRun .startUp (resolveMoving s)).rate = RateBlock.inactive :=
    (hrun.only .rate (by decide)).trans h.rate
  have hprogress := progress_startKept (hrun.call h.starting) hrunrate
  intro t
  have htcall : t.call = _ := finish_call ..
  have htlog : t.store.log = _ := finish_log ..
  rw [htcall, htlog, progress_noRecord (hrun.call h.starting) hrunrate (hrun.noRecord h.starting hstart)]
  exact ⟨hprogress.noRecord (hrun.call h.starting) (hrun.noRecord h.starting hstart), hrunlog⟩

/-- R84, R78, R181, R107: what the start makes of the escrow and of the records. -/
theorem Treats.treated {s0 : State} (h : Treats k a c va g s) :
    StartTreats k a c va g (finish s0 (progress (startRun .startUp (resolveMoving s)))) := by
  refine ⟨?_, fun sl ho hc hs hh hlog => ⟨fun hleft => ?_, fun hleft hord => ?_, fun x rest hleft hord => ?_⟩,
    fun first sl ho hc hs he hh hlog => h.twoStored ho hc hs he hh hlog,
    fun sl i ho hc hs hh hi => h.noneStored ho hc hs hh hi⟩
  · exact (congrArg VaultBlock.counters (finish_vault ..)).trans h.counters
  · exact h.oneStored ho hc hs hh hlog hleft
  · exact h.oneStranded ho hc hs hh hlog hleft hord
  · exact h.oneWaits ho hc hs hh hleft hord

end Treated

end Sys2Proof.Machine

end

section
/-! O39: POWER_UP and the starting state, of every kind of start. -/

namespace Sys2Proof.Machine

variable {s t u v w x y z : State}

/-! ### The escrow's treatment, whatever the areas were -/

theorem escrowAtStart_startKept {k : StartKind} {a c : Bool} (h : CallStarting s.call) (hr : s.rate = RateBlock.inactive) :
    StartKept s (escrowAtStart k a c s) := by
  unfold escrowAtStart
  split
  · exact .of_coin rfl
  · split
    · exact (modifyOwnerSlot_startKept h).trans (.of_coin rfl)
    · split
      · split
        · exact strand_startKept h
        · exact StartKept.trans (t := emptyList s) (.of_coin rfl) (vaultRefresh_startKept.trans (.of_coin rfl))
      · have hresolved := resolveMoving_startKept h
        have hrun := hresolved.trans (startRun_startKept (r := .startUp) (hresolved.call h))
        exact hrun.trans (progress_startKept (hrun.call h) ((hrun.only .rate (by decide)).trans hr))

theorem purgeBegun {s0 : State} (h : s.coin.escrow = []) : PurgeBegun (finish s0 (startPurge s)) := by
  have hcoin : (finish s0 (startPurge s)).coin = (startPurge s).coin := finish_coin ..
  have hnow : (finish s0 (startPurge s)).now = s.now := finish_now ..
  unfold PurgeBegun
  rw [hcoin, hnow]
  exact ⟨rfl, rfl, rfl, rfl, rfl, rfl, h⟩

theorem cellOf_fresh (j : Key) : cellOf j keysAtStart = {} := by
  unfold cellOf keysAtStart KeysBlock.fresh
  rw [List.getD_eq_getElem?_getD, List.getElem?_replicate]
  split <;> rfl

theorem startPurge_only : OnlyChanges [.coin] s (startPurge s) := by
  intro p hp
  cases p
  case clock => exact ⟨rfl, rfl⟩
  case coin => exact absurd (by decide) hp
  all_goals rfl

theorem allStranded_rest (k : CoinBlock) : (allStranded k).run = k.run ∧ (allStranded k).mover = k.mover
    ∧ (allStranded k).order = k.order := by
  unfold allStranded; dsimp only; split <;> exact ⟨rfl, rfl, rfl⟩

theorem strand_leaves (h : CallStarting s.call) :
    (allStranded s.coin).escrow = [] ∧ (strand s).coin = allStranded s.coin := by
  by_cases he : s.coin.escrow = []
  · have hsame : strand s = s := by unfold strand; rw [he]
    rw [hsame, allStranded_empty he]
    exact ⟨he, rfl⟩
  · obtain ⟨v, i, hn⟩ := strandedStart_left h he
    have hall : allStranded s.coin = _ := if_neg he
    exact ⟨by rw [hall], hn.same .coin⟩

section Start

variable {k : StartKind} {s0 : State}

theorem startBlocks_starting : CallStarting (startBlocks k s).call ∧ (startBlocks k s).rate = RateBlock.inactive := by
  have hblocks := startBlocks_only (k := k) (s := s)
  have hcall := hblocks .call (by decide)
  have hrate := hblocks .rate (by decide)
  refine ⟨?_, hrate⟩
  rw [show (startBlocks k s).call = _ from hcall]
  exact ⟨rfl, rfl, rfl⟩

theorem startBlocks_coin : (startBlocks k s).coin = coinAtStart (coinFound (judgedAt k s.store.areas).call
    (foundSlots (judgedAt k s.store.areas).call (judgedAt k s.store.areas).log.handed) (judgedAt k s.store.areas).coin)
    s.pins.jam s.now := by
  have hcoin := startBlocks_only (k := k) (s := s) .coin (by decide)
  exact hcoin

theorem startPart_startKept : StartKept (startBlocks k s) (startPart k s) := by
  obtain ⟨hcall, hrate⟩ := startBlocks_starting (k := k) (s := s)
  rw [startPart_eq]
  exact escrowAtStart_startKept hcall hrate

theorem startPart_wired : Kept True (blocksAtStart k (judgedAt k s.store.areas) s) (startPart k s) := by
  rw [startPart_eq]
  exact .after escrowAtStart_kept startBlocks_kept

/-- R84, R181: the start's escrow is treated from the areas as they were judged. -/
theorem startBlocks_treats (hk : k ≠ .factory) {a : Copy CallArea} {c : Copy CoinArea} {v : Copy VaultArea}
    {g : Copy LogArea} (ha : s.store.areas.call.newest = some a) (hc : s.store.areas.coin.newest = some c)
    (hv : s.store.areas.vault.newest = some v) (hg : s.store.areas.log.newest = some g) :
    Treats k a.contents c.contents v.contents g.contents (startBlocks k s) := by
  have hblocks := startBlocks_only (k := k) (s := s)
  rw [judgedAt_other hk] at hblocks
  have hkept (n : Option Nat) : keptStroke s.store.areas.coin n = n := by unfold keptStroke; rw [hc]; rfl
  have hcall : (judgeAreas s.store.areas).call = a.contents := by
    unfold judgeAreas
    dsimp only
    rw [contentsOr_some ha, hkept]
  have hcoin : (judgeAreas s.store.areas).coin = c.contents := contentsOr_some hc
  have hvault : (judgeAreas s.store.areas).vault = v.contents := by
    unfold judgeAreas
    dsimp only
    rw [contentsOr_some hv, hkept]
  have hlog : (judgeAreas s.store.areas).log = g.contents := contentsOr_some hg
  have hvalid : (judgeAreas s.store.areas).invalid.contains .coin = false := by rw [invalid_coin, hc]; rfl
  refine ⟨⟨a.contents.lastCredited, ?_⟩, ⟨s.pins.jam, s.now, ?_⟩, ?_, ?_, hblocks .rate (by decide)⟩
  · refine (hblocks .call (by decide) : _ = _).trans ?_
    show callAtStart (recordsAtStart k (judgeAreas s.store.areas).call (judgeAreas s.store.areas).log.handed
      (if (judgeAreas s.store.areas).invalid.contains .coin = true then none else some (judgeAreas s.store.areas).coin))
      (judgeAreas s.store.areas).call.lastCredited = _
    rw [hvalid, hcall, hcoin, hlog]
    rfl
  · rw [startBlocks_coin, judgedAt_other hk, hcall, hcoin, hlog]
  · rw [show (startBlocks k s).vault = _ from hblocks .vault (by decide)]
    show (judgeAreas s.store.areas).vault.counters = _ ∧ (judgeAreas s.store.areas).vault.lastStroke = _
    rw [hvault]
    exact ⟨rfl, rfl⟩
  · exact (hblocks .log (by decide) : _ = _).trans hlog

/-! The parts of the start, `x`, before the end of the step -/

section Part

variable (hx : startPart k s = x)
include hx

theorem part_startKept : StartKept (startBlocks k s) x := hx ▸ startPart_startKept

/-- The blocks that a start's own events leave at their starting values. -/
theorem part_only : OnlyChanges [.call, .coin, .vault, .incd, .log, .bank]
    (blocksAtStart k (judgedAt k s.store.areas) s) (finish s0 x) := by
  have hblocks : OnlyChanges [.call, .coin, .vault, .incd, .log, .bank]
      (blocksAtStart k (judgedAt k s.store.areas) s) (startBlocks k s) := startBlocks_only.wider (by decide)
  exact (hblocks.step (part_startKept hx).only (by decide)).step (only_of_body (l := []) (finish_body ..))
    (List.nil_subset _)

/-- R40, R29, R39, R88, R199: the blocks that every start leaves at their starting values. -/
theorem startTaken_blocks : (finish s0 x).power = .starting ∧ (finish s0 x).store.start.kind = k
      ∧ (finish s0 x).line.state = .guard ∧ (finish s0 x).line.owner = .none
      ∧ (finish s0 x).line.guardTimer = some ((finish s0 x).now + 1500)
      ∧ (∀ j, (cellOf j (finish s0 x).keys).state = .released) ∧ (finish s0 x).keys.collection = .inactive
      ∧ (finish s0 x).rate = RateBlock.inactive ∧ (finish s0 x).coin.transit = none
      ∧ (finish s0 x).call.openSlot = none ∧ (finish s0 x).call.closingSlot = none := by
  have honly := part_only (s0 := s0) hx
  have hkept := part_startKept hx
  obtain ⟨hopen, hclosing, -⟩ := hkept.call startBlocks_starting.1
  have hcoin : x.coin.transit = none := by rw [hkept.transit, startBlocks_coin]; rfl
  have hline : (finish s0 x).line = lineAtStart s.now := honly .line (by decide)
  have hkeys : (finish s0 x).keys = keysAtStart := honly .keys (by decide)
  have hnow : (finish s0 x).now = s.now := honly .now (by decide)
  have hstart := honly .start (by decide)
  rw [finish_coin, finish_call, hline, hkeys, hnow]
  refine ⟨honly .power (by decide), by rw [show (finish s0 x).store.start = _ from hstart]; rfl, rfl, rfl, rfl,
    fun j => by rw [cellOf_fresh], rfl, honly .rate (by decide), hcoin, hopen, hclosing⟩

theorem startTaken_link : (finish s0 x).link.outstanding = none ∧ (finish s0 x).link.assembler = .hunt
    ∧ (finish s0 x).link.input = [] ∧ (finish s0 x).link.ended = []
    ∧ (finish s0 x).incd.cordOpen = none ∧ (finish s0 x).incd.window = [] := by
  have hlink := part_only (s0 := s0) hx .input (by decide)
  have hwired : Kept True (blocksAtStart k (judgedAt k s.store.areas) s) x := hx ▸ startPart_wired
  have houtstanding : x.link.outstanding = none := (congrArg LinkBlock.outstanding (hwired.wires trivial) :)
  obtain ⟨hcord, hwindow⟩ := (part_startKept hx).sensors
  obtain ⟨hcord', hwindow'⟩ := startBlocks_sensors (k := k) (s := s)
  rw [finish_incd, finish_outstanding]
  exact ⟨houtstanding, (congrArg LinkBlock.assembler hlink :), (congrArg LinkBlock.input hlink :),
    (congrArg LinkBlock.ended hlink :), hcord.trans hcord', hwindow.trans hwindow'⟩

theorem part_bank : (finish s0 x).bank = (startBlocks k s).bank := by
  rw [finish_bank]; exact (part_startKept hx).only .bank (by decide)

/-- R124: what every start leaves of the banks. -/
theorem startTaken_banks : OneActive (finish s0 x) ∧ (finish s0 x).bank.a.state ≠ .retiring
    ∧ (finish s0 x).bank.b.state ≠ .retiring ∧ (finish s0 x).bank.inUseA = false
    ∧ (finish s0 x).bank.inUseB = false := by
  obtain ⟨hactive, hretiring, -, -, hua, hub⟩ := startBlocks_bank (k := k) (s := s)
  unfold OneActive
  rw [part_bank hx]
  exact ⟨hactive, hretiring .a, hretiring .b, hua, hub⟩

theorem part_store : (finish s0 x).now = s.now ∧ (finish s0 x).store.marker = s.store.marker
    ∧ (finish s0 x).store.clock = s.store.clock := by
  have honly := part_only (s0 := s0) hx
  obtain ⟨hclock, -⟩ := honly .clock (by decide)
  exact ⟨honly .now (by decide), honly .marker (by decide), hclock⟩

end Part

/-! ### FACTORY_CLEAR (R179, R85) -/

theorem clearActive_empty {i : IncidentKind} {c : IncidentCause} (h : s.incd.map = []) : clearActive i c s = s := by
  unfold clearActive; rw [h]; rfl

theorem readingsAtStart_empty (h : s.incd.map = []) (ho : s.coin.order = .inOrder) (hf : s.coin.inletFault = false) :
    readingsAtStart s = s := by
  unfold readingsAtStart readAbsent
  rw [clearActive_empty h, clearActive_empty h, hf]
  show reading _ .escrowJam (clearActive .inletJam .startup s) = s
  rw [clearActive_empty h, ho]
  exact clearActive_empty h

theorem startBlocks_factory_map : (startBlocks .factory s).incd.map = [] := by
  have hread : readingsAtStart (powerLossAtStart .factory (blocksAtStart .factory (judgedAt .factory s.store.areas) s)) =
      blocksAtStart .factory (judgedAt .factory s.store.areas) s := readingsAtStart_empty rfl rfl rfl
  have hbanks := banksAtStart_only (s := readingsAtStart (powerLossAtStart .factory
    (blocksAtStart .factory (judgedAt .factory s.store.areas) s))) .incd (by decide)
  unfold startBlocks
  rw [show (banksAtStart _).incd = _ from hbanks, hread]
  rfl

theorem startTaken_factory (hx : startPart .factory s = x) :
    (finish s0 x).config = ConfigItems.default ∧ (finish s0 x).store.start.invalid = [] ∧ (finish s0 x).store.log = {}
      ∧ (finish s0 x).incd.map = [] ∧ PurgeBegun (finish s0 x) := by
  have honly := part_only (s0 := s0) hx
  have hstart := honly .start (by decide)
  have hpurge : x = startPurge (startBlocks .factory s) := by rw [← hx, startPart_eq]; rfl
  have hkept : OnlyChanges [.coin] (startBlocks .factory s) x := by rw [hpurge]; exact startPurge_only
  have hlog : (startBlocks .factory s).store.log = _ := startBlocks_only .log (by decide)
  have hescrow : (startBlocks .factory s).coin.escrow = [] := by rw [startBlocks_coin]; rfl
  refine ⟨honly .config (by decide), by rw [show (finish s0 x).store.start = _ from hstart]; rfl, ?_, ?_, ?_⟩
  · rw [finish_log, show x.store.log = _ from hkept .log (by decide), hlog]
    rfl
  · rw [finish_incd, show x.incd = _ from hkept .incd (by decide), startBlocks_factory_map]
  · rw [hpurge]
    exact purgeBegun hescrow

/-! ### The other kinds -/

section Other

variable (hk : k ≠ .factory) (hx : startPart k s = x)
include hk hx

theorem startTaken_config : (∀ c, s.store.areas.config.newest = some c →
      (finish s0 x).config = c.contents ∧ .config ∉ (finish s0 x).store.start.invalid)
    ∧ (s.store.areas.config.newest = none → .config ∈ (finish s0 x).store.start.invalid
        ∧ ConfigItems.default.vaultCapacity ≤ (finish s0 x).config.vaultCapacity
        ∧ (finish s0 x).config = { ConfigItems.default with vaultCapacity := (finish s0 x).config.vaultCapacity }) := by
  have honly := part_only (s0 := s0) hx
  rw [judgedAt_other hk] at honly
  have hconfig : (finish s0 x).config = (judgeAreas s.store.areas).config := honly .config (by decide)
  have hstart := honly .start (by decide)
  have hinvalid : (finish s0 x).store.start.invalid = (judgeAreas s.store.areas).invalid := by
    rw [show (finish s0 x).store.start = _ from hstart]; rfl
  rw [hinvalid, hconfig]
  refine ⟨fun c hc => ⟨contentsOr_some hc, fun hmem => ?_⟩, fun hnone => ⟨(invalid_config _).2 hnone, ?_⟩⟩
  · rw [invalid_config, hc] at hmem
    exact absurd hmem nofun
  · have hfactory : (judgeAreas s.store.areas).config = factoryConfig
        (contentsOr s.store.areas.vault {}).counters.total (contentsOr s.store.areas.coin {}).escrow.length :=
      contentsOr_none hnone
    rw [hfactory]
    exact ⟨Nat.le_max_left _ _, rfl⟩

theorem startTaken_contents :
    (∀ b, s.store.areas.bankA.newest = some b → (finish s0 x).bank.a.contents = b.contents.contents)
      ∧ ∀ b, s.store.areas.bankB.newest = some b → (finish s0 x).bank.b.contents = b.contents.contents := by
  obtain ⟨-, -, ha, hb, -⟩ := startBlocks_bank (k := k) (s := s)
  rw [judgedAt_other hk] at ha hb
  rw [part_bank hx]
  exact ⟨fun b h => ha.trans (congrArg Bank.contents (contentsOr_some h)),
    fun b h => hb.trans (congrArg Bank.contents (contentsOr_some h))⟩

theorem part_other : x =
    if s.store.areas.coin.newest.isNone then startPurge (markUnknown (startBlocks k s))
    else if s.store.areas.call.newest.isNone then
      if (startBlocks k s).coin.order = .outOfOrder then strand (startBlocks k s)
      else startPurge (discardList (startBlocks k s))
    else progress (startRun .startUp (resolveMoving (startBlocks k s))) := by
  rw [← hx, startPart_eq, judgedAt_other hk, invalid_call, invalid_coin]
  unfold escrowAtStart
  rw [if_neg hk, Bool.not_not, Bool.not_not]

/-- R83: COIN's area lost. -/
theorem startTaken_coinLost (hc : s.store.areas.coin.newest = none) : PurgeBegun (finish s0 x)
    ∧ ∀ sl rest, (finish s0 x).call.atStart = sl :: rest → sl.record.flags.escrowUnknown = true := by
  have hpart := part_other hk hx
  rw [hc, Option.isNone_none, if_pos rfl] at hpart
  have hescrow : (startBlocks k s).coin.escrow = [] := by
    rw [startBlocks_coin, judgedAt_other hk, show (judgeAreas s.store.areas).coin = {} from contentsOr_none hc]
    show untimed (markCounted _ []) = []
    rw [markCounted_nil]
    rfl
  have hstarting := (startBlocks_starting (k := k) (s := s)).1
  generalize startBlocks k s = b at *
  have hunknown : markUnknown b = _ := modifyOwnerSlot_start hstarting
  rw [hpart, hunknown]
  refine ⟨purgeBegun hescrow, fun sl rest hl => ?_⟩
  rw [finish_call] at hl
  have hl' : modifyHead _ b.call.atStart = sl :: rest := hl
  cases hs : b.call.atStart with
  | nil => rw [hs] at hl'; exact absurd hl' nofun
  | cons y l =>
    rw [hs] at hl'
    obtain ⟨rfl, -⟩ := List.cons.inj hl'
    rfl

omit hx in
theorem callLost_blocks {c : Copy CoinArea} (ha : s.store.areas.call.newest = none)
    (hc : s.store.areas.coin.newest = some c) : (startBlocks k s).call.atStart = []
      ∧ (startBlocks k s).coin.order = c.contents.order ∧ (startBlocks k s).coin.run = .none
      ∧ (startBlocks k s).coin.mover = .idle ∧ (startBlocks k s).coin.strandedTally = c.contents.strandedTally := by
  have hcall := startBlocks_only (k := k) (s := s) .call (by decide)
  rw [judgedAt_other hk] at hcall
  have hcoinArea : (judgeAreas s.store.areas).coin = c.contents := contentsOr_some hc
  have hcallArea : (judgeAreas s.store.areas).call = { lastCredited := keptStroke s.store.areas.coin none } := by
    unfold judgeAreas
    dsimp only
    rw [contentsOr_none ha]
  rw [startBlocks_coin, judgedAt_other hk, hcoinArea]
  refine ⟨?_, rfl, rfl, rfl, rfl⟩
  rw [show (startBlocks k s).call = _ from hcall]
  show recordsAtStart k (judgeAreas s.store.areas).call _ _ = []
  rw [hcallArea]
  rfl

/-- R83: CALL's area lost. -/
theorem startTaken_callLost {c : Copy CoinArea} (ha : s.store.areas.call.newest = none)
    (hc : s.store.areas.coin.newest = some c) : (finish s0 x).call.atStart = [] ∧ (finish s0 x).coin.escrow = []
      ∧ (c.contents.order = .inOrder →
          PurgeBegun (finish s0 x) ∧ (finish s0 x).coin.strandedTally = c.contents.strandedTally)
      ∧ (c.contents.order = .outOfOrder → (finish s0 x).coin.run = .none ∧ (finish s0 x).coin.mover = .idle
          ∧ (finish s0 x).coin.order = .outOfOrder) := by
  obtain ⟨hstart, horder, hrun, hmover, htally⟩ := callLost_blocks hk ha hc
  have hnone := (part_startKept hx).noRecord startBlocks_starting.1 hstart
  have hstarting := (startBlocks_starting (k := k) (s := s)).1
  have hpart := part_other hk hx
  rw [hc, ha, Option.isNone_none, if_pos rfl] at hpart
  have hpart' : x = if (startBlocks k s).coin.order = .outOfOrder then strand (startBlocks k s)
      else startPurge (discardList (startBlocks k s)) := hpart
  clear hpart
  rw [finish_call]
  refine ⟨hnone, ?_⟩
  generalize startBlocks k s = b at *
  by_cases ho : c.contents.order = .outOfOrder
  · rw [if_pos (horder.trans ho)] at hpart'
    obtain ⟨hescrow, hrest⟩ := strand_leaves hstarting
    rw [finish_coin, hpart', hrest]
    refine ⟨hescrow, fun hin => absurd (hin.symm.trans ho) nofun, fun _ => ?_⟩
    obtain ⟨hr, hm, hor⟩ := allStranded_rest b.coin
    exact ⟨hr.trans hrun, hm.trans hmover, hor.trans (horder.trans ho)⟩
  · rw [if_neg (by rw [horder]; exact ho)] at hpart'
    have hdiscard : (discardList b).coin = (emptyList b).coin := vaultRefresh_only .coin (by decide)
    rw [hpart']
    refine ⟨?_, fun _ => ⟨purgeBegun (by rw [hdiscard]; rfl), ?_⟩, fun hout => absurd hout ho⟩
    · rw [finish_coin]
      show (discardList b).coin.escrow = []
      rw [hdiscard]
      rfl
    · rw [finish_coin]
      show (discardList b).coin.strandedTally = _
      rw [hdiscard]
      exact htally

/-- R84, R181: the start's escrow is treated from the areas as they were judged. -/
theorem startTaken_treats {a : Copy CallArea} {c : Copy CoinArea} {v : Copy VaultArea} {g : Copy LogArea}
    (ha : s.store.areas.call.newest = some a) (hc : s.store.areas.coin.newest = some c)
    (hv : s.store.areas.vault.newest = some v) (hg : s.store.areas.log.newest = some g) :
    StartTreats k a.contents c.contents v.contents g.contents (finish s0 x) := by
  have hpart := part_other hk hx
  rw [hc, ha, Option.isNone_some, if_neg Bool.false_ne_true, Option.isNone_some, if_neg Bool.false_ne_true] at hpart
  rw [hpart]
  exact (startBlocks_treats hk ha hc hv hg).treated

end Other

/-- R179 to R181, R83 to R85, R107, R124: a start has been taken. -/
theorem startTaken (hx : startPart k s = x) : StartTaken s.store.areas k (finish s0 x) := by
  obtain ⟨hpower, hkind, hstate, howner, hguard, hcells, hcollection, hrate, htransit, hopen, hclosing⟩ :=
    startTaken_blocks (s0 := s0) hx
  obtain ⟨hout, hassembler, hinput, hended, hcord, hwindow⟩ := startTaken_link (s0 := s0) hx
  refine ⟨hpower, hkind, hstate, howner, hguard, hcells, hcollection, hrate, htransit, hopen, hclosing, hout, hassembler,
    hinput, hended, hcord, hwindow, ?_, fun hk => ?_, startTaken_banks hx⟩
  · rintro rfl
    exact startTaken_factory hx
  · obtain ⟨hconfig, hnoConfig⟩ := startTaken_config (s0 := s0) hk hx
    obtain ⟨hbankA, hbankB⟩ := startTaken_contents (s0 := s0) hk hx
    refine ⟨hconfig, hnoConfig, fun a c v g ha hc hv hg => startTaken_treats hk hx ha hc hv hg,
      fun hc => startTaken_coinLost hk hx hc, fun c ha hc => startTaken_callLost hk hx ha hc, fun n b hb => ?_⟩
    cases n with
    | a => exact hbankA b hb
    | b => exact hbankB b hb

theorem kindOfMarker_eq (m : Marker) : kindOfMarker m = kindFor m := by cases m <;> rfl

end Start

end Sys2Proof.Machine

open Sys2Proof Sys2Proof.Machine

/-- Settles O39: the start is the one that the marker tells, from the areas as the outage has left them. -/
theorem powerUpTakesStartingState : Obligations.PowerUpTakesStartingState := by
  intro held copies lost s hp
  have hmarkers : (afterOutage held copies lost s).store.marker = (match copies with
      | .both | .first => s.store.marker | .second => s.store.areas.marker | .neither => .unreadable) := by
    cases copies <;> rfl
  have hexec : exec (.powerUp held copies lost) s = .next (finish (afterOutage held copies lost s)
      (startPart (kindOfMarker (afterOutage held copies lost s).store.marker) (afterOutage held copies lost s))) :=
    if_pos hp
  have hareas : (afterOutage held copies lost s).store.areas = lost.foldl loseArea s.store.areas := rfl
  have hnows : (afterOutage held copies lost s).now = s.now := rfl
  have hclocks : (afterOutage held copies lost s).store.clock = if held = true then s.store.clock else none := rfl
  generalize afterOutage held copies lost s = u at *
  generalize hx : startPart (kindOfMarker u.store.marker) u = x at hexec
  obtain ⟨hnow, hmarker, hclock⟩ := part_store (s0 := u) hx
  refine ⟨_, hexec, hnow.trans hnows, hmarker.trans hmarkers, hclock.trans hclocks, ?_⟩
  rw [hmarker, ← hareas, ← kindOfMarker_eq]
  exact startTaken hx

end

section
/-! O17: the end of a frame, and the frame chosen next; after the reply to a restart, the start. -/

namespace Sys2Proof.Machine

variable {s t u v w x : State}

/-- The frame has ended, and the transmitter is IDLE. -/
def frameOver (x : Sending) (s : State) : State := idleTx (reach (some x.endsAt) s)

theorem frameOver_link (x : Sending) (s : State) : (frameOver x s).link = { s.link with tx := none } := rfl

/-- R196: a waiting reply is chosen first. -/
theorem pump_sends_reply {r : Reply} (htx : s.link.tx = none) (hr : s.link.reply = some r) : pump s =
    { s with link := { s.link with tx := some (startSending s r.kind r.payload true), reply := none } } := by
  unfold pump; rw [htx, hr]

theorem pump_idle (htx : s.link.tx = none) (hr : s.link.reply = none) (hn : s.link.notices = []) : pump s = s := by
  unfold pump; rw [htx, hr, hn]

/-- A step that leaves the account as it was, up to the transmitter's choice. -/
theorem finish_pump {s0 : State} (hp : s0.rate.phase = u.rate.phase) (hk : creditKey s0 = creditKey u) : ∃ y,
    finish s0 u = pump y ∧ y.link = u.link ∧ y.power = u.power := by
  refine ⟨commit (guardFollow (rptFollow u)), ?_, by simp, same_of_body (by simp) .power⟩
  unfold finish
  rw [creditFollow_quiet _ _ hp hk]

section Frame

variable {x : Sending}

/-- What the end of a frame leaves of the link, whatever is sent next. -/
theorem frameOver_effect (ha : alive s = true) :
    let t := finish s (frameOver x s)
    OnlyChanges [.now] s t ∧ t.now = max s.now x.endsAt ∧ t.link.outstanding = s.link.outstanding
      ∧ t.link.reply = none ∧ t.link.noticeLost = s.link.noticeLost
      ∧ (∀ r, s.link.reply = some r → t.link.notices = s.link.notices
          ∧ ∃ e, t.link.tx = some ⟨frameBytes r.kind r.payload, e, true⟩)
      ∧ (s.link.reply = none → ∀ n rest, s.link.notices = n :: rest → t.link.notices = rest
          ∧ ∃ e, t.link.tx = some ⟨frameBytes (byteOf n.kind.kind) n.payload, e, false⟩)
      ∧ (s.link.reply = none → s.link.notices = [] → t.link.notices = [] ∧ t.link.tx = none) := by
  have honly : OnlyChanges [.now] s (finish s (frameOver x s)) := by
    have hover : OnlyChanges [.now] s (frameOver x s) :=
      only_reach.step (only_of_body (l := []) rfl) (List.nil_subset _)
    exact only_finish hover
  have hout : (finish s (frameOver x s)).link.outstanding = s.link.outstanding := finish_outstanding ..
  have hnow : (finish s (frameOver x s)).now = max s.now x.endsAt := finish_now ..
  obtain ⟨y, hfinish, hlink, hpower⟩ := finish_pump (s0 := s) (u := frameOver x s) rfl rfl
  rw [frameOver_link] at hlink
  have hrunning : y.power ≠ .halted := by
    rw [hpower]
    obtain hp | hp := (alive_iff s).1 ha
    · exact fun h => absurd (hp.symm.trans h) nofun
    · exact fun h => absurd (hp.symm.trans h) nofun
  have htx : y.link.tx = none := by rw [hlink]
  have hnotices : y.link.notices = s.link.notices := by rw [hlink]
  have hlost : y.link.noticeLost = s.link.noticeLost := by rw [hlink]
  have hreply : y.link.reply = s.link.reply := by rw [hlink]
  intro t
  have ht : t = pump y := hfinish
  clear_value t
  rw [← ht] at hfinish
  refine ⟨hfinish ▸ honly, hfinish ▸ hnow, hfinish ▸ hout, ?_⟩
  rw [ht]
  cases hr : s.link.reply with
  | some r =>
    rw [pump_sends_reply htx (hreply.trans hr)]
    exact ⟨rfl, hlost, fun r' h => ⟨hnotices, _, by obtain rfl := Option.some.inj h; rfl⟩, nofun, nofun⟩
  | none => cases hn : s.link.notices with
    | nil =>
      rw [pump_idle htx (hreply.trans hr) (hnotices.trans hn)]
      exact ⟨hreply.trans hr, hlost, nofun, nofun, fun _ _ => ⟨hnotices.trans hn, htx⟩⟩
    | cons n rest =>
      rw [pump_sends_head htx (hreply.trans hr) (hnotices.trans hn) hrunning]
      refine ⟨hreply.trans hr, hlost, nofun, fun _ n' rest' h => ?_, nofun⟩
      obtain ⟨rfl, rfl⟩ := List.cons.inj h
      exact ⟨rfl, _, rfl⟩

theorem exec_transmitDone_halted (hp : s.power = .halted) (htx : s.link.tx = some x) : exec .transmitDone s =
    .next (if s.link.reply = none then afterReply x (frameOver x s) else pump (frameOver x s)) := by
  show execTransmitDone s = _
  unfold execTransmitDone
  rw [htx]
  dsimp only
  rw [hp]
  rfl

/-- R184: while a restart is awaited, its reply is sent. -/
theorem haltedReply_effect {r : Reply} (hp : s.power = .halted) (hr : s.link.reply = some r) :
    (pump (frameOver x s)).power = .halted
      ∧ ∃ e, (pump (frameOver x s)).link.tx = some ⟨frameBytes r.kind r.payload, e, true⟩ := by
  rw [pump_sends_reply (s := frameOver x s) rfl hr]
  exact ⟨hp, _, rfl⟩

/-- R184: with its reply sent, the restart begins. -/
theorem afterReply_effect (hreply : x.isReply = true) :
    let t := afterReply x (frameOver x s)
    t.now = max s.now x.endsAt ∧ t.store.marker = s.store.marker ∧ t.store.clock = s.store.clock
      ∧ StartTaken s.store.areas (kindFor s.store.marker) t := by
  have hafter : afterReply x (frameOver x s) =
      finish (frameOver x s) (startPart (kindOfMarker s.store.marker) (frameOver x s)) := if_pos hreply
  have hareas : (frameOver x s).store = s.store := rfl
  have hnows : (frameOver x s).now = max s.now x.endsAt := rfl
  intro t
  have ht : t = _ := hafter
  generalize frameOver x s = u at *
  generalize hx : startPart (kindOfMarker s.store.marker) u = y at ht
  obtain ⟨hnow, hmarker, hclock⟩ := part_store (s0 := u) hx
  rw [ht]
  refine ⟨hnow.trans hnows, hmarker.trans (by rw [hareas]), hclock.trans (by rw [hareas]), ?_⟩
  rw [← kindOfMarker_eq, ← hareas]
  exact startTaken (by rw [hareas]; exact hx)

end Frame

end Sys2Proof.Machine

open Sys2Proof Sys2Proof.Machine

/-- Settles O17: at the end of a frame the reply goes before the notices; after the reply to a restart the start is taken. -/
theorem transmitDoneChoosesTheNextFrame : Obligations.TransmitDoneChoosesTheNextFrame := by
  intro s x htx
  refine ⟨fun ha => ⟨_, exec_transmitDone_alive ha htx, frameOver_effect ha⟩, fun hp hreply r hr => ?_,
    fun hp hreply hr => ?_⟩
  · have hexec := exec_transmitDone_halted hp htx
    rw [if_neg (by rw [hr]; nofun)] at hexec
    exact ⟨_, hexec, haltedReply_effect hp hr⟩
  · have hexec := exec_transmitDone_halted hp htx
    rw [if_pos hr] at hexec
    exact ⟨_, hexec, afterReply_effect hreply⟩

end

section
/-! O7: coin conservation does not follow from `CoinsKept` alone. -/

namespace Sys2Proof.Machine

/-! ### A state that `CoinsKept` admits

`CoinsOwned` ties RATE's mark `closing` to CLEARING only while an account is open. A call in CLEARING whose account has been
copied into its record, with the mark still set, meets it; the next outcome of COIN closes an empty account (R105) and copies
it over the record's fields. RATE sets the mark only with an account open (`tellRateEnd`) and clears it when the account ends
(`accountEnded`): what is missing is a clause of `CoinsOwned` that says so. -/

/-- A record that took over one coin of value 50, which was collected. -/
def collectedRecord : CallRecord :=
  { offHook := none, mode := .localTiming, takenOver := ⟨1, 50⟩, collected := 50 }

/-- The call in CLEARING with that record, its refund asked. -/
def staleCall : CallBlock :=
  { CallBlock.fresh with state := .clearing, openSlot := some { record := collectedRecord, offAt := 0 }, refundAsked := true }

/-- No account is open, and the mark `closing` is set. A stroke without an entry ends. -/
def staleClosing : State :=
  { State.reset with
    pending := [.exitTimerExpiry]
    power := .running
    call := staleCall
    coin := { State.reset.coin with run := .none, mover := .idle, blind := false, exitTimer := some 0 }
    rate := { RateBlock.inactive with closing := true }
    store := { State.reset.store with start := { State.reset.store.start with hookRead := true } } }

theorem staleClosing_owned : CoinsOwned staleClosing where
  denominations := by decide
  nothingToReport := by decide
  noneComplete := by decide
  openComplete := by rintro _ ⟨⟩ h; exact absurd h (by decide)
  noSlotBeforeHook := fun h => absurd h (by decide)
  openExactlyInACall := by decide
  openCounts := by rintro _ ⟨⟩; decide
  unowned := fun h => absurd h (by decide)
  transit := fun x h => absurd (h : none = some x) nofun
  account := fun h => absurd rfl h
  unopened := fun _ => by decide
  collecting := fun h => absurd h (by decide)
  closing := fun h => absurd h (by decide)
  callEndRun := fun h => absurd h (by decide)
  startRun := fun h => absurd rfl h
  purge := fun h => absurd h (by decide)
  counted := by decide

theorem staleClosing_kept : CoinsKept staleClosing := by
  refine ⟨staleClosing_owned, fun sl h => absurd (h : none = some sl) nofun,
    fun sl rest h => absurd (h : [] = sl :: rest) nofun, ?_⟩
  rintro _ ⟨⟩
  exact .inr (by decide)

/-- What the end of the stroke makes of the state, before the end of the step. -/
def staleClosed : State := coinSettled (strokeEnds (reach (some 0) { staleClosing with pending := [] }))

theorem step_staleClosing : step staleClosing = .next (finish { staleClosing with pending := [] } staleClosed) := rfl

/-- R105 step 3 has closed the empty account over the record: its collected value is lost. -/
theorem staleClosed_unbalanced : ∃ sl, staleClosed.call.openSlot = some sl
    ∧ ¬ CoinBalanced staleClosed.config.denomValue 0 sl.record := by
  refine ⟨_, rfl, ?_⟩
  unfold CoinBalanced
  decide

theorem staleClosed_held : callE staleClosed = 0 ∧ staleClosed.rate.phase = .inactive := by decide

theorem finish_staleClosed_notKept (s0 : State) : ¬ CoinsKept (finish s0 staleClosed) := by
  rintro ⟨-, -, -, hopen⟩
  obtain ⟨sl, hslot, hunbalanced⟩ := staleClosed_unbalanced
  obtain ⟨hescrow, hphase⟩ := staleClosed_held
  have hcall : (finish s0 staleClosed).call = staleClosed.call := finish_call ..
  have hheld : callE (finish s0 staleClosed) = callE staleClosed :=
    callE_of_same (finish_coin ..) (congrArg CallBlock.closingSlot hcall) (congrArg CallBlock.atStart hcall)
  have hbalanced := hopen sl (by rw [hcall]; exact hslot)
  rw [finish_config, finish_rate, hheld, hescrow, if_pos hphase] at hbalanced
  exact hunbalanced hbalanced

end Sys2Proof.Machine

open Sys2Proof Sys2Proof.Machine

/-- Refutes O7, by its second part: `CoinsKept` admits `staleClosing`, in which no account is open but RATE's mark `closing` is
set, and the end of a stroke then copies an empty account over the record, which no longer balances. -/
theorem not_everyStepKeepsBalanceAndOneActiveBank : ¬ Obligations.EveryStepKeepsBalanceAndOneActiveBank := by
  rintro ⟨-, hcoins⟩
  have hvalues : staleClosed.config.denomValue = staleClosing.config.denomValue := by decide
  obtain ⟨hkept, -⟩ := hcoins staleClosing _ rfl staleClosing_kept step_staleClosing
    ((congrArg ConfigItems.denomValue (finish_config ..)).trans hvalues)
  exact finish_staleClosed_notKept _ hkept

end
